-- ==== Sys2Proof/Word.lean ====
section
/-! DEFINITION. The plainest types of the CX-8840: words, register names, and the small closed sets of
names the manual uses (R36, R48, R51, R86). -/

namespace Sys2Proof

/-- A scalar register, an address, a control register: 64 bits (R51). -/
abbrev Word := BitVec 64
/-- One byte of memory. -/
abbrev Byte := BitVec 8
/-- A vector register or one port transfer: 2,048 bits (R51). -/
abbrev VWord := BitVec 2048
/-- An FX48 accumulator element, or a 48-bit integer (R94, R95). -/
abbrev Fx := BitVec 48

/-- Number of an x register (R36). -/
abbrev XReg := Fin 32
/-- A vd, va or vb field: 0 to 23 name v0 to v23, 24 to 31 name q0 to q7 (R36). -/
abbrev VReg := Fin 32
/-- Number of a lane mask (R36). -/
abbrev KReg := Fin 8
/-- Number of a stream port (R191). -/
abbrev PortNo := Fin 8
/-- Number of an operand ring (R174). -/
abbrev RingNo := Fin 8
/-- Number of an accumulator (R174). -/
abbrev AccNo := Fin 4
/-- Number of a copy channel (R191). -/
abbrev ChanNo := Fin 4

/-- Integer element widths (R36, ew of an integer operation). -/
inductive Ew where | b8 | h16 | w32 | d64
  deriving DecidableEq, Repr

/-- Floating element formats (R36, ew of a floating operation). -/
inductive Fw where | fp32 | bf16 | fp16
  deriving DecidableEq, Repr

/-- Rounding modes (R36, R99). -/
inductive Rm where | rne | rtz | rup | rdn
  deriving DecidableEq, Repr

/-- Memory orders (R36). -/
inductive Ord where | rlx | acq | rel | ar | sc
  deriving DecidableEq, Repr

/-- Scopes (R36). -/
inductive Scope where
  | strand | tile | consist | domain | die | device | package | system | fabric
  deriving DecidableEq, Repr

/-- Operand formats (R86). -/
inductive Fmt where
  | fp32 | bf16 | fp16 | e5m2 | e4m3 | e3m2 | e2m3 | e2m1 | lut4
  | i16 | i8 | ui8 | i4 | ui4 | i2 | t2
  deriving DecidableEq, Repr

/-- Barrier levels (R252). -/
inductive Level where | tile | consist | group | domain
  deriving DecidableEq, Repr

/-- The kinds of TLBI (R304). -/
inductive TlbiKind where | all | asn | page | gpage
  deriving DecidableEq, Repr

/-- The scopes of TLBI (R304). -/
inductive TlbiScope where | core | device | package
  deriving DecidableEq, Repr

/-- The shadow registers of a copy channel (R203). -/
inductive CpyField where
  | src | dst | len0 | sstride1 | dstride1 | cnt1 | sstride2 | dstride2 | cnt2 | flags
  deriving DecidableEq, Repr

/-- The selectors of CPYSTAT (R210). -/
inductive CpySel where | cdone | nextid | cerrid | cerrst | cerrva
  deriving DecidableEq, Repr

/-- Privileges: USER; HANDLER on profile T, KERNEL on profile G; MONITOR (R48). -/
inductive Priv where | user | system | monitor
  deriving DecidableEq, Repr

/-- The three kernels (R295). -/
inductive Kernel where | monitor | host | resident
  deriving DecidableEq, Repr

/-- A unit that moves data on its own: a port of a strand, or a copy channel of a tile or of a G-core
(channel sets 0 to 511 are tiles, 512 + c is profile G core c) (R218, R328). -/
inductive EngineUnit where
  | port (hart : Nat) (p : PortNo)
  | chan (owner : Nat) (c : ChanNo)
  deriving DecidableEq, Repr

/-- The parts whose corrected errors are counted (R376). -/
inductive ErrUnit where
  | sramRow (tile row : Nat)
  | hbmRow (stack bank row : Nat)
  | lane (link lane : Nat)
  deriving DecidableEq, Repr

/-- What a sensor reading passed (R392). -/
inductive SensorEvent where
  | tempWarn | tempWarnClear | tempCritical | tempCriticalClear | tempTrip | tripCool
  | volt5 | volt5Clear | volt8
  deriving DecidableEq, Repr

/-- What arrives over a chip link: a copy piece to be written, a read of n source bytes, a PUTQ (R204), a SIGS, a SIGW, the
end of a strand's registrations (R290), a wake for a strand here (R289), and a handle's post, bind and query (R370 to
R372). -/
inductive LinkKind where
  | copyPiece
  | sourceRead (n : Nat)
  | putqQueue
  | putqInbox
  | sigs (add : Bool)
  | sigw (hart : Nat) (nowait : Bool)
  | sigDrop (hart : Nat)
  | wake (hart : Nat)
  | post
  | bind (rec : Nat)
  | query
  /-- A home's report of a post that it could not count, to the poster's context (R366). -/
  | uncounted (ctx : Nat)
  deriving DecidableEq, Repr

/-- The kinds of access a translation is asked for (R301). -/
inductive AccKind where
  | load | store | atomic | fetch
  deriving DecidableEq, Repr

namespace Ew
/-- Element width in bits. -/
def bits : Ew → Nat | b8 => 8 | h16 => 16 | w32 => 32 | d64 => 64
/-- Element count n = 2,048 / ew (R150). -/
def count : Ew → Nat | b8 => 256 | h16 => 128 | w32 => 64 | d64 => 32
/-- The field's code (R36). -/
def code : Ew → Nat | b8 => 0 | h16 => 1 | w32 => 2 | d64 => 3
/-- The width a 2-bit code names. -/
def ofCode (n : Nat) : Ew := if n = 0 then b8 else if n = 1 then h16 else if n = 2 then w32 else d64
end Ew

namespace Fw
/-- Element width in bits (R150). -/
def bits : Fw → Nat | fp32 => 32 | bf16 => 16 | fp16 => 16
/-- Element count (R150). -/
def count : Fw → Nat | fp32 => 64 | bf16 => 128 | fp16 => 128
/-- The field's code (R36). -/
def code : Fw → Nat | fp32 => 0 | bf16 => 1 | fp16 => 2
/-- The format a 2-bit code names; 11 is reserved (R36). -/
def ofCode? (n : Nat) : Option Fw :=
  if n = 0 then some fp32 else if n = 1 then some bf16 else if n = 2 then some fp16 else none
/-- The operand format of R86. -/
def fmt : Fw → Fmt | fp32 => .fp32 | bf16 => .bf16 | fp16 => .fp16
end Fw

namespace Rm
def code : Rm → Nat | rne => 0 | rtz => 1 | rup => 2 | rdn => 3
def ofCode (n : Nat) : Rm := if n = 0 then rne else if n = 1 then rtz else if n = 2 then rup else rdn
end Rm

namespace Ord
def code : Ord → Nat | rlx => 0 | acq => 1 | rel => 2 | ar => 3 | sc => 4
/-- 101 to 111 are reserved (R36). -/
def ofCode? (n : Nat) : Option Ord :=
  if n = 0 then some rlx else if n = 1 then some acq else if n = 2 then some rel
  else if n = 3 then some ar else if n = 4 then some sc else none
end Ord

namespace Scope
def code : Scope → Nat
  | strand => 0 | tile => 1 | consist => 2 | domain => 3 | die => 4 | device => 5 | package => 6
  | system => 7 | fabric => 8
/-- 9 to 15 are reserved (R36). -/
def ofCode? (n : Nat) : Option Scope :=
  if n = 0 then some strand else if n = 1 then some tile else if n = 2 then some consist
  else if n = 3 then some domain else if n = 4 then some die else if n = 5 then some device
  else if n = 6 then some package else if n = 7 then some system else if n = 8 then some fabric else none
end Scope

namespace Fmt
def code : Fmt → Nat
  | fp32 => 0 | bf16 => 1 | fp16 => 2 | e5m2 => 3 | e4m3 => 4 | e3m2 => 5 | e2m3 => 6 | e2m1 => 7
  | lut4 => 8 | i16 => 9 | i8 => 10 | ui8 => 11 | i4 => 12 | ui4 => 13 | i2 => 14 | t2 => 15
/-- Every 4-bit code names a format (R86). -/
def ofCode (n : Nat) : Fmt :=
  if n = 0 then fp32 else if n = 1 then bf16 else if n = 2 then fp16 else if n = 3 then e5m2
  else if n = 4 then e4m3 else if n = 5 then e3m2 else if n = 6 then e2m3 else if n = 7 then e2m1
  else if n = 8 then lut4 else if n = 9 then i16 else if n = 10 then i8 else if n = 11 then ui8
  else if n = 12 then i4 else if n = 13 then ui4 else if n = 14 then i2 else t2
/-- Element width in bits (R86). -/
def bits : Fmt → Nat
  | fp32 => 32 | bf16 => 16 | fp16 => 16 | e5m2 => 8 | e4m3 => 8 | e3m2 => 6 | e2m3 => 6 | e2m1 => 4
  | lut4 => 4 | i16 => 16 | i8 => 8 | ui8 => 8 | i4 => 4 | ui4 => 4 | i2 => 2 | t2 => 2
/-- The integer formats (R86, R92, R95). -/
def isInt : Fmt → Bool
  | i16 | i8 | ui8 | i4 | ui4 | i2 | t2 => true
  | _ => false
end Fmt

namespace Level
def code : Level → Nat | tile => 0 | consist => 1 | group => 2 | domain => 3
def ofCode (n : Nat) : Level := if n = 0 then tile else if n = 1 then consist else if n = 2 then group else domain
/-- The level as an index of the per-level registers. -/
def idx : Level → Fin 4 | tile => 0 | consist => 1 | group => 2 | domain => 3
end Level

namespace TlbiKind
def code : TlbiKind → Nat | all => 0 | asn => 1 | page => 2 | gpage => 3
def ofCode (n : Nat) : TlbiKind := if n = 0 then all else if n = 1 then asn else if n = 2 then page else gpage
end TlbiKind

namespace TlbiScope
def code : TlbiScope → Nat | core => 0 | device => 5 | package => 6
def ofCode? (n : Nat) : Option TlbiScope :=
  if n = 0 then some core else if n = 5 then some device else if n = 6 then some package else none
end TlbiScope

namespace CpyField
def code : CpyField → Nat
  | src => 0 | dst => 1 | len0 => 2 | sstride1 => 3 | dstride1 => 4 | cnt1 => 5 | sstride2 => 6
  | dstride2 => 7 | cnt2 => 8 | flags => 9
def ofCode? (n : Nat) : Option CpyField :=
  if n = 0 then some src else if n = 1 then some dst else if n = 2 then some len0
  else if n = 3 then some sstride1 else if n = 4 then some dstride1 else if n = 5 then some cnt1
  else if n = 6 then some sstride2 else if n = 7 then some dstride2 else if n = 8 then some cnt2
  else if n = 9 then some flags else none
end CpyField

namespace CpySel
def code : CpySel → Nat | cdone => 0 | nextid => 1 | cerrid => 2 | cerrst => 3 | cerrva => 4
def ofCode? (n : Nat) : Option CpySel :=
  if n = 0 then some cdone else if n = 1 then some nextid else if n = 2 then some cerrid
  else if n = 3 then some cerrst else if n = 4 then some cerrva else none
end CpySel

namespace Priv
/-- The code of TSTATUS.PPRIV (R319). -/
def code : Priv → Nat | user => 0 | system => 1 | monitor => 2
def ofCode (n : Nat) : Priv := if n = 0 then user else if n = 1 then system else monitor
end Priv

namespace Kernel
/-- The code of a waybill entry's OWNER and PEER fields (R308). -/
def code : Kernel → Nat | monitor => 0 | host => 1 | resident => 2
/-- 3 names no kernel (R311, BADPEER). -/
def ofCode? (n : Nat) : Option Kernel :=
  if n = 0 then some monitor else if n = 1 then some host else if n = 2 then some resident else none
end Kernel

end Sys2Proof
end

