-- ==== Sys2Proof/Machine/Num.lean ====
section
/-! DEFINITION. Number formats and exact arithmetic (R86 to R113): values are exact dyadic numbers, and a result is
rounded once, at the end (R96). -/

namespace Sys2Proof.Machine

/-- A value: NaN, an infinity, or (−1)^neg × m × 2^e. With `st` the exact magnitude lies strictly between m × 2^e and
(m + 1) × 2^e: only quotients, roots and the transcendentals have it, with an e far below the target's grid. -/
inductive Num where
  | nan
  | inf (neg : Bool)
  | fin (neg : Bool) (m : Nat) (e : Int) (st : Bool)
  deriving DecidableEq, Repr

/-- The shape of a floating format (R86, R88, R94). -/
structure FloatFmt where
  ebits : Nat
  mbits : Nat
  bias : Nat
  /-- Its top exponent holds infinity and NaN. -/
  ieee : Bool
  /-- E4M3: no infinity, one NaN pattern per sign. -/
  oneNan : Bool
  deriving DecidableEq, Repr

def FloatFmt.fp32 : FloatFmt := ⟨8, 23, 127, true, false⟩
def FloatFmt.bf16 : FloatFmt := ⟨8, 7, 127, true, false⟩
def FloatFmt.fp16 : FloatFmt := ⟨5, 10, 15, true, false⟩
def FloatFmt.e5m2 : FloatFmt := ⟨5, 2, 15, true, false⟩
def FloatFmt.e4m3 : FloatFmt := ⟨4, 3, 7, false, true⟩
def FloatFmt.e3m2 : FloatFmt := ⟨3, 2, 3, false, false⟩
def FloatFmt.e2m3 : FloatFmt := ⟨2, 3, 1, false, false⟩
def FloatFmt.e2m1 : FloatFmt := ⟨2, 1, 1, false, false⟩
/-- The accumulator format (R94). -/
def FloatFmt.fx48 : FloatFmt := ⟨10, 37, 511, true, false⟩

/-- The floating format of an operand format code, if it is one; a LUT4 code stands for a BF16 value (R90). -/
def floatFmt? : Fmt → Option FloatFmt
  | .fp32 => some .fp32
  | .bf16 => some .bf16
  | .fp16 => some .fp16
  | .e5m2 => some .e5m2
  | .e4m3 => some .e4m3
  | .e3m2 => some .e3m2
  | .e2m3 => some .e2m3
  | .e2m1 => some .e2m1
  | .lut4 | .i16 | .i8 | .ui8 | .i4 | .ui4 | .i2 | .t2 => none

/-- The format of a floating vector width (R36). -/
def fwFloat : Fw → FloatFmt
  | .fp32 => .fp32
  | .bf16 => .bf16
  | .fp16 => .fp16

namespace FloatFmt

/-- Width in bits. -/
def width (f : FloatFmt) : Nat := 1 + f.ebits + f.mbits
/-- Exponent of the grid below the smallest normal value (R96). -/
def gmin (f : FloatFmt) : Int := 1 - (f.bias : Int) - (f.mbits : Int)
/-- The sign bit as a number. -/
def signBit (f : FloatFmt) (neg : Bool) : Nat := if neg then 2 ^ (f.ebits + f.mbits) else 0
/-- The largest finite pattern without sign (R86). -/
def maxPat (f : FloatFmt) : Nat :=
  if f.ieee then (2 ^ f.ebits - 1) * 2 ^ f.mbits - 1
  else if f.oneNan then 2 ^ (f.ebits + f.mbits) - 2 else 2 ^ (f.ebits + f.mbits) - 1
/-- The canonical NaN (R88); +0 in the formats that have none (R102). -/
def nanPat (f : FloatFmt) : Nat :=
  if f.ieee then
    if f.width = 8 ∨ f.width = 48 then 2 ^ (f.ebits + f.mbits) - 1 else (2 ^ f.ebits - 1) * 2 ^ f.mbits + 2 ^ (f.mbits - 1)
  else if f.oneNan then 2 ^ (f.ebits + f.mbits) - 1 else 0
/-- The pattern of an infinity, in the formats that have one. -/
def infPat (f : FloatFmt) (neg : Bool) : Nat := f.signBit neg + (2 ^ f.ebits - 1) * 2 ^ f.mbits
/-- Whether the format has infinities and NaNs (R88). -/
def hasNan (f : FloatFmt) : Bool := f.ieee || f.oneNan

/-- The value of a pattern (R86, R88). -/
def value (f : FloatFmt) (x : Nat) : Num :=
  let neg := x / 2 ^ (f.ebits + f.mbits) % 2 == 1
  let e := x / 2 ^ f.mbits % 2 ^ f.ebits
  let m := x % 2 ^ f.mbits
  if f.ieee && e == 2 ^ f.ebits - 1 then if m == 0 then .inf neg else .nan
  else if f.oneNan && x % 2 ^ (f.ebits + f.mbits) == 2 ^ (f.ebits + f.mbits) - 1 then .nan
  else if e = 0 then .fin neg m f.gmin false
  else .fin neg (2 ^ f.mbits + m) (f.gmin + (e - 1)) false

end FloatFmt

/-! ## Flags (R98): bit 0 NV, 1 DZ, 2 OF, 3 UF, 4 NX -/

abbrev FlagSet := BitVec 5
def flagNV : FlagSet := 1
def flagDZ : FlagSet := 2
def flagOF : FlagSet := 4
def flagUF : FlagSet := 8
def flagNX : FlagSet := 16

/-! ## Rounding (R96, R97) -/

/-- m × 2^e rounded onto the multiples of 2^g: the multiple, and whether the result is inexact. -/
def roundGrid (mode : Rm) (neg : Bool) (m : Nat) (e : Int) (st : Bool) (g : Int) : Nat × Bool :=
  if g ≤ e then (m * 2 ^ (e - g).toNat, st)
  else
    let sh := (g - e).toNat
    let q := m / 2 ^ sh
    let r := m % 2 ^ sh
    let half := 2 ^ (sh - 1)
    let inexact := r != 0 || st
    let up := match mode with
      | .rne => decide (half < r) || (r == half && (st || q % 2 == 1))
      | .rtz => false
      | .rup => inexact && !neg
      | .rdn => inexact && neg
    (if up then q + 1 else q, inexact)

/-- Overflow (R97): the delivered pattern. -/
def overflowPat (f : FloatFmt) (mode : Rm) (sat neg : Bool) : Nat :=
  if sat then f.signBit neg + f.maxPat
  else if f.ieee then
    match mode with
    | .rne => f.infPat neg
    | .rtz => f.signBit neg + f.maxPat
    | .rup => if neg then f.signBit neg + f.maxPat else f.infPat neg
    | .rdn => if neg then f.infPat neg else f.signBit neg + f.maxPat
  else if f.oneNan then f.nanPat
  else f.signBit neg + f.maxPat

/-- Round of R49 on a finite value: the pattern and the flags OF, UF, NX it raises. -/
def roundFin (f : FloatFmt) (mode : Rm) (sat neg : Bool) (m : Nat) (e : Int) (st : Bool) : Nat × FlagSet :=
  if m = 0 then (f.signBit neg, 0)
  else
    let top : Int := (Nat.log2 m : Int) + e
    let full := top - f.mbits
    let g := max full f.gmin
    let (q, inexact) := roundGrid mode neg m e st g
    let pat := (g - f.gmin).toNat * 2 ^ f.mbits + q
    if f.maxPat < pat then (overflowPat f mode sat neg, flagOF ||| flagNX)
    else
      -- tiny: rounded at full precision it stays below the smallest normal value (R96)
      let q' := (roundGrid mode neg m e st full).1
      let tiny := decide (full < f.gmin) &&
        decide (q' * 2 ^ (full - min full (f.gmin)).toNat < 2 ^ (f.mbits + (f.gmin - min full f.gmin).toNat))
      (f.signBit neg + pat, (if inexact then flagNX else 0) ||| (if tiny && inexact then flagUF else 0))

/-- Round of R49 on the result of an operation: NaN is canonical, infinities stand (R89, R96). -/
def roundNum (f : FloatFmt) (mode : Rm) (sat : Bool) : Num → Nat × FlagSet
  | .nan => (f.nanPat, 0)
  | .inf neg => (f.infPat neg, 0)
  | .fin neg m e st => roundFin f mode sat neg m e st

/-! ## Exact operations; each also gives NV where the operation is invalid (R98, R111) -/

/-- The signed numerator of a finite value on the grid 2^g, g at most its own. -/
def signedAt (neg : Bool) (m : Nat) (e g : Int) : Int :=
  let v : Int := ((m * 2 ^ (e - g).toNat : Nat) : Int)
  if neg then -v else v

/-- The value of an integer on the grid 2^g; an exact zero has the given sign. -/
def ofSigned (i : Int) (g : Int) (zneg : Bool) : Num :=
  if i = 0 then .fin zneg 0 0 false else .fin (decide (i < 0)) i.natAbs g false

def Num.neg : Num → Num
  | .nan => .nan
  | .inf n => .inf (!n)
  | .fin n m e st => .fin (!n) m e st

/-- Sum, with the zero signs of R111 under the mode. -/
def addNum (mode : Rm) (a b : Num) : Num × FlagSet :=
  match a, b with
  | .nan, _ => (.nan, 0)
  | _, .nan => (.nan, 0)
  | .inf x, .inf y => if x = y then (.inf x, 0) else (.nan, flagNV)
  | .inf x, .fin .. => (.inf x, 0)
  | .fin .., .inf y => (.inf y, 0)
  | .fin x m e _, .fin y n f _ =>
    let g := min e f
    let zneg := if m = 0 ∧ n = 0 ∧ x = y then x else mode == .rdn
    (ofSigned (signedAt x m e g + signedAt y n f g) g zneg, 0)

/-- Product. -/
def mulNum (a b : Num) : Num × FlagSet :=
  match a, b with
  | .nan, _ => (.nan, 0)
  | _, .nan => (.nan, 0)
  | .inf x, .inf y => (.inf (x != y), 0)
  | .inf x, .fin y n _ _ => if n = 0 then (.nan, flagNV) else (.inf (x != y), 0)
  | .fin x m _ _, .inf y => if m = 0 then (.nan, flagNV) else (.inf (x != y), 0)
  | .fin x m e _, .fin y n f _ => (.fin (x != y) (m * n) (e + f) false, 0)

/-- Fused multiply-add: an invalid product decides whatever the addend holds (R89). -/
def fmaNum (mode : Rm) (a b c : Num) : Num × FlagSet :=
  let p := mulNum a b
  if p.2 != 0 then (.nan, flagNV) else addNum mode p.1 c

/-- −1, 0 or 1 as a < b, a = b, a > b on finite values and infinities; zeros of both signs are equal. -/
def cmpNum (a b : Num) : Option Int :=
  match a, b with
  | .nan, _ => none
  | _, .nan => none
  | .inf x, .inf y => some (if x = y then 0 else if x then -1 else 1)
  | .inf x, .fin .. => some (if x then -1 else 1)
  | .fin .., .inf y => some (if y then 1 else -1)
  | .fin x m e _, .fin y n f _ =>
    let g := min e f
    let i := signedAt x m e g - signedAt y n f g
    some (if i < 0 then -1 else if i = 0 then 0 else 1)

/-- The value's sign, for the order of zeros in minimumNumber and maximumNumber (R111). -/
def Num.isNeg : Num → Bool
  | .nan => false
  | .inf n => n
  | .fin n .. => n

/-- a is at most b in the order in which −0 lies below +0. -/
def leTotal (a b : Num) : Bool :=
  match cmpNum a b with
  | none => false
  | some i => decide (i < 0) || (i == 0 && (a.isNeg || !b.isNeg))

/-- minimumNumber and maximumNumber (R111). -/
def minNum (a b : Num) : Num :=
  match a, b with
  | .nan, _ => b
  | _, .nan => a
  | _, _ => if leTotal a b then a else b
def maxNum (a b : Num) : Num :=
  match a, b with
  | .nan, _ => b
  | _, .nan => a
  | _, _ => if leTotal a b then b else a

/-- Absolute value. -/
def Num.abs : Num → Num
  | .nan => .nan
  | .inf _ => .inf false
  | .fin _ m e st => .fin false m e st

/-- Scaling by a power of two. -/
def Num.scale (x : Num) (k : Int) : Num :=
  match x with
  | .fin n m e st => .fin n m (e + k) st
  | y => y

/-! ## Elements and conversions (R86, R90, R91, R102 to R106) -/

/-- The integer value of an integer pattern; the reserved TERN2 pattern reads 0 (R91). -/
def intValue (f : Fmt) (x : Nat) : Int :=
  match f with
  | .ui8 | .ui4 => (x : Int)
  | .t2 => if x = 1 then 1 else if x = 3 then -1 else 0
  | _ => if x < 2 ^ (f.bits - 1) then (x : Int) else (x : Int) - (2 ^ f.bits : Nat)

/-- Least and greatest value of an integer format (R86, R103). -/
def intRange (f : Fmt) : Int × Int :=
  match f with
  | .ui8 => (0, 255)
  | .ui4 => (0, 15)
  | .t2 => (-1, 1)
  | _ => (-((2 ^ (f.bits - 1) : Nat) : Int), ((2 ^ (f.bits - 1) : Nat) : Int) - 1)

/-- An integer as a value. -/
def ofInt (i : Int) : Num := ofSigned i 0 false

/-- The value of an element, through the codebook for LUT4 (R86, R90), and whether it is TERN2 pattern 10 (R91). -/
def elemValue (f : Fmt) (codebook : BitVec 256) (x : Nat) : Num × Bool :=
  match floatFmt? f with
  | some ff => (ff.value x, false)
  | none =>
    if f = .lut4 then (FloatFmt.bf16.value ((codebook.toNat / 2 ^ (16 * (x % 16))) % 2 ^ 16), false)
    else (ofInt (intValue f x), f == .t2 && x == 2)

/-- The low bits of an integer in an integer format; out of a TERN2's range it is 0 (R103, R104). -/
def wrapInt (f : Fmt) (i : Int) : Nat :=
  if f = .t2 ∧ (i < -1 ∨ 1 < i) then 0 else (i % (2 ^ f.bits : Nat)).toNat

/-- Integer to integer format (R104). -/
def intToInt (f : Fmt) (sat : Bool) (i : Int) : Nat :=
  let r := intRange f
  if r.1 ≤ i ∧ i ≤ r.2 then wrapInt f i
  else if sat then wrapInt f (if i < r.1 then r.1 else r.2) else wrapInt f i

/-- A finite value rounded to an integer, and whether that changed it. -/
def roundInt (mode : Rm) (neg : Bool) (m : Nat) (e : Int) (st : Bool) : Int × Bool :=
  let (q, inexact) := roundGrid mode neg m e st 0
  (if neg then -(q : Int) else q, inexact)

/-- Floating value to an integer range lo to hi, with the wrapped pattern delivered at sat = 0 (R103). -/
def floatToInt (f : Fmt) (mode : Rm) (sat : Bool) (x : Num) : Nat × FlagSet :=
  let r := intRange f
  match x with
  | .nan => (0, flagNV)
  | .inf neg => (if sat then wrapInt f (if neg then r.1 else r.2) else 0, flagNV)
  | .fin neg m e st =>
    let (i, inexact) := roundInt mode neg m e st
    if r.1 ≤ i ∧ i ≤ r.2 then (wrapInt f i, if inexact then flagNX else 0)
    else (if sat then wrapInt f (if i < r.1 then r.1 else r.2) else wrapInt f i, flagNV)

/-- Floating value to floating format (R102). -/
def floatToFloat (f : FloatFmt) (mode : Rm) (sat : Bool) (x : Num) : Nat × FlagSet :=
  match x with
  | .nan => (f.nanPat, if f.hasNan then 0 else flagNV)
  | .inf neg =>
    if sat then (f.signBit neg + f.maxPat, 0)
    else if f.ieee then (f.infPat neg, 0)
    else if f.oneNan then (f.nanPat, flagNV)
    else (f.signBit neg + f.maxPat, flagNV)
  | .fin neg m e st => roundFin f mode sat neg m e st

/-- Convert of R49 on an element of format src (its bits, a codebook for LUT4): pattern, flags, TERNBAD. From a format to
itself the value stays, an infinity included (R165, log 90). -/
def convertElem (src dst : Fmt) (codebook : BitVec 256) (mode : Rm) (sat : Bool) (x : Nat) : Nat × FlagSet × Bool :=
  let (v, tern) := elemValue src codebook x
  let sat := sat && src != dst
  match floatFmt? dst with
  | some f =>
    let r := floatToFloat f mode sat v
    (r.1, r.2, tern)
  | none =>
    if src.isInt then (intToInt dst sat (intValue src x), 0, tern)
    else
      let r := floatToInt dst mode sat v
      (r.1, r.2, tern)

/-- A drain's conversion of an accumulator element under its interpretation (R106). -/
def drainElem (int : Bool) (dst : Fmt) (mode : Rm) (sat : Bool) (x : Fx) : Nat × FlagSet :=
  match floatFmt? dst with
  | some f => floatToFloat f mode sat (if int then ofInt x.toInt else FloatFmt.fx48.value x.toNat)
  | none =>
    if int then (intToInt dst sat x.toInt, 0) else floatToInt dst mode sat (FloatFmt.fx48.value x.toNat)

/-! ## Sums of the matrix unit (R107 to R109) -/

/-- AddFX of R107. -/
def addFX (a b : Fx) : Fx :=
  BitVec.ofNat 48 (roundNum .fx48 .rne false
    (addNum .rne (FloatFmt.fx48.value a.toNat) (FloatFmt.fx48.value b.toNat)).1).1

/-- A product is special when it is a NaN or an infinity (R108). -/
def Num.special : Num → Bool
  | .nan => true
  | .inf _ => true
  | .fin .. => false

/-- A special run's sum (R108). -/
def specialSum (p : List Num) : Num :=
  if p.any (· == .nan) || (p.any (· == .inf false) && p.any (· == .inf true)) then .nan
  else if p.any (· == .inf true) then .inf true else .inf false

/-- The leading bit of a finite product. -/
def Num.top : Num → Int
  | .fin _ m e _ => (Nat.log2 m : Int) + e
  | _ => 0

def Num.isZero : Num → Bool
  | .fin _ m _ _ => m == 0
  | _ => false

/-- A product truncated toward zero onto the grid 2^g, as a signed count. -/
def truncAt (g : Int) : Num → Int
  | .fin neg m e _ =>
    let t : Nat := if g ≤ e then m * 2 ^ (e - g).toNat else m / 2 ^ (g - e).toNat
    if neg then -(t : Int) else t
  | _ => 0

/-- RunSum of R107 over the products of one run. -/
def runSum (p : List Num) : Fx :=
  let r : Num :=
    if p.any Num.special then specialSum p
    else match p with
      | [x] => x
      | _ =>
        match p.filter (fun x => !x.isZero) with
        | [] => .fin (p.all Num.isNeg) 0 0 false
        | x :: xs =>
          let g := xs.foldl (fun t y => max t y.top) x.top - 63
          ofSigned (p.foldl (fun t y => t + truncAt g y) 0) g false
  BitVec.ofNat 48 (roundNum .fx48 .rne false r).1

/-- The 48 products of an element summed into an accumulator element, in runs of the given length (R107). -/
def sumRuns (len : Nat) : Nat → List Num → Fx → Fx
  | 0, _, acc => acc
  | n + 1, p, acc => sumRuns len n (p.drop len) (addFX acc (runSum (p.take len)))

/-- An integer sum into an accumulator element: the value modulo 2^48, and whether it left the range (R95). -/
def addInt48 (acc : Fx) (sum : Int) : Fx × Bool :=
  let t := acc.toInt + sum
  (BitVec.ofInt 48 t, decide (t < -(2 ^ 47 : Int)) || decide ((2 ^ 47 : Int) ≤ t))

/-- The E8M0 block scale (R92). -/
def e8m0 (x : Nat) : Num := if x = 255 then .nan else .fin false 1 ((x : Int) - 127) false

end Sys2Proof.Machine
end

