-- ==== Sys2Proof/Machine/Flags.lean ====
section
/-! DEFINITION. The floating operations of the scalar and vector units with the flags each raises (R96 to R98, R111, R119,
R156, R157, R164, R168): every result is computed exactly and rounded once. -/

namespace Sys2Proof.Machine

/-! ## Arithmetic (R111) -/

/-- A result rounded to a format, with the flags of the operation and of the rounding. -/
def delivered (f : FloatFmt) (rm : Rm) (r : Num × FlagSet) : Nat × FlagSet :=
  let p := roundNum f rm false r.1
  (p.1, r.2 ||| p.2)

def fAdd (f : FloatFmt) (rm : Rm) (a b : Nat) : Nat × FlagSet := delivered f rm (addNum rm (f.value a) (f.value b))
def fSub (f : FloatFmt) (rm : Rm) (a b : Nat) : Nat × FlagSet := delivered f rm (addNum rm (f.value a) (f.value b).neg)
def fMul (f : FloatFmt) (rm : Rm) (a b : Nat) : Nat × FlagSet := delivered f rm (mulNum (f.value a) (f.value b))
/-- VFABD: the absolute value of the exact difference (R156). -/
def fAbd (f : FloatFmt) (rm : Rm) (a b : Nat) : Nat × FlagSet :=
  let r := addNum rm (f.value a) (f.value b).neg
  delivered f rm (r.1.abs, r.2)
/-- ±(a × b) ± c, rounded once (R156). -/
def fFma (f : FloatFmt) (rm : Rm) (negP negC : Bool) (a b c : Nat) : Nat × FlagSet :=
  let x := f.value a
  let z := f.value c
  delivered f rm (fmaNum rm (if negP then x.neg else x) (f.value b) (if negC then z.neg else z))

/-- minimumNumber and maximumNumber, with the canonical NaN (R111). -/
def fMin (f : FloatFmt) (a b : Nat) : Nat := (roundNum f .rne false (minNum (f.value a) (f.value b))).1
def fMax (f : FloatFmt) (a b : Nat) : Nat := (roundNum f .rne false (maxNum (f.value a) (f.value b))).1
/-- −a and |a|, exact (R156). -/
def fNeg (f : FloatFmt) (a : Nat) : Nat := (roundNum f .rne false (f.value a).neg).1
def fAbs (f : FloatFmt) (a : Nat) : Nat := (roundNum f .rne false (f.value a).abs).1
/-- a × 2^s (R168). -/
def fScale (f : FloatFmt) (rm : Rm) (a : Nat) (s : Int) : Nat × FlagSet := roundNum f rm false ((f.value a).scale s)

/-- Relations; a NaN operand makes all but "not equal" false (R119, R158). -/
def fEq (f : FloatFmt) (a b : Nat) : Bool := cmpNum (f.value a) (f.value b) == some 0
def fLt (f : FloatFmt) (a b : Nat) : Bool := cmpNum (f.value a) (f.value b) == some (-1)
def fLe (f : FloatFmt) (a b : Nat) : Bool := fEq f a b || fLt f a b

/-! ## Division and roots (R157) -/

/-- m/n × 2^e for n > 0, to 128 bits and more, with its sticky mark. -/
def quotient (neg : Bool) (m n : Nat) (e : Int) : Num :=
  let k := 160 + Nat.log2 n
  .fin neg (m * 2 ^ k / n) (e - k) (m * 2 ^ k % n != 0)

/-- The floor of the square root, by pairs of bits from the top; fuel is half the width. -/
def isqrt : Nat → Nat → Nat
  | 0, _ => 0
  | fuel + 1, n =>
    let r := 2 * isqrt fuel (n / 4)
    if (r + 1) * (r + 1) ≤ n then r + 1 else r

/-- VFDIV. -/
def divNum (a b : Num) : Num × FlagSet :=
  match a, b with
  | .nan, _ => (.nan, 0)
  | _, .nan => (.nan, 0)
  | .inf _, .inf _ => (.nan, flagNV)
  | .inf x, .fin y _ _ _ => (.inf (x != y), 0)
  | .fin x _ _ _, .inf y => (.fin (x != y) 0 0 false, 0)
  | .fin x m e _, .fin y n f _ =>
    if n = 0 then if m = 0 then (.nan, flagNV) else (.inf (x != y), flagDZ)
    else (quotient (x != y) m n (e - f), 0)

/-- VFSQRT. -/
def sqrtNum (a : Num) : Num × FlagSet :=
  match a with
  | .nan => (.nan, 0)
  | .inf neg => if neg then (.nan, flagNV) else (.inf false, 0)
  | .fin neg m e _ =>
    if m = 0 then (a, 0)
    else if neg then (.nan, flagNV)
    else
      -- m × 2^e = n × 2^(2j) with n of 320 bits or more
      let j := (e - 320) / 2
      let n := m * 2 ^ (e - 2 * j).toNat
      let r := isqrt (Nat.log2 n / 2 + 1) n
      (.fin false r j (r * r != n), 0)

/-- VFRCP. -/
def rcpNum (a : Num) : Num × FlagSet :=
  match a with
  | .nan => (.nan, 0)
  | .inf neg => (.fin neg 0 0 false, 0)
  | .fin neg m e _ => if m = 0 then (.inf neg, flagDZ) else (quotient neg 1 m (-e), 0)

/-- VFRSQ. -/
def rsqNum (a : Num) : Num × FlagSet :=
  match a with
  | .nan => (.nan, 0)
  | .inf neg => if neg then (.nan, flagNV) else (.fin false 0 0 false, 0)
  | .fin neg m e _ =>
    if m = 0 then (.inf neg, flagDZ)
    else if neg then (.nan, flagNV)
    else
      -- 1 / (n × 2^(2j)) with n = m or 2m
      let n := if e % 2 = 0 then m else 2 * m
      let j := e / 2
      let k := 200 + Nat.log2 n
      let q := 2 ^ (2 * k) / n
      let r := isqrt (Nat.log2 q / 2 + 1) q
      (.fin false r (-j - k) (r * r * n != 2 ^ (2 * k)), 0)

/-! ## Transcendentals (R157), in fixed point of 640 fraction bits. The result is cut to 576 bits, which leaves room for
the cut terms; but for the exact cases, which stand apart, the exact value is irrational, so the sticky mark holds
(log 106). -/

def fixBits : Nat := 640
def fixOne : Nat := 2 ^ fixBits

/-- ln 2 as the sum of 1 / (k 2^k). -/
def ln2Fix : Nat := (List.range 660).foldl (fun t k => t + fixOne / ((k + 1) * 2 ^ (k + 1))) 0

/-- The sum of t^k / k! from a term on. -/
def expSeries (t : Nat) : Nat → Nat → Nat → Nat
  | 0, _, _ => 0
  | n + 1, k, term => term + expSeries t n (k + 1) (term * t / fixOne / (k + 1))
/-- e^t for 0 ≤ t < 1. -/
def expFix (t : Nat) : Nat := expSeries t 130 0 fixOne

/-- The sum of z^(2j+1) / (2j+1) from a term on, z² given. -/
def atanhSeries (z2 : Nat) : Nat → Nat → Nat → Nat
  | 0, _, _ => 0
  | n + 1, j, p => p / (2 * j + 1) + atanhSeries z2 n (j + 1) (p * z2 / fixOne)

/-- A positive fixed-point result, without its last 64 bits. -/
def cutFix (neg : Bool) (v : Nat) (shift : Int) : Num := .fin neg (v / 2 ^ 64) (shift - 576) true

/-- A positive value below every grid. -/
def speck (neg : Bool) : Num := .fin neg 1 (-4000) true
/-- Just below 1. -/
def almostOne (neg : Bool) : Num := .fin neg (2 ^ 576 - 1) (-576) true

/-- m × 2^e in fixed point, exact for the values of FP32. -/
def toFix (m : Nat) (e : Int) : Nat := if 0 ≤ e + fixBits then m * 2 ^ (e + fixBits).toNat else m / 2 ^ (-(e + fixBits)).toNat

/-- VFEXP2. -/
def exp2Num (a : Num) : Num × FlagSet :=
  match a with
  | .nan => (.nan, 0)
  | .inf neg => (if neg then .fin false 0 0 false else .inf false, 0)
  | .fin neg m e _ =>
    if m = 0 then (.fin false 1 0 false, 0)
    else if 12 ≤ (Nat.log2 m : Int) + e then (if neg then speck false else .fin false 1 4096 false, 0)
    else
      let x : Int := (if neg then -1 else 1) * (toFix m e : Int)
      let i := x / (fixOne : Int)
      let f := (x % (fixOne : Int)).toNat
      (if f = 0 then .fin false 1 i false else cutFix false (expFix (f * ln2Fix / fixOne)) i, 0)

/-- VFLOG2. -/
def log2Num (a : Num) : Num × FlagSet :=
  match a with
  | .nan => (.nan, 0)
  | .inf neg => if neg then (.nan, flagNV) else (.inf false, 0)
  | .fin neg m e _ =>
    if m = 0 then (.inf true, flagDZ)
    else if neg then (.nan, flagNV)
    else
      let k : Int := (Nat.log2 m : Int) + e
      let y := m * 2 ^ (fixBits - Nat.log2 m)
      if y = fixOne then (ofInt k, 0)
      else
        let z := (y - fixOne) * fixOne / (y + fixOne)
        let l := 2 * atanhSeries (z * z / fixOne) 210 0 z * fixOne / ln2Fix
        let t : Int := k * (fixOne : Int) + (l : Int)
        (if t < 0 then cutFix true (t.natAbs - 1) 0 else cutFix false t.toNat 0, 0)

/-- e^t for a fixed-point t below 512, as a fixed-point number. -/
def expBig (t : Nat) : Nat :=
  let i := t / ln2Fix
  expFix (t - i * ln2Fix) * 2 ^ i

/-- VFTANH. -/
def tanhNum (a : Num) : Num × FlagSet :=
  match a with
  | .nan => (.nan, 0)
  | .inf neg => (.fin neg 1 0 false, 0)
  | .fin neg m e _ =>
    if m = 0 then (a, 0)
    else if 7 ≤ (Nat.log2 m : Int) + e then (almostOne neg, 0)
    else
      let x := expBig (2 * toFix m e)
      (cutFix neg ((x - fixOne) * fixOne / (x + fixOne)) 0, 0)

/-- VFSIGM. -/
def sigmNum (a : Num) : Num × FlagSet :=
  match a with
  | .nan => (.nan, 0)
  | .inf neg => (if neg then .fin false 0 0 false else .fin false 1 0 false, 0)
  | .fin neg m e _ =>
    if m = 0 then (.fin false 1 (-1) false, 0)
    else if 8 ≤ (Nat.log2 m : Int) + e then (if neg then speck false else almostOne false, 0)
    else
      let x := expBig (toFix m e)
      (cutFix false ((if neg then fixOne else x) * fixOne / (x + fixOne)) 0, 0)

/-- The FP32 result of a function of R157. -/
def fp32Of (rm : Rm) (r : Num × FlagSet) : Nat × FlagSet := delivered .fp32 rm r
def value32 (a : Nat) : Num := FloatFmt.fp32.value a

/-! ## The reduction tree (R110) -/

/-- One level: neighbours combined, with the flags so far. -/
def reduceLevel {α : Type} (f : α → α → α × FlagSet) : List α → FlagSet → List α × FlagSet
  | a :: b :: l, fl =>
    let r := f a b
    let t := reduceLevel f l (fl ||| r.2)
    (r.1 :: t.1, t.2)
  | l, fl => (l, fl)

/-- The levels of the tree: n of them. -/
def reduceTree {α : Type} (f : α → α → α × FlagSet) : Nat → List α → FlagSet → List α × FlagSet
  | 0, l, fl => (l, fl)
  | n + 1, l, fl =>
    let r := reduceLevel f l fl
    reduceTree f n r.1 r.2

end Sys2Proof.Machine
end

