-- ==== Sys2Proof/Syntax.lean ====
section
/-! DEFINITION. The instructions and steps of the CX-8840: one constructor per row of spec/opcode_table.json.
The first 234 constructors are the words of the four classes (R35, R41 to R44), with their operand fields; the
other 111 are the whole-package steps that no word encodes (spec/95), each with the unit it is taken at. -/

namespace Sys2Proof

/-- One instruction word, or one step of the package. A field keep is the reuse bit of R38; lv a barrier level. -/
inductive Instr where
  /-- ADD: R114. -/
  | add (d : XReg) (a : XReg) (b : XReg)
  /-- SUB: R114. -/
  | sub (d : XReg) (a : XReg) (b : XReg)
  /-- AND: R114. -/
  | and (d : XReg) (a : XReg) (b : XReg)
  /-- OR: R114. -/
  | or (d : XReg) (a : XReg) (b : XReg)
  /-- XOR: R114. -/
  | xor (d : XReg) (a : XReg) (b : XReg)
  /-- ANDN: R114. -/
  | andn (d : XReg) (a : XReg) (b : XReg)
  /-- SLL: R114. -/
  | sll (d : XReg) (a : XReg) (b : XReg)
  /-- SRL: R114. -/
  | srl (d : XReg) (a : XReg) (b : XReg)
  /-- SRA: R114. -/
  | sra (d : XReg) (a : XReg) (b : XReg)
  /-- ROL: R114. -/
  | rol (d : XReg) (a : XReg) (b : XReg)
  /-- SLT: R114. -/
  | slt (d : XReg) (a : XReg) (b : XReg)
  /-- SLTU: R114. -/
  | sltu (d : XReg) (a : XReg) (b : XReg)
  /-- MIN: R114. -/
  | min (d : XReg) (a : XReg) (b : XReg)
  /-- MAX: R114. -/
  | max (d : XReg) (a : XReg) (b : XReg)
  /-- MINU: R114. -/
  | minu (d : XReg) (a : XReg) (b : XReg)
  /-- MAXU: R114. -/
  | maxu (d : XReg) (a : XReg) (b : XReg)
  /-- CLZ: R114. -/
  | clz (d : XReg) (a : XReg)
  /-- CTZ: R114. -/
  | ctz (d : XReg) (a : XReg)
  /-- POPC: R114. -/
  | popc (d : XReg) (a : XReg)
  /-- SEL: R114. -/
  | sel (d : XReg) (a : XReg) (b : XReg)
  /-- MUL: R115. -/
  | mul (d : XReg) (a : XReg) (b : XReg)
  /-- MULH: R115. -/
  | mulh (d : XReg) (a : XReg) (b : XReg)
  /-- MULHU: R115. -/
  | mulhu (d : XReg) (a : XReg) (b : XReg)
  /-- DIV: R115. -/
  | div (d : XReg) (a : XReg) (b : XReg)
  /-- DIVU: R115. -/
  | divu (d : XReg) (a : XReg) (b : XReg)
  /-- REM: R115. -/
  | rem (d : XReg) (a : XReg) (b : XReg)
  /-- REMU: R115. -/
  | remu (d : XReg) (a : XReg) (b : XReg)
  /-- LEA: R116. -/
  | lea (d : XReg) (a : XReg) (b : XReg) (s : Fin 8)
  /-- BFX: R116. -/
  | bfx (d : XReg) (a : XReg) (n : Fin 64) (p : Fin 64)
  /-- BFI: R116. -/
  | bfi (d : XReg) (a : XReg) (n : Fin 64) (p : Fin 64)
  /-- FADD_S: R119. -/
  | faddS (d : XReg) (a : XReg) (b : XReg)
  /-- FSUB_S: R119. -/
  | fsubS (d : XReg) (a : XReg) (b : XReg)
  /-- FMUL_S: R119. -/
  | fmulS (d : XReg) (a : XReg) (b : XReg)
  /-- FMIN_S: R119. -/
  | fminS (d : XReg) (a : XReg) (b : XReg)
  /-- FMAX_S: R119. -/
  | fmaxS (d : XReg) (a : XReg) (b : XReg)
  /-- FCVT_S_W: R119. -/
  | fcvtSW (d : XReg) (a : XReg)
  /-- FCVT_W_S: R119. -/
  | fcvtWS (d : XReg) (a : XReg)
  /-- FEQ_S: R119. -/
  | feqS (d : XReg) (a : XReg) (b : XReg)
  /-- FLT_S: R119. -/
  | fltS (d : XReg) (a : XReg) (b : XReg)
  /-- FLE_S: R119. -/
  | fleS (d : XReg) (a : XReg) (b : XReg)
  /-- FMA_S: R119. -/
  | fmaS (d : XReg) (a : XReg) (b : XReg)
  /-- FCVT_S_BF: R119. -/
  | fcvtSBf (d : XReg) (a : XReg)
  /-- FCVT_BF_S: R119. -/
  | fcvtBfS (d : XReg) (a : XReg)
  /-- ADDI: R117. -/
  | addi (d : XReg) (a : XReg) (i : BitVec 13)
  /-- ANDI: R117. -/
  | andi (d : XReg) (a : XReg) (i : BitVec 13)
  /-- ORI: R117. -/
  | ori (d : XReg) (a : XReg) (i : BitVec 13)
  /-- XORI: R117. -/
  | xori (d : XReg) (a : XReg) (i : BitVec 13)
  /-- SLLI: R117. -/
  | slli (d : XReg) (a : XReg) (s : Fin 64)
  /-- SRLI: R117. -/
  | srli (d : XReg) (a : XReg) (s : Fin 64)
  /-- SRAI: R117. -/
  | srai (d : XReg) (a : XReg) (s : Fin 64)
  /-- SLTI: R117. -/
  | slti (d : XReg) (a : XReg) (i : BitVec 13)
  /-- LUI: R118. -/
  | lui (d : XReg) (i : BitVec 18)
  /-- LUIH: R118. -/
  | luih (d : XReg) (i : BitVec 18)
  /-- BEQ: R120. -/
  | beq (a : XReg) (b : XReg) (o : BitVec 13)
  /-- BNE: R120. -/
  | bne (a : XReg) (b : XReg) (o : BitVec 13)
  /-- BLT: R120. -/
  | blt (a : XReg) (b : XReg) (o : BitVec 13)
  /-- BGE: R120. -/
  | bge (a : XReg) (b : XReg) (o : BitVec 13)
  /-- BLTU: R120. -/
  | bltu (a : XReg) (b : XReg) (o : BitVec 13)
  /-- BGEU: R120. -/
  | bgeu (a : XReg) (b : XReg) (o : BitVec 13)
  /-- JAL: R121. -/
  | jal (d : XReg) (o : BitVec 18)
  /-- JALR: R121. -/
  | jalr (d : XReg) (a : XReg) (i : BitVec 13)
  /-- LOOP: R123. -/
  | loop (a : XReg) (o : BitVec 13)
  /-- BEOS: R126. -/
  | beos (p : PortNo) (o : BitVec 13)
  /-- TRAP: R127. -/
  | trap (a : XReg)
  /-- ERET: R325. -/
  | eret
  /-- WFE: R129. -/
  | wfe (a : XReg)
  /-- WFE_DEADLINE: R129. -/
  | wfeDeadline (h : Nat)
  /-- YIELD: R68. -/
  | yield
  /-- HALT: R130. -/
  | halt
  /-- HALT_RETIRE: R130. -/
  | haltRetire (h : Nat)
  /-- BRK: R127. -/
  | brk
  /-- SCALL: R131. -/
  | scall (d : XReg) (a : XReg) (b : XReg)
  /-- MFC: R132. -/
  | mfc (d : XReg) (r : BitVec 12)
  /-- MTC: R132. -/
  | mtc (a : XReg) (r : BitVec 12)
  /-- MODE_WRITE: R55. -/
  | modeWrite (v : Word)
  /-- ARB_WRITE: R65. -/
  | arbWrite (v : Word)
  /-- VSHARE_WRITE: R71. -/
  | vshareWrite (v : Word)
  /-- MOWNER_WRITE: R75. -/
  | mownerWrite (v : Word)
  /-- FFLAGS_WRITE: R101. -/
  | fflagsWrite (v : Word)
  /-- MSTAT_WRITE: R185. -/
  | mstatWrite (v : Word)
  /-- LOOPC_WRITE: R125. -/
  | loopcWrite (v : Word)
  /-- LB: R134. -/
  | lb (d : XReg) (a : XReg) (o : BitVec 13)
  /-- LBU: R134. -/
  | lbu (d : XReg) (a : XReg) (o : BitVec 13)
  /-- LH: R134. -/
  | lh (d : XReg) (a : XReg) (o : BitVec 13)
  /-- LHU: R134. -/
  | lhu (d : XReg) (a : XReg) (o : BitVec 13)
  /-- LW: R134. -/
  | lw (d : XReg) (a : XReg) (o : BitVec 13)
  /-- LWU: R134. -/
  | lwu (d : XReg) (a : XReg) (o : BitVec 13)
  /-- LD: R134. -/
  | ld (d : XReg) (a : XReg) (o : BitVec 13)
  /-- SB: R134. -/
  | sb (s : XReg) (a : XReg) (o : BitVec 13)
  /-- SH: R134. -/
  | sh (s : XReg) (a : XReg) (o : BitVec 13)
  /-- SW: R134. -/
  | sw (s : XReg) (a : XReg) (o : BitVec 13)
  /-- SD: R134. -/
  | sd (s : XReg) (a : XReg) (o : BitVec 13)
  /-- VLD: R138. -/
  | vld (v : VReg) (a : XReg) (o : BitVec 13)
  /-- VST: R138. -/
  | vst (v : VReg) (a : XReg) (o : BitVec 13)
  /-- VLDS: R139. -/
  | vlds (v : VReg) (a : XReg) (b : XReg) (k : KReg) (d64 : Bool)
  /-- VSTS: R139. -/
  | vsts (v : VReg) (a : XReg) (b : XReg) (k : KReg) (d64 : Bool)
  /-- VGTH: R140. -/
  | vgth (v : VReg) (a : XReg) (i : VReg) (k : KReg) (d64 : Bool)
  /-- VSCT: R140. -/
  | vsct (v : VReg) (a : XReg) (i : VReg) (k : KReg) (d64 : Bool)
  /-- LDA: R143. -/
  | lda (d : XReg) (a : XReg) (ord : Ord) (scope : Scope) (dbl : Bool)
  /-- STL: R143. -/
  | stl (a : XReg) (b : XReg) (ord : Ord) (scope : Scope) (dbl : Bool)
  /-- AMOADD: R145. -/
  | amoadd (d : XReg) (a : XReg) (b : XReg) (ord : Ord) (scope : Scope) (dbl : Bool)
  /-- AMOAND: R145. -/
  | amoand (d : XReg) (a : XReg) (b : XReg) (ord : Ord) (scope : Scope) (dbl : Bool)
  /-- AMOOR: R145. -/
  | amoor (d : XReg) (a : XReg) (b : XReg) (ord : Ord) (scope : Scope) (dbl : Bool)
  /-- AMOXOR: R145. -/
  | amoxor (d : XReg) (a : XReg) (b : XReg) (ord : Ord) (scope : Scope) (dbl : Bool)
  /-- AMOMIN: R145. -/
  | amomin (d : XReg) (a : XReg) (b : XReg) (ord : Ord) (scope : Scope) (dbl : Bool)
  /-- AMOMAX: R145. -/
  | amomax (d : XReg) (a : XReg) (b : XReg) (ord : Ord) (scope : Scope) (dbl : Bool)
  /-- AMOMINU: R145. -/
  | amominu (d : XReg) (a : XReg) (b : XReg) (ord : Ord) (scope : Scope) (dbl : Bool)
  /-- AMOMAXU: R145. -/
  | amomaxu (d : XReg) (a : XReg) (b : XReg) (ord : Ord) (scope : Scope) (dbl : Bool)
  /-- AMOSWAP: R145. -/
  | amoswap (d : XReg) (a : XReg) (b : XReg) (ord : Ord) (scope : Scope) (dbl : Bool)
  /-- AMOCAS: R145. -/
  | amocas (d : XReg) (a : XReg) (b : XReg) (ord : Ord) (scope : Scope) (dbl : Bool)
  /-- FENCE: R146. -/
  | fence (ord : Ord) (scope : Scope)
  /-- PUTQ: R212. -/
  | putq (d : XReg) (a : XReg) (b : XReg) (len : Fin 64)
  /-- QCFG: R197. -/
  | qcfg (p : PortNo) (a : XReg)
  /-- QGET: R199. -/
  | qget (d : XReg) (p : PortNo)
  /-- QPUT: R199. -/
  | qput (p : PortNo) (a : XReg)
  /-- QCLOSE: R198. -/
  | qclose (p : PortNo)
  /-- QSTAT: R200. -/
  | qstat (d : XReg) (p : PortNo) (sel : Fin 8)
  /-- CPYSET: R205. -/
  | cpyset (c : ChanNo) (a : XReg) (f : CpyField)
  /-- CPYSET_CLRERR: R210. -/
  | cpysetClrerr (c : ChanNo)
  /-- CPYGO: R206. -/
  | cpygo (d : XReg) (a : XReg) (c : ChanNo)
  /-- CPYWAIT: R209. -/
  | cpywait (c : ChanNo) (a : XReg)
  /-- CPYSTAT: R210. -/
  | cpystat (d : XReg) (c : ChanNo) (sel : CpySel)
  /-- BAR: R261. -/
  | bar (d : XReg) (lv : Level)
  /-- BARW: R261. -/
  | barw (a : XReg) (lv : Level)
  /-- PHASE: R261. -/
  | phase (d : XReg) (lv : Level)
  /-- COUPLE: R263. -/
  | couple (a : XReg)
  /-- UNCOUPLE: R267. -/
  | uncouple
  /-- INBX: R286. -/
  | inbx (d : XReg) (a : XReg) (poll : Bool)
  /-- JNEXT: R280. -/
  | jnext (d : XReg) (a : XReg)
  /-- JNEXT_COVERED: R350. -/
  | jnextCovered (d : XReg) (a : XReg)
  /-- LARM: R287. -/
  | larm (d : XReg) (a : XReg)
  /-- GDISP: R288. -/
  | gdisp (d : XReg) (a : XReg)
  /-- GJOIN: R288. -/
  | gjoin (d : XReg) (a : XReg) (poll : Bool)
  /-- SIGW: R290. -/
  | sigw (d : XReg) (a : XReg) (b : XReg) (nowait : Bool)
  /-- SIGS: R289. -/
  | sigs (a : XReg) (b : XReg) (add : Bool)
  /-- HNEW: R368. -/
  | hnew (d : XReg) (a : XReg) (b : XReg)
  /-- HCOPY: R369. -/
  | hcopy (d : XReg) (s : XReg)
  /-- HDROP: R370. -/
  | hdrop (s : XReg)
  /-- HBIND: R371. -/
  | hbind (d : XReg) (a : XReg) (b : XReg)
  /-- HQUERY: R372. -/
  | hquery (d : XReg) (a : XReg)
  /-- FOFFER: R312. -/
  | foffer (d : XReg) (a : XReg) (b : XReg)
  /-- FACCEPT: R312. -/
  | faccept (d : XReg) (a : XReg) (b : XReg)
  /-- FLEND: R312. -/
  | flend (d : XReg) (a : XReg) (b : XReg)
  /-- FRECALL: R312. -/
  | frecall (d : XReg) (a : XReg) (b : XReg)
  /-- FRELEASE: R312. -/
  | frelease (d : XReg) (a : XReg)
  /-- FQUERY: R314. -/
  | fquery (d : XReg) (a : XReg)
  /-- TLBI: R305. -/
  | tlbi (scope : TlbiScope) (a : XReg) (b : XReg) (kind : TlbiKind)
  /-- FLUSH: R306. -/
  | flush (a : XReg) (b : XReg)
  /-- INVAL: R306. -/
  | inval (a : XReg) (b : XReg)
  /-- VADD: R155. -/
  | vadd (d : VReg) (a : VReg) (b : VReg) (k : KReg) (e : Ew) (keep : Bool)
  /-- VSUB: R155. -/
  | vsub (d : VReg) (a : VReg) (b : VReg) (k : KReg) (e : Ew) (keep : Bool)
  /-- VMUL: R155. -/
  | vmul (d : VReg) (a : VReg) (b : VReg) (k : KReg) (e : Ew) (keep : Bool)
  /-- VMULH: R155. -/
  | vmulh (d : VReg) (a : VReg) (b : VReg) (k : KReg) (e : Ew) (keep : Bool)
  /-- VMIN: R155. -/
  | vmin (d : VReg) (a : VReg) (b : VReg) (k : KReg) (e : Ew) (keep : Bool)
  /-- VMAX: R155. -/
  | vmax (d : VReg) (a : VReg) (b : VReg) (k : KReg) (e : Ew) (keep : Bool)
  /-- VMINU: R155. -/
  | vminu (d : VReg) (a : VReg) (b : VReg) (k : KReg) (e : Ew) (keep : Bool)
  /-- VMAXU: R155. -/
  | vmaxu (d : VReg) (a : VReg) (b : VReg) (k : KReg) (e : Ew) (keep : Bool)
  /-- VAND: R155. -/
  | vand (d : VReg) (a : VReg) (b : VReg) (k : KReg) (e : Ew) (keep : Bool)
  /-- VOR: R155. -/
  | vor (d : VReg) (a : VReg) (b : VReg) (k : KReg) (e : Ew) (keep : Bool)
  /-- VXOR: R155. -/
  | vxor (d : VReg) (a : VReg) (b : VReg) (k : KReg) (e : Ew) (keep : Bool)
  /-- VANDN: R155. -/
  | vandn (d : VReg) (a : VReg) (b : VReg) (k : KReg) (e : Ew) (keep : Bool)
  /-- VSLL: R155. -/
  | vsll (d : VReg) (a : VReg) (b : VReg) (k : KReg) (e : Ew) (keep : Bool)
  /-- VSRL: R155. -/
  | vsrl (d : VReg) (a : VReg) (b : VReg) (k : KReg) (e : Ew) (keep : Bool)
  /-- VSRA: R155. -/
  | vsra (d : VReg) (a : VReg) (b : VReg) (k : KReg) (e : Ew) (keep : Bool)
  /-- VROL: R155. -/
  | vrol (d : VReg) (a : VReg) (b : VReg) (k : KReg) (e : Ew) (keep : Bool)
  /-- VSADD: R155. -/
  | vsadd (d : VReg) (a : VReg) (b : VReg) (k : KReg) (e : Ew) (keep : Bool)
  /-- VSSUB: R155. -/
  | vssub (d : VReg) (a : VReg) (b : VReg) (k : KReg) (e : Ew) (keep : Bool)
  /-- VAVG: R155. -/
  | vavg (d : VReg) (a : VReg) (b : VReg) (k : KReg) (e : Ew) (keep : Bool)
  /-- VABS: R155. -/
  | vabs (d : VReg) (a : VReg) (k : KReg) (e : Ew) (keep : Bool)
  /-- VFADD: R156. -/
  | vfadd (d : VReg) (a : VReg) (b : VReg) (k : KReg) (e : Fw) (keep : Bool)
  /-- VFSUB: R156. -/
  | vfsub (d : VReg) (a : VReg) (b : VReg) (k : KReg) (e : Fw) (keep : Bool)
  /-- VFMUL: R156. -/
  | vfmul (d : VReg) (a : VReg) (b : VReg) (k : KReg) (e : Fw) (keep : Bool)
  /-- VFABD: R156. -/
  | vfabd (d : VReg) (a : VReg) (b : VReg) (k : KReg) (e : Fw) (keep : Bool)
  /-- VFMA: R156. -/
  | vfma (d : VReg) (a : VReg) (b : VReg) (k : KReg) (e : Fw) (keep : Bool)
  /-- VFMS: R156. -/
  | vfms (d : VReg) (a : VReg) (b : VReg) (k : KReg) (e : Fw) (keep : Bool)
  /-- VFNMA: R156. -/
  | vfnma (d : VReg) (a : VReg) (b : VReg) (k : KReg) (e : Fw) (keep : Bool)
  /-- VFNMS: R156. -/
  | vfnms (d : VReg) (a : VReg) (b : VReg) (k : KReg) (e : Fw) (keep : Bool)
  /-- VFMIN: R156. -/
  | vfmin (d : VReg) (a : VReg) (b : VReg) (k : KReg) (e : Fw) (keep : Bool)
  /-- VFMAX: R156. -/
  | vfmax (d : VReg) (a : VReg) (b : VReg) (k : KReg) (e : Fw) (keep : Bool)
  /-- VFNEG: R156. -/
  | vfneg (d : VReg) (a : VReg) (k : KReg) (e : Fw) (keep : Bool)
  /-- VFABS: R156. -/
  | vfabs (d : VReg) (a : VReg) (k : KReg) (e : Fw) (keep : Bool)
  /-- VFDIV: R157. -/
  | vfdiv (d : VReg) (a : VReg) (b : VReg) (k : KReg) (keep : Bool)
  /-- VFSQRT: R157. -/
  | vfsqrt (d : VReg) (a : VReg) (k : KReg) (keep : Bool)
  /-- VFRCP: R157. -/
  | vfrcp (d : VReg) (a : VReg) (k : KReg) (keep : Bool)
  /-- VFRSQ: R157. -/
  | vfrsq (d : VReg) (a : VReg) (k : KReg) (keep : Bool)
  /-- VFEXP2: R157. -/
  | vfexp2 (d : VReg) (a : VReg) (k : KReg) (keep : Bool)
  /-- VFLOG2: R157. -/
  | vflog2 (d : VReg) (a : VReg) (k : KReg) (keep : Bool)
  /-- VFTANH: R157. -/
  | vftanh (d : VReg) (a : VReg) (k : KReg) (keep : Bool)
  /-- VFSIGM: R157. -/
  | vfsigm (d : VReg) (a : VReg) (k : KReg) (keep : Bool)
  /-- VCMP_EQ: R158. -/
  | vcmpEq (d : KReg) (a : VReg) (b : VReg) (k : KReg) (e : Ew) (keep : Bool)
  /-- VCMP_NE: R158. -/
  | vcmpNe (d : KReg) (a : VReg) (b : VReg) (k : KReg) (e : Ew) (keep : Bool)
  /-- VCMP_LT: R158. -/
  | vcmpLt (d : KReg) (a : VReg) (b : VReg) (k : KReg) (e : Ew) (keep : Bool)
  /-- VCMP_LE: R158. -/
  | vcmpLe (d : KReg) (a : VReg) (b : VReg) (k : KReg) (e : Ew) (keep : Bool)
  /-- VFCMP_EQ: R158. -/
  | vfcmpEq (d : KReg) (a : VReg) (b : VReg) (k : KReg) (e : Fw) (keep : Bool)
  /-- VFCMP_NE: R158. -/
  | vfcmpNe (d : KReg) (a : VReg) (b : VReg) (k : KReg) (e : Fw) (keep : Bool)
  /-- VFCMP_LT: R158. -/
  | vfcmpLt (d : KReg) (a : VReg) (b : VReg) (k : KReg) (e : Fw) (keep : Bool)
  /-- VFCMP_LE: R158. -/
  | vfcmpLe (d : KReg) (a : VReg) (b : VReg) (k : KReg) (e : Fw) (keep : Bool)
  /-- VSEL: R160. -/
  | vsel (d : VReg) (a : VReg) (b : VReg) (k : KReg) (e : Ew) (keep : Bool)
  /-- VMOV: R160. -/
  | vmov (d : VReg) (a : VReg) (k : KReg) (e : Ew) (keep : Bool)
  /-- KAND: R159. -/
  | kand (d : KReg) (a : KReg) (b : KReg)
  /-- KOR: R159. -/
  | kor (d : KReg) (a : KReg) (b : KReg)
  /-- KXOR: R159. -/
  | kxor (d : KReg) (a : KReg) (b : KReg)
  /-- KANDN: R159. -/
  | kandn (d : KReg) (a : KReg) (b : KReg)
  /-- KNOT: R159. -/
  | knot (d : KReg) (a : KReg)
  /-- KPOP: R159. -/
  | kpop (d : XReg) (a : KReg)
  /-- KFIRST: R159. -/
  | kfirst (d : XReg) (a : KReg)
  /-- KSET: R159. -/
  | kset (d : KReg) (a : XReg)
  /-- VBCAST: R162. -/
  | vbcast (d : VReg) (b : XReg) (k : KReg) (e : Ew)
  /-- VINS: R162. -/
  | vins (d : VReg) (a : XReg) (b : XReg) (e : Ew)
  /-- VEXT: R162. -/
  | vext (d : XReg) (a : VReg) (b : XReg) (e : Ew) (keep : Bool)
  /-- VSLIDE: R162. -/
  | vslide (d : VReg) (a : VReg) (b : XReg) (k : KReg) (e : Ew) (keep : Bool)
  /-- VPERM: R163. -/
  | vperm (d : VReg) (a : VReg) (b : VReg) (k : KReg) (e : Ew) (keep : Bool)
  /-- VROT: R163. -/
  | vrot (d : VReg) (a : VReg) (b : XReg) (k : KReg) (e : Ew) (keep : Bool)
  /-- VZIP: R163. -/
  | vzip (d : VReg) (a : VReg) (b : VReg) (k : KReg) (e : Ew) (keep : Bool)
  /-- VUNZIP: R163. -/
  | vunzip (d : VReg) (a : VReg) (b : VReg) (k : KReg) (e : Ew) (keep : Bool)
  /-- VRSUM: R164. -/
  | vrsum (d : VReg) (a : VReg) (k : KReg) (e : Ew) (keep : Bool)
  /-- VRMAX: R164. -/
  | vrmax (d : VReg) (a : VReg) (k : KReg) (e : Ew) (keep : Bool)
  /-- VRFMAX: R164. -/
  | vrfmax (d : VReg) (a : VReg) (k : KReg) (e : Fw) (keep : Bool)
  /-- VRMIN: R164. -/
  | vrmin (d : VReg) (a : VReg) (k : KReg) (e : Ew) (keep : Bool)
  /-- VRFMIN: R164. -/
  | vrfmin (d : VReg) (a : VReg) (k : KReg) (e : Fw) (keep : Bool)
  /-- VRFSUM: R164. -/
  | vrfsum (d : VReg) (a : VReg) (k : KReg) (e : Fw) (keep : Bool)
  /-- VCVT: R165. -/
  | vcvt (d : VReg) (a : VReg) (src : Fmt) (dst : Fmt) (rm : Rm) (sat : Bool) (k : Fin 4)
  /-- VPACK: R166. -/
  | vpack (d : VReg) (a : VReg) (nf : Fmt) (k : KReg) (e : Ew) (keep : Bool)
  /-- VUNPK: R166. -/
  | vunpk (d : VReg) (a : VReg) (nf : Fmt) (k : KReg) (e : Ew) (keep : Bool)
  /-- VLUT: R167. -/
  | vlut (d : VReg) (a : VReg) (b : VReg) (k : KReg) (e : Fw) (keep : Bool)
  /-- VSCALE: R168. -/
  | vscale (d : VReg) (a : VReg) (b : XReg) (k : KReg) (e : Fw) (keep : Bool)
  /-- VMOVI: R161. -/
  | vmovi (d : VReg) (i : BitVec 13) (k : KReg) (e : Ew)
  /-- MMA: R183. -/
  | mma (c : AccNo) (a : RingNo) (b : RingNo) (fa : Fmt) (fb : Fmt) (popA : Bool) (popB : Bool) (s : XReg)
  /-- MMAS_N6: R183. -/
  | mmasN6 (c : AccNo) (a : RingNo) (b : RingNo) (fa : Fmt) (fb : Fmt) (popA : Bool) (popB : Bool) (s : XReg)
  /-- MMAS_N8: R183. -/
  | mmasN8 (c : AccNo) (a : RingNo) (b : RingNo) (fa : Fmt) (fb : Fmt) (popA : Bool) (popB : Bool) (s : XReg)
  /-- MMAS_N12: R183. -/
  | mmasN12 (c : AccNo) (a : RingNo) (b : RingNo) (fa : Fmt) (fb : Fmt) (popA : Bool) (popB : Bool) (s : XReg)
  /-- MZERO: R184. -/
  | mzero (c : AccNo)
  /-- MDRAIN: R186. -/
  | mdrain (c : AccNo) (v : VReg) (tf : Fmt) (rm : Rm) (sat : Bool) (row : Fin 32)
  /-- MDRAINS: R186. -/
  | mdrains (c : AccNo) (a : XReg) (tf : Fmt) (rm : Rm) (sat : Bool) (row : Fin 32)
  /-- MCHAIN_SEND: R189. -/
  | mchainSend (c : AccNo) (rows : Fin 32) (row : Fin 32)
  /-- MCHAIN_RECV: R189. -/
  | mchainRecv (c : AccNo) (rows : Fin 32) (int : Bool) (row : Fin 32)
  /-- MCHAIN_RELAY: R189. -/
  | mchainRelay (c : AccNo) (rows : Fin 32) (int : Bool) (row : Fin 32)
  /-- MCBK: R182. -/
  | mcbk (r : RingNo) (a : XReg)
  /-- MRSET: R178. -/
  | mrset (r : RingNo) (a : XReg)
  /-- MRADV: R179. -/
  | mradv (r : RingNo) (a : XReg)
  /-- MRSTAT: R181. -/
  | mrstat (r : RingNo) (d : XReg)
  /-- MWAIT: R188. -/
  | mwait
  /-- MSEQ: R190. -/
  | mseq (d : XReg)
  /-- MACC: R184. -/
  | macc (c : AccNo) (int : Bool) (s : AccNo)
  /-- RESULT_LAND: R58. -/
  | resultLand (h : Nat)
  /-- VARIABLE_RESULT_LAND: R60. -/
  | variableResultLand (h : Nat)
  /-- SHADOW_RELAND: R62. -/
  | shadowReland (h : Nat)
  /-- VECTOR_PART_BIND: R71. -/
  | vectorPartBind (t : Nat)
  /-- SEQ_COMMAND_START: R170. -/
  | seqCommandStart (t : Nat)
  /-- MMA_RETIRE: R183. -/
  | mmaRetire (t : Nat)
  /-- MZERO_RETIRE: R184. -/
  | mzeroRetire (t : Nat)
  /-- MACC_RETIRE: R184. -/
  | maccRetire (t : Nat)
  /-- MDRAIN_RETIRE: R186. -/
  | mdrainRetire (t : Nat)
  /-- MDRAINS_RETIRE: R187. -/
  | mdrainsRetire (t : Nat)
  /-- CHAIN_SEND_DONE: R189. -/
  | chainSendDone (t : Nat)
  /-- CHAIN_MESSAGE_ARRIVAL: R189. -/
  | chainMessageArrival (t : Nat)
  /-- CHAIN_RECEIVE_RETIRE: R189. -/
  | chainReceiveRetire (t : Nat)
  /-- RINGSTARVED: R173. -/
  | ringstarved (t : Nat)
  /-- STREAM_FETCH: R201. -/
  | streamFetch (h : Nat) (p : PortNo)
  /-- STREAM_WRITE: R202. -/
  | streamWrite (h : Nat) (p : PortNo)
  /-- RING_TILE_ADVANCE: R195. -/
  | ringTileAdvance (h : Nat) (p : PortNo)
  /-- STREAM_CLOSE_DONE: R198. -/
  | streamCloseDone (h : Nat) (p : PortNo)
  /-- COPY_TRANSFER_START: R207. -/
  | copyTransferStart (u : Nat) (c : ChanNo)
  /-- COPY_TRANSFER_COMPLETE: R207. -/
  | copyTransferComplete (u : Nat) (c : ChanNo) (id : Nat) (remote : Nat)
  /-- PUTQ_DELIVERY: R213. -/
  | putqDelivery (remote : Nat)
  /-- CHIP_LINK_ARRIVAL: R204. -/
  | chipLinkArrival (kind : LinkKind) (spkg : Nat) (sctx : Nat) (addr : Word) (data : List Byte)
  /-- ENGINE_PAGE_FAULT: R218. -/
  | enginePageFault (u : EngineUnit)
  /-- ENGINE_REPLAY: R218. -/
  | engineReplay (u : EngineUnit) (refuse : Bool)
  /-- TRANSLATION_FILL: R300. -/
  | translationFill (h : Nat) (va : Word) (k : AccKind)
  /-- BARRIER_COMPLETION: R256. -/
  | barrierCompletion (t : Nat) (lv : Level)
  /-- CONSIST_FORM: R263. -/
  | consistForm (t : Nat)
  /-- CONSIST_RESUME: R266. -/
  | consistResume (t : Nat)
  /-- TRAP_ENTRY: R321. -/
  | trapEntry (h : Nat)
  /-- FAULT_RECORD_WRITE: R329. -/
  | faultRecordWrite (i : Nat)
  /-- KICK_INTERRUPT: R323. -/
  | kickInterrupt (t : Nat) (v : Word)
  /-- KICK_RESTART: R330. -/
  | kickRestart (t : Nat) (v : Word)
  /-- BREAKPOINT_TABLE_LOAD: R340. -/
  | breakpointTableLoad (t : Nat)
  /-- ENGINE_FREEZE: R342. -/
  | engineFreeze (t : Nat)
  /-- ENGINE_FROZEN: R342. -/
  | engineFrozen (t : Nat)
  /-- ENGINE_UNFREEZE: R342. -/
  | engineUnfreeze (t : Nat)
  /-- SWITCH_ARM: R331. -/
  | switchArm (p : Nat) (v : Word)
  /-- SWITCH_STOP: R332. -/
  | switchStop (p : Nat)
  /-- SWITCH_SAVE: R334. -/
  | switchSave (t : Nat)
  /-- SWITCH_RESTORE: R337. -/
  | switchRestore (t : Nat)
  /-- NOTIFY_WRITE: R270. -/
  | notifyWrite (q : Nat) (v : Word)
  /-- YARD_ADMIT: R271. -/
  | yardAdmit
  /-- YARD_PRIORITY_AGE: R271. -/
  | yardPriorityAge (q : Nat)
  /-- YARD_IDLE_RELEASE: R271. -/
  | yardIdleRelease (q : Nat)
  /-- PACKET_TAKE: R272. -/
  | packetTake (q : Nat)
  /-- SIGNAL_BOX_EVENT: R272. -/
  | signalBoxEvent
  /-- LAUNCH_PLACE: R274. -/
  | launchPlace (l : Nat)
  /-- MONITOR_ENTRY: R277. -/
  | monitorEntry (t : Nat)
  /-- ERET_START: R277. -/
  | eretStart
  /-- LAUNCH_COMPLETION: R278. -/
  | launchCompletion (l : Nat)
  /-- END_REQUEST: R395. -/
  | endRequest (v : Word)
  /-- LAUNCH_END_DONE: R395. -/
  | launchEndDone (l : Nat)
  /-- QUEUE_REGISTER: R294. -/
  | queueRegister (q : Nat)
  /-- QUEUE_REMOVE: R294. -/
  | queueRemove (q : Nat)
  /-- CONTEXT_REGISTER: R294. -/
  | contextRegister (c : Nat)
  /-- CONTEXT_UNREGISTER: R294. -/
  | contextUnregister (c : Nat)
  /-- PARTITION_WRITE: R294. -/
  | partitionWrite (p : Nat) (off : Nat) (size : Nat) (v : Word)
  /-- HANDLE_POST: R365. -/
  | handlePost
  /-- RECALL_DEADLINE: R312. -/
  | recallDeadline (f : Nat)
  /-- RECALL_DRAIN_DONE: R313. -/
  | recallDrainDone (f : Nat)
  /-- ROOT_WRITE: R296. -/
  | rootWrite (pa : Nat) (size : Nat) (v : Word)
  /-- EVENT_FRAME_WRITE: R315. -/
  | eventFrameWrite (kn : Kernel) (byMonitor : Bool) (off : Nat) (size : Nat) (v : Word)
  /-- KEY_REGENERATE: R317. -/
  | keyRegenerate (k : Nat)
  /-- PKGNUM_WRITE: R400. -/
  | pkgnumWrite (v : Word)
  /-- HUB_REGISTER_WRITE: R294. -/
  | hubRegisterWrite (pa : Nat) (size : Nat) (v : Word)
  /-- DMA_WRITE: R250. -/
  | dmaWrite (port : Nat) (va : Word) (data : List Byte)
  /-- DMA_READ: R250. -/
  | dmaRead (port : Nat) (va : Word) (n : Nat)
  /-- CORRECTED_ERROR: R377. -/
  | correctedError (u : ErrUnit)
  /-- LINK_RETRAIN_DONE: R377. -/
  | linkRetrainDone (link : Nat)
  /-- UNCORRECTABLE_ERROR: R380. -/
  | uncorrectableError (g : Nat)
  /-- TILE_REMAP: R379. -/
  | tileRemap (t : Nat)
  /-- PATROL_SCRUB: R380. -/
  | patrolScrub (g : Nat)
  /-- WATCHDOG_BEAT: R382. -/
  | watchdogBeat
  /-- WATCHDOG_PERIOD_WRITE: R382. -/
  | watchdogPeriodWrite (v : Word)
  /-- WATCHDOG_EXPIRY: R383. -/
  | watchdogExpiry
  /-- RESIDENT_ADOPT: R383. -/
  | residentAdopt
  /-- RESIDENT_RESUME: R383. -/
  | residentResume
  /-- EXTENT_ADD: R385. -/
  | extentAdd (port : Nat) (frame : Nat) (n : Nat) (block : Nat) (shared : Bool)
  /-- EXTENT_RELEASE: R386. -/
  | extentRelease (frame : Nat) (n : Nat)
  /-- COLD_RESET: R388. -/
  | coldReset
  /-- WARM_RESET: R389. -/
  | warmReset
  /-- BOOT_TIMEOUT: R390. -/
  | bootTimeout
  /-- BOOTOK_WRITE: R390. -/
  | bootokWrite
  /-- MCTP_CONTROL: R389. -/
  | mctpControl (data : List Byte)
  /-- SIDEBAND_OTHER_MESSAGE: R389. -/
  | sidebandOtherMessage (ty : Nat)
  /-- GET_VERSION: R389. -/
  | getVersion
  /-- GET_CAPABILITIES: R389. -/
  | getCapabilities
  /-- NEGOTIATE_ALGORITHMS: R389. -/
  | negotiateAlgorithms
  /-- GET_DIGESTS: R389. -/
  | getDigests
  /-- GET_CERTIFICATE: R389. -/
  | getCertificate
  /-- CHALLENGE: R389. -/
  | challenge
  /-- GET_MEASUREMENTS: R389. -/
  | getMeasurements (n : Nat)
  /-- SENSOR_THRESHOLD: R392. -/
  | sensorThreshold (die : Nat) (idx : Nat) (e : SensorEvent)
  /-- THERMAL_CLOCK_STEP: R392. -/
  | thermalClockStep (die : Nat)
  /-- HEARTBEAT_SEND: R393. -/
  | heartbeatSend (link : Nat)
  /-- LINKDOWN: R393. -/
  | linkdown (link : Nat)
  /-- FREEZE_FLIT_ARRIVAL: R393. -/
  | freezeFlitArrival (tag : Nat)
  /-- HEARTBEAT_ARRIVAL: R393. -/
  | heartbeatArrival (link : Nat)
  /-- ROW_SPARE_DONE: R377. -/
  | rowSpareDone (tile : Nat) (row : Nat)
  /-- HBM_REPAIR_DONE: R377. -/
  | hbmRepairDone (stack : Nat) (bank : Nat) (row : Nat)
  /-- HANDLE_POST_LOST: R370. -/
  | handlePostLost
  deriving DecidableEq, Repr

end Sys2Proof
end

