-- ==== Sys2Proof/WellFormed.lean ====
section
/-! DEFINITION. Which instruction terms stand for a word that decodes: the checks that a family's own chapter
makes ILLEGAL at decode (R47), beyond the coded fields that the types already exclude. -/

namespace Sys2Proof

/-- A vector register field that does not name a port (R36, R77). -/
def notPort (v : VReg) : Bool := decide (v.val < 24)

/-- The instruction can be written as a word that decodes. The checks are those of R77 (a port as vd of a word that
reads vd), R105 and R165 (LUT4 as a target), R116 (BFX, BFI), R123 (LOOP), R143 (LDA, STL), R146 (FENCE), R166
(VPACK, VUNPK), R174 (the rings of an MMA, the rows of MCHAIN), R280 (JNEXT), R304 (TLBI), R314 (FQUERY) and R367
(HCOPY). The steps of the package (spec/95) are not words. -/
def Instr.wellFormed : Instr → Bool
  | .bfx _ _ n p => decide (n.val + 1 + p.val ≤ 64)
  | .bfi _ _ n p => decide (n.val + 1 + p.val ≤ 64)
  | .loop _ o => decide (1 ≤ o.toInt)
  | .lda _ _ ord _ _ => ord == .rlx || ord == .acq || ord == .sc
  | .stl _ _ ord _ _ => ord == .rlx || ord == .rel || ord == .sc
  | .fence ord _ => ord != .rlx
  | .jnext d _ => d.val != 0 && d.val != 31
  | .hcopy d s => d != s && d.val != 0 && s.val != 0
  | .fquery d _ => decide (1 ≤ d.val) && decide (d.val ≤ 30)
  | .tlbi _ a b kind => (kind != .all || (a.val == 0 && b.val == 0)) && (kind != .asn || a.val == 0)
  | .vfma d _ _ _ _ _ => notPort d
  | .vfms d _ _ _ _ _ => notPort d
  | .vfnma d _ _ _ _ _ => notPort d
  | .vfnms d _ _ _ _ _ => notPort d
  | .vsel d _ _ _ _ _ => notPort d
  | .vins d _ _ _ => notPort d
  | .vslide d _ _ _ _ _ => notPort d
  | .vcvt _ _ src dst _ _ _ => src != .lut4 && dst != .lut4
  | .vpack _ _ nf _ e _ => nf.isInt && decide (nf.bits < e.bits)
  | .vunpk _ _ nf _ e _ => nf.isInt && decide (nf.bits < e.bits)
  | .mma _ a b _ _ _ _ _ => a != b
  | .mmasN6 _ a b _ _ _ _ _ => a != b
  | .mmasN8 _ a b _ _ _ _ _ => a != b
  | .mmasN12 _ a b _ _ _ _ _ => a != b
  | .mdrain _ _ tf _ _ _ => tf != .lut4
  | .mdrains _ _ tf _ _ _ => tf != .lut4
  | .mchainSend _ rows row => decide (row.val + rows.val + 1 ≤ 32)
  | .mchainRecv _ rows _ row => decide (row.val + rows.val + 1 ≤ 32)
  | .mchainRelay _ rows _ row => decide (row.val + rows.val + 1 ≤ 32)
  | .add .. | .sub .. | .and .. | .or .. | .xor .. | .andn .. | .sll .. | .srl ..
  | .sra .. | .rol .. | .slt .. | .sltu .. | .min .. | .max .. | .minu .. | .maxu ..
  | .clz .. | .ctz .. | .popc .. | .sel .. | .mul .. | .mulh .. | .mulhu .. | .div ..
  | .divu .. | .rem .. | .remu .. | .lea .. | .faddS .. | .fsubS .. | .fmulS .. | .fminS ..
  | .fmaxS .. | .fcvtSW .. | .fcvtWS .. | .feqS .. | .fltS .. | .fleS .. | .fmaS .. | .fcvtSBf ..
  | .fcvtBfS .. | .addi .. | .andi .. | .ori .. | .xori .. | .slli .. | .srli .. | .srai ..
  | .slti .. | .lui .. | .luih .. | .beq .. | .bne .. | .blt .. | .bge .. | .bltu ..
  | .bgeu .. | .jal .. | .jalr .. | .beos .. | .trap .. | .eret .. | .wfe .. | .yield ..
  | .halt .. | .brk .. | .scall .. | .mfc .. | .mtc .. | .lb .. | .lbu .. | .lh ..
  | .lhu .. | .lw .. | .lwu .. | .ld .. | .sb .. | .sh .. | .sw .. | .sd ..
  | .vld .. | .vst .. | .vlds .. | .vsts .. | .vgth .. | .vsct .. | .amoadd .. | .amoand ..
  | .amoor .. | .amoxor .. | .amomin .. | .amomax .. | .amominu .. | .amomaxu .. | .amoswap .. | .amocas ..
  | .putq .. | .qcfg .. | .qget .. | .qput .. | .qclose .. | .qstat .. | .cpyset .. | .cpysetClrerr ..
  | .cpygo .. | .cpywait .. | .cpystat .. | .bar .. | .barw .. | .phase .. | .couple .. | .uncouple ..
  | .inbx .. | .larm .. | .gdisp .. | .gjoin .. | .sigw .. | .sigs .. | .hnew .. | .hdrop ..
  | .hbind .. | .hquery .. | .foffer .. | .faccept .. | .flend .. | .frecall .. | .frelease .. | .flush ..
  | .inval .. | .vadd .. | .vsub .. | .vmul .. | .vmulh .. | .vmin .. | .vmax .. | .vminu ..
  | .vmaxu .. | .vand .. | .vor .. | .vxor .. | .vandn .. | .vsll .. | .vsrl .. | .vsra ..
  | .vrol .. | .vsadd .. | .vssub .. | .vavg .. | .vabs .. | .vfadd .. | .vfsub .. | .vfmul ..
  | .vfabd .. | .vfmin .. | .vfmax .. | .vfneg .. | .vfabs .. | .vfdiv .. | .vfsqrt .. | .vfrcp ..
  | .vfrsq .. | .vfexp2 .. | .vflog2 .. | .vftanh .. | .vfsigm .. | .vcmpEq .. | .vcmpNe .. | .vcmpLt ..
  | .vcmpLe .. | .vfcmpEq .. | .vfcmpNe .. | .vfcmpLt .. | .vfcmpLe .. | .vmov .. | .kand .. | .kor ..
  | .kxor .. | .kandn .. | .knot .. | .kpop .. | .kfirst .. | .kset .. | .vbcast .. | .vext ..
  | .vperm .. | .vrot .. | .vzip .. | .vunzip .. | .vrsum .. | .vrmax .. | .vrfmax .. | .vrmin ..
  | .vrfmin .. | .vrfsum .. | .vlut .. | .vscale .. | .vmovi .. | .mzero .. | .mcbk .. | .mrset ..
  | .mradv .. | .mrstat .. | .mwait .. | .mseq .. | .macc .. => true
  | .wfeDeadline .. | .haltRetire .. | .modeWrite .. | .arbWrite .. | .vshareWrite ..
  | .mownerWrite .. | .fflagsWrite .. | .mstatWrite .. | .loopcWrite .. | .jnextCovered ..
  | .resultLand .. | .variableResultLand .. | .shadowReland .. | .vectorPartBind .. | .seqCommandStart ..
  | .mmaRetire .. | .mzeroRetire .. | .maccRetire .. | .mdrainRetire .. | .mdrainsRetire ..
  | .chainSendDone .. | .chainMessageArrival .. | .chainReceiveRetire .. | .ringstarved .. | .streamFetch ..
  | .streamWrite .. | .ringTileAdvance .. | .streamCloseDone .. | .copyTransferStart .. | .copyTransferComplete ..
  | .putqDelivery .. | .chipLinkArrival .. | .enginePageFault .. | .engineReplay .. | .translationFill ..
  | .barrierCompletion .. | .consistForm .. | .consistResume .. | .trapEntry .. | .faultRecordWrite ..
  | .kickInterrupt .. | .kickRestart .. | .breakpointTableLoad .. | .engineFreeze .. | .engineFrozen ..
  | .engineUnfreeze .. | .switchArm .. | .switchStop .. | .switchSave .. | .switchRestore ..
  | .notifyWrite .. | .yardAdmit .. | .yardPriorityAge .. | .yardIdleRelease .. | .packetTake ..
  | .signalBoxEvent | .launchPlace .. | .monitorEntry .. | .eretStart .. | .launchCompletion ..
  | .endRequest .. | .launchEndDone .. | .queueRegister .. | .queueRemove .. | .contextRegister ..
  | .contextUnregister .. | .partitionWrite .. | .handlePost | .recallDeadline .. | .recallDrainDone ..
  | .rootWrite .. | .eventFrameWrite .. | .keyRegenerate .. | .pkgnumWrite .. | .hubRegisterWrite ..
  | .dmaWrite .. | .dmaRead .. | .correctedError .. | .linkRetrainDone .. | .uncorrectableError ..
  | .tileRemap .. | .patrolScrub .. | .watchdogBeat .. | .watchdogPeriodWrite .. | .watchdogExpiry ..
  | .residentAdopt .. | .residentResume .. | .extentAdd .. | .extentRelease .. | .coldReset ..
  | .warmReset .. | .bootTimeout .. | .bootokWrite .. | .mctpControl .. | .sidebandOtherMessage ..
  | .getVersion .. | .getCapabilities .. | .negotiateAlgorithms .. | .getDigests .. | .getCertificate ..
  | .challenge .. | .getMeasurements .. | .sensorThreshold .. | .thermalClockStep .. | .heartbeatSend ..
  | .linkdown .. | .freezeFlitArrival .. | .heartbeatArrival .. | .rowSpareDone .. | .hbmRepairDone ..
  | .handlePostLost => false

end Sys2Proof
end

