-- ==== Sys2Proof/Decode.lean ====
section
/-! DEFINITION. Decoding and encoding of instruction words (R35 to R47): total on any bits, rejecting by name. -/

namespace Sys2Proof

/-- Why a word is no instruction. `extension` traps EXTENSION (R45); every other reason traps ILLEGAL (R47). -/
inductive Reject where
  /-- The word 0xFFFF_FFFF (R29 step 1). -/
  | allOnes
  /-- op6 48 to 63 (R45): no feature bit of the CX-8840 is set. -/
  | extension
  /-- An op6 below 48 that R41 to R44 leave unassigned. -/
  | unassigned
  /-- A selector (fn8, fn2, group selector, mode) that is not listed. -/
  | selector
  /-- A reserved value of a coded field (R36). -/
  | reserved
  /-- A must-be-zero field that is not zero (R37). -/
  | mustBeZero
  /-- Field values that the instruction's own chapter makes ILLEGAL at decode (`Instr.wellFormed`). -/
  | fields
  deriving DecidableEq, Repr

/-- What a word decodes to. -/
abbrev Decoded := Except Reject Instr

/-- Bits [lo + n - 1 : lo] of a word (Bits of R49). -/
def fld (w lo n : Nat) : Nat := w / 2 ^ lo % 2 ^ n

/-- The 5-, 3-, 2- and 6-bit fields at bit lo, as numbers (R36). -/
def f32 (w lo : Nat) : Fin 32 := Fin.ofNat 32 (w / 2 ^ lo)
def f8 (w lo : Nat) : Fin 8 := Fin.ofNat 8 (w / 2 ^ lo)
def f4 (w lo : Nat) : Fin 4 := Fin.ofNat 4 (w / 2 ^ lo)
def f64 (w lo : Nat) : Fin 64 := Fin.ofNat 64 (w / 2 ^ lo)

/-- A must-be-zero field (R37). -/
def needZero (x : Nat) (k : Decoded) : Decoded := if x = 0 then k else .error .mustBeZero

/-- A field with one legal value. -/
def needEq (x v : Nat) (k : Decoded) : Decoded := if x = v then k else .error .reserved

/-- A coded field, whose reserved values are refused (R36). -/
def coded {α : Type} (o : Option α) (k : α → Decoded) : Decoded :=
  match o with
  | some a => k a
  | none => .error .reserved

/-- ADD to SEL (R41). -/
def decS0 (w : Nat) : Decoded :=
  match fld w 0 8 with
  | 0 => .ok (.add (f32 w 18) (f32 w 13) (f32 w 8))
  | 1 => .ok (.sub (f32 w 18) (f32 w 13) (f32 w 8))
  | 2 => .ok (.and (f32 w 18) (f32 w 13) (f32 w 8))
  | 3 => .ok (.or (f32 w 18) (f32 w 13) (f32 w 8))
  | 4 => .ok (.xor (f32 w 18) (f32 w 13) (f32 w 8))
  | 5 => .ok (.andn (f32 w 18) (f32 w 13) (f32 w 8))
  | 6 => .ok (.sll (f32 w 18) (f32 w 13) (f32 w 8))
  | 7 => .ok (.srl (f32 w 18) (f32 w 13) (f32 w 8))
  | 8 => .ok (.sra (f32 w 18) (f32 w 13) (f32 w 8))
  | 9 => .ok (.rol (f32 w 18) (f32 w 13) (f32 w 8))
  | 10 => .ok (.slt (f32 w 18) (f32 w 13) (f32 w 8))
  | 11 => .ok (.sltu (f32 w 18) (f32 w 13) (f32 w 8))
  | 12 => .ok (.min (f32 w 18) (f32 w 13) (f32 w 8))
  | 13 => .ok (.max (f32 w 18) (f32 w 13) (f32 w 8))
  | 14 => .ok (.minu (f32 w 18) (f32 w 13) (f32 w 8))
  | 15 => .ok (.maxu (f32 w 18) (f32 w 13) (f32 w 8))
  | 16 => needZero (fld w 8 5) <| .ok (.clz (f32 w 18) (f32 w 13))
  | 17 => needZero (fld w 8 5) <| .ok (.ctz (f32 w 18) (f32 w 13))
  | 18 => needZero (fld w 8 5) <| .ok (.popc (f32 w 18) (f32 w 13))
  | 19 => .ok (.sel (f32 w 18) (f32 w 13) (f32 w 8))
  | _ => .error .selector

/-- MUL, MULH, MULHU, DIV, DIVU, REM, REMU (R41). -/
def decS1 (w : Nat) : Decoded :=
  match fld w 0 8 with
  | 0 => .ok (.mul (f32 w 18) (f32 w 13) (f32 w 8))
  | 1 => .ok (.mulh (f32 w 18) (f32 w 13) (f32 w 8))
  | 2 => .ok (.mulhu (f32 w 18) (f32 w 13) (f32 w 8))
  | 3 => .ok (.div (f32 w 18) (f32 w 13) (f32 w 8))
  | 4 => .ok (.divu (f32 w 18) (f32 w 13) (f32 w 8))
  | 5 => .ok (.rem (f32 w 18) (f32 w 13) (f32 w 8))
  | 6 => .ok (.remu (f32 w 18) (f32 w 13) (f32 w 8))
  | _ => .error .selector

/-- LEA (R41). -/
def decS2 (w : Nat) : Decoded :=
  needZero (fld w 3 5) <| .ok (.lea (f32 w 18) (f32 w 13) (f32 w 8) (f8 w 0))

/-- BFX (R41). -/
def decS3 (w : Nat) : Decoded :=
  needZero (fld w 12 1) <| .ok (.bfx (f32 w 18) (f32 w 13) (f64 w 6) (f64 w 0))

/-- BFI (R41). -/
def decS4 (w : Nat) : Decoded :=
  needZero (fld w 12 1) <| .ok (.bfi (f32 w 18) (f32 w 13) (f64 w 6) (f64 w 0))

/-- FADD_S to FCVT_BF_S (R41). -/
def decS5 (w : Nat) : Decoded :=
  match fld w 0 8 with
  | 0 => .ok (.faddS (f32 w 18) (f32 w 13) (f32 w 8))
  | 1 => .ok (.fsubS (f32 w 18) (f32 w 13) (f32 w 8))
  | 2 => .ok (.fmulS (f32 w 18) (f32 w 13) (f32 w 8))
  | 3 => .ok (.fminS (f32 w 18) (f32 w 13) (f32 w 8))
  | 4 => .ok (.fmaxS (f32 w 18) (f32 w 13) (f32 w 8))
  | 5 => needZero (fld w 8 5) <| .ok (.fcvtSW (f32 w 18) (f32 w 13))
  | 6 => needZero (fld w 8 5) <| .ok (.fcvtWS (f32 w 18) (f32 w 13))
  | 7 => .ok (.feqS (f32 w 18) (f32 w 13) (f32 w 8))
  | 8 => .ok (.fltS (f32 w 18) (f32 w 13) (f32 w 8))
  | 9 => .ok (.fleS (f32 w 18) (f32 w 13) (f32 w 8))
  | 10 => .ok (.fmaS (f32 w 18) (f32 w 13) (f32 w 8))
  | 11 => needZero (fld w 8 5) <| .ok (.fcvtSBf (f32 w 18) (f32 w 13))
  | 12 => needZero (fld w 8 5) <| .ok (.fcvtBfS (f32 w 18) (f32 w 13))
  | _ => .error .selector

/-- ADDI (R41). -/
def decS8 (w : Nat) : Decoded :=
  .ok (.addi (f32 w 18) (f32 w 13) (BitVec.ofNat 13 (w / 2 ^ 0)))

/-- ANDI (R41). -/
def decS9 (w : Nat) : Decoded :=
  .ok (.andi (f32 w 18) (f32 w 13) (BitVec.ofNat 13 (w / 2 ^ 0)))

/-- ORI (R41). -/
def decS10 (w : Nat) : Decoded :=
  .ok (.ori (f32 w 18) (f32 w 13) (BitVec.ofNat 13 (w / 2 ^ 0)))

/-- XORI (R41). -/
def decS11 (w : Nat) : Decoded :=
  .ok (.xori (f32 w 18) (f32 w 13) (BitVec.ofNat 13 (w / 2 ^ 0)))

/-- SLLI (R41). -/
def decS12 (w : Nat) : Decoded :=
  needZero (fld w 6 7) <| .ok (.slli (f32 w 18) (f32 w 13) (f64 w 0))

/-- SRLI (R41). -/
def decS13 (w : Nat) : Decoded :=
  needZero (fld w 6 7) <| .ok (.srli (f32 w 18) (f32 w 13) (f64 w 0))

/-- SRAI (R41). -/
def decS14 (w : Nat) : Decoded :=
  needZero (fld w 6 7) <| .ok (.srai (f32 w 18) (f32 w 13) (f64 w 0))

/-- SLTI (R41). -/
def decS15 (w : Nat) : Decoded :=
  .ok (.slti (f32 w 18) (f32 w 13) (BitVec.ofNat 13 (w / 2 ^ 0)))

/-- LUI (R41). -/
def decS16 (w : Nat) : Decoded :=
  .ok (.lui (f32 w 18) (BitVec.ofNat 18 (w / 2 ^ 0)))

/-- LUIH (R41). -/
def decS17 (w : Nat) : Decoded :=
  .ok (.luih (f32 w 18) (BitVec.ofNat 18 (w / 2 ^ 0)))

/-- BEQ (R41). -/
def decS20 (w : Nat) : Decoded :=
  .ok (.beq (f32 w 18) (f32 w 13) (BitVec.ofNat 13 (w / 2 ^ 0)))

/-- BNE (R41). -/
def decS21 (w : Nat) : Decoded :=
  .ok (.bne (f32 w 18) (f32 w 13) (BitVec.ofNat 13 (w / 2 ^ 0)))

/-- BLT (R41). -/
def decS22 (w : Nat) : Decoded :=
  .ok (.blt (f32 w 18) (f32 w 13) (BitVec.ofNat 13 (w / 2 ^ 0)))

/-- BGE (R41). -/
def decS23 (w : Nat) : Decoded :=
  .ok (.bge (f32 w 18) (f32 w 13) (BitVec.ofNat 13 (w / 2 ^ 0)))

/-- BLTU (R41). -/
def decS24 (w : Nat) : Decoded :=
  .ok (.bltu (f32 w 18) (f32 w 13) (BitVec.ofNat 13 (w / 2 ^ 0)))

/-- BGEU (R41). -/
def decS25 (w : Nat) : Decoded :=
  .ok (.bgeu (f32 w 18) (f32 w 13) (BitVec.ofNat 13 (w / 2 ^ 0)))

/-- JAL (R41). -/
def decS26 (w : Nat) : Decoded :=
  .ok (.jal (f32 w 18) (BitVec.ofNat 18 (w / 2 ^ 0)))

/-- JALR (R41). -/
def decS27 (w : Nat) : Decoded :=
  .ok (.jalr (f32 w 18) (f32 w 13) (BitVec.ofNat 13 (w / 2 ^ 0)))

/-- LOOP (R41). -/
def decS28 (w : Nat) : Decoded :=
  needZero (fld w 13 5) <| .ok (.loop (f32 w 18) (BitVec.ofNat 13 (w / 2 ^ 0)))

/-- BEOS (R41). -/
def decS29 (w : Nat) : Decoded :=
  needZero (fld w 13 5) <| needZero (fld w 21 2) <| .ok (.beos (f8 w 18) (BitVec.ofNat 13 (w / 2 ^ 0)))

/-- TRAP, ERET, WFE, YIELD, HALT, BRK, SCALL (R41). -/
def decS32 (w : Nat) : Decoded :=
  match fld w 0 8 with
  | 0 => needZero (fld w 8 5) <| needZero (fld w 18 5) <| .ok (.trap (f32 w 13))
  | 1 => needZero (fld w 8 15) <| .ok (.eret)
  | 2 => needZero (fld w 8 5) <| needZero (fld w 18 5) <| .ok (.wfe (f32 w 13))
  | 3 => needZero (fld w 8 15) <| .ok (.yield)
  | 4 => needZero (fld w 8 15) <| .ok (.halt)
  | 5 => needZero (fld w 8 15) <| .ok (.brk)
  | 7 => .ok (.scall (f32 w 18) (f32 w 13) (f32 w 8))
  | _ => .error .selector

/-- MFC (R41). -/
def decS33 (w : Nat) : Decoded :=
  needZero (fld w 12 6) <| .ok (.mfc (f32 w 18) (BitVec.ofNat 12 (w / 2 ^ 0)))

/-- MTC (R41). -/
def decS34 (w : Nat) : Decoded :=
  needZero (fld w 12 1) <| needZero (fld w 18 5) <| .ok (.mtc (f32 w 13) (BitVec.ofNat 12 (w / 2 ^ 0)))

/-- Class S (R41). -/
def decodeS (op w : Nat) : Decoded :=
  match op with
  | 0 => decS0 w
  | 1 => decS1 w
  | 2 => decS2 w
  | 3 => decS3 w
  | 4 => decS4 w
  | 5 => decS5 w
  | 8 => decS8 w
  | 9 => decS9 w
  | 10 => decS10 w
  | 11 => decS11 w
  | 12 => decS12 w
  | 13 => decS13 w
  | 14 => decS14 w
  | 15 => decS15 w
  | 16 => decS16 w
  | 17 => decS17 w
  | 20 => decS20 w
  | 21 => decS21 w
  | 22 => decS22 w
  | 23 => decS23 w
  | 24 => decS24 w
  | 25 => decS25 w
  | 26 => decS26 w
  | 27 => decS27 w
  | 28 => decS28 w
  | 29 => decS29 w
  | 32 => decS32 w
  | 33 => decS33 w
  | 34 => decS34 w
  | _ => .error .unassigned

/-- LB (R42). -/
def decM0 (w : Nat) : Decoded :=
  .ok (.lb (f32 w 18) (f32 w 13) (BitVec.ofNat 13 (w / 2 ^ 0)))

/-- LBU (R42). -/
def decM1 (w : Nat) : Decoded :=
  .ok (.lbu (f32 w 18) (f32 w 13) (BitVec.ofNat 13 (w / 2 ^ 0)))

/-- LH (R42). -/
def decM2 (w : Nat) : Decoded :=
  .ok (.lh (f32 w 18) (f32 w 13) (BitVec.ofNat 13 (w / 2 ^ 0)))

/-- LHU (R42). -/
def decM3 (w : Nat) : Decoded :=
  .ok (.lhu (f32 w 18) (f32 w 13) (BitVec.ofNat 13 (w / 2 ^ 0)))

/-- LW (R42). -/
def decM4 (w : Nat) : Decoded :=
  .ok (.lw (f32 w 18) (f32 w 13) (BitVec.ofNat 13 (w / 2 ^ 0)))

/-- LWU (R42). -/
def decM5 (w : Nat) : Decoded :=
  .ok (.lwu (f32 w 18) (f32 w 13) (BitVec.ofNat 13 (w / 2 ^ 0)))

/-- LD (R42). -/
def decM6 (w : Nat) : Decoded :=
  .ok (.ld (f32 w 18) (f32 w 13) (BitVec.ofNat 13 (w / 2 ^ 0)))

/-- SB (R42). -/
def decM8 (w : Nat) : Decoded :=
  .ok (.sb (f32 w 18) (f32 w 13) (BitVec.ofNat 13 (w / 2 ^ 0)))

/-- SH (R42). -/
def decM9 (w : Nat) : Decoded :=
  .ok (.sh (f32 w 18) (f32 w 13) (BitVec.ofNat 13 (w / 2 ^ 0)))

/-- SW (R42). -/
def decM10 (w : Nat) : Decoded :=
  .ok (.sw (f32 w 18) (f32 w 13) (BitVec.ofNat 13 (w / 2 ^ 0)))

/-- SD (R42). -/
def decM11 (w : Nat) : Decoded :=
  .ok (.sd (f32 w 18) (f32 w 13) (BitVec.ofNat 13 (w / 2 ^ 0)))

/-- VLD (R42). -/
def decM12 (w : Nat) : Decoded :=
  .ok (.vld (f32 w 18) (f32 w 13) (BitVec.ofNat 13 (w / 2 ^ 0)))

/-- VST (R42). -/
def decM13 (w : Nat) : Decoded :=
  .ok (.vst (f32 w 18) (f32 w 13) (BitVec.ofNat 13 (w / 2 ^ 0)))

/-- VLDS (R42). -/
def decM14 (w : Nat) : Decoded :=
  needZero (fld w 0 3) <| needEq (fld w 4 1) 1 <| .ok (.vlds (f32 w 18) (f32 w 13) (f32 w 8) (f8 w 5) (fld w 3 1 == 1))

/-- VSTS (R42). -/
def decM15 (w : Nat) : Decoded :=
  needZero (fld w 0 3) <| needEq (fld w 4 1) 1 <| .ok (.vsts (f32 w 18) (f32 w 13) (f32 w 8) (f8 w 5) (fld w 3 1 == 1))

/-- VGTH (R42). -/
def decM16 (w : Nat) : Decoded :=
  needZero (fld w 0 3) <| needEq (fld w 4 1) 1 <| .ok (.vgth (f32 w 18) (f32 w 13) (f32 w 8) (f8 w 5) (fld w 3 1 == 1))

/-- VSCT (R42). -/
def decM17 (w : Nat) : Decoded :=
  needZero (fld w 0 3) <| needEq (fld w 4 1) 1 <| .ok (.vsct (f32 w 18) (f32 w 13) (f32 w 8) (f8 w 5) (fld w 3 1 == 1))

/-- LDA (R42). -/
def decM18 (w : Nat) : Decoded :=
  needZero (fld w 8 5) <| coded (Ord.ofCode? (fld w 5 3)) fun ord => coded (Scope.ofCode? (fld w 1 4)) fun scope => .ok (.lda (f32 w 18) (f32 w 13) ord scope (fld w 0 1 == 1))

/-- STL (R42). -/
def decM19 (w : Nat) : Decoded :=
  needZero (fld w 18 5) <| coded (Ord.ofCode? (fld w 5 3)) fun ord => coded (Scope.ofCode? (fld w 1 4)) fun scope => .ok (.stl (f32 w 13) (f32 w 8) ord scope (fld w 0 1 == 1))

/-- AMOADD (R42). -/
def decM20 (w : Nat) : Decoded :=
  coded (Ord.ofCode? (fld w 5 3)) fun ord => coded (Scope.ofCode? (fld w 1 4)) fun scope => .ok (.amoadd (f32 w 18) (f32 w 13) (f32 w 8) ord scope (fld w 0 1 == 1))

/-- AMOAND (R42). -/
def decM21 (w : Nat) : Decoded :=
  coded (Ord.ofCode? (fld w 5 3)) fun ord => coded (Scope.ofCode? (fld w 1 4)) fun scope => .ok (.amoand (f32 w 18) (f32 w 13) (f32 w 8) ord scope (fld w 0 1 == 1))

/-- AMOOR (R42). -/
def decM22 (w : Nat) : Decoded :=
  coded (Ord.ofCode? (fld w 5 3)) fun ord => coded (Scope.ofCode? (fld w 1 4)) fun scope => .ok (.amoor (f32 w 18) (f32 w 13) (f32 w 8) ord scope (fld w 0 1 == 1))

/-- AMOXOR (R42). -/
def decM23 (w : Nat) : Decoded :=
  coded (Ord.ofCode? (fld w 5 3)) fun ord => coded (Scope.ofCode? (fld w 1 4)) fun scope => .ok (.amoxor (f32 w 18) (f32 w 13) (f32 w 8) ord scope (fld w 0 1 == 1))

/-- AMOMIN (R42). -/
def decM24 (w : Nat) : Decoded :=
  coded (Ord.ofCode? (fld w 5 3)) fun ord => coded (Scope.ofCode? (fld w 1 4)) fun scope => .ok (.amomin (f32 w 18) (f32 w 13) (f32 w 8) ord scope (fld w 0 1 == 1))

/-- AMOMAX (R42). -/
def decM25 (w : Nat) : Decoded :=
  coded (Ord.ofCode? (fld w 5 3)) fun ord => coded (Scope.ofCode? (fld w 1 4)) fun scope => .ok (.amomax (f32 w 18) (f32 w 13) (f32 w 8) ord scope (fld w 0 1 == 1))

/-- AMOMINU (R42). -/
def decM26 (w : Nat) : Decoded :=
  coded (Ord.ofCode? (fld w 5 3)) fun ord => coded (Scope.ofCode? (fld w 1 4)) fun scope => .ok (.amominu (f32 w 18) (f32 w 13) (f32 w 8) ord scope (fld w 0 1 == 1))

/-- AMOMAXU (R42). -/
def decM27 (w : Nat) : Decoded :=
  coded (Ord.ofCode? (fld w 5 3)) fun ord => coded (Scope.ofCode? (fld w 1 4)) fun scope => .ok (.amomaxu (f32 w 18) (f32 w 13) (f32 w 8) ord scope (fld w 0 1 == 1))

/-- AMOSWAP (R42). -/
def decM28 (w : Nat) : Decoded :=
  coded (Ord.ofCode? (fld w 5 3)) fun ord => coded (Scope.ofCode? (fld w 1 4)) fun scope => .ok (.amoswap (f32 w 18) (f32 w 13) (f32 w 8) ord scope (fld w 0 1 == 1))

/-- AMOCAS (R42). -/
def decM29 (w : Nat) : Decoded :=
  coded (Ord.ofCode? (fld w 5 3)) fun ord => coded (Scope.ofCode? (fld w 1 4)) fun scope => .ok (.amocas (f32 w 18) (f32 w 13) (f32 w 8) ord scope (fld w 0 1 == 1))

/-- FENCE (R42). -/
def decM30 (w : Nat) : Decoded :=
  needZero (fld w 0 1) <| needZero (fld w 8 15) <| coded (Ord.ofCode? (fld w 5 3)) fun ord => coded (Scope.ofCode? (fld w 1 4)) fun scope => .ok (.fence ord scope)

/-- PUTQ (R42). -/
def decM31 (w : Nat) : Decoded :=
  needZero (fld w 6 2) <| .ok (.putq (f32 w 18) (f32 w 13) (f32 w 8) (f64 w 0))

/-- QCFG (R42). -/
def decM32 (w : Nat) : Decoded :=
  needZero (fld w 0 13) <| needZero (fld w 21 2) <| .ok (.qcfg (f8 w 18) (f32 w 13))

/-- QGET (R42). -/
def decM33 (w : Nat) : Decoded :=
  needZero (fld w 0 13) <| needZero (fld w 16 2) <| .ok (.qget (f32 w 18) (f8 w 13))

/-- QPUT (R42). -/
def decM34 (w : Nat) : Decoded :=
  needZero (fld w 0 13) <| needZero (fld w 21 2) <| .ok (.qput (f8 w 18) (f32 w 13))

/-- QCLOSE (R42). -/
def decM35 (w : Nat) : Decoded :=
  needZero (fld w 0 18) <| needZero (fld w 21 2) <| .ok (.qclose (f8 w 18))

/-- QSTAT (R42). -/
def decM36 (w : Nat) : Decoded :=
  needZero (fld w 3 10) <| needZero (fld w 16 2) <| .ok (.qstat (f32 w 18) (f8 w 13) (f8 w 0))

/-- CPYSET, CPYSET_CLRERR (R42). -/
def decM37 (w : Nat) : Decoded :=
  if fld w 0 4 = 10 then needEq (fld w 0 18) 10 <| needZero (fld w 20 3) <| .ok (.cpysetClrerr (f4 w 18))
  else needZero (fld w 4 9) <| needZero (fld w 20 3) <| coded (CpyField.ofCode? (fld w 0 4)) fun f => .ok (.cpyset (f4 w 18) (f32 w 13) f)

/-- CPYGO (R42). -/
def decM38 (w : Nat) : Decoded :=
  needZero (fld w 0 8) <| needZero (fld w 10 3) <| .ok (.cpygo (f32 w 18) (f32 w 13) (f4 w 8))

/-- CPYWAIT (R42). -/
def decM39 (w : Nat) : Decoded :=
  needZero (fld w 0 13) <| needZero (fld w 20 3) <| .ok (.cpywait (f4 w 18) (f32 w 13))

/-- CPYSTAT (R42). -/
def decM40 (w : Nat) : Decoded :=
  needZero (fld w 3 5) <| needZero (fld w 10 8) <| coded (CpySel.ofCode? (fld w 0 3)) fun sel => .ok (.cpystat (f32 w 18) (f4 w 8) sel)

/-- BAR, BARW, PHASE, COUPLE, UNCOUPLE (R42). -/
def decM41 (w : Nat) : Decoded :=
  match fld w 0 4 with
  | 0 => needZero (fld w 6 12) <| .ok (.bar (f32 w 18) (Level.ofCode (fld w 4 2)))
  | 1 => needZero (fld w 6 7) <| needZero (fld w 18 5) <| .ok (.barw (f32 w 13) (Level.ofCode (fld w 4 2)))
  | 2 => needZero (fld w 6 12) <| .ok (.phase (f32 w 18) (Level.ofCode (fld w 4 2)))
  | 3 => needZero (fld w 4 9) <| needZero (fld w 18 5) <| .ok (.couple (f32 w 13))
  | 4 => needZero (fld w 4 19) <| .ok (.uncouple)
  | _ => .error .selector

/-- INBX, JNEXT, LARM, GDISP, GJOIN, SIGW, SIGS (R42). -/
def decM42 (w : Nat) : Decoded :=
  match fld w 0 4 with
  | 0 => needZero (fld w 5 8) <| .ok (.inbx (f32 w 18) (f32 w 13) (fld w 4 1 == 1))
  | 1 => needZero (fld w 4 9) <| .ok (.jnext (f32 w 18) (f32 w 13))
  | 2 => needZero (fld w 4 9) <| .ok (.larm (f32 w 18) (f32 w 13))
  | 3 => needZero (fld w 4 9) <| .ok (.gdisp (f32 w 18) (f32 w 13))
  | 4 => needZero (fld w 5 8) <| .ok (.gjoin (f32 w 18) (f32 w 13) (fld w 4 1 == 1))
  | 5 => needZero (fld w 5 3) <| .ok (.sigw (f32 w 18) (f32 w 13) (f32 w 8) (fld w 4 1 == 1))
  | 6 => needZero (fld w 5 3) <| needZero (fld w 18 5) <| .ok (.sigs (f32 w 13) (f32 w 8) (fld w 4 1 == 1))
  | _ => .error .selector

/-- HNEW, HCOPY, HDROP, HBIND, HQUERY (R42). -/
def decM43 (w : Nat) : Decoded :=
  match fld w 0 4 with
  | 0 => needZero (fld w 4 4) <| .ok (.hnew (f32 w 18) (f32 w 13) (f32 w 8))
  | 1 => needZero (fld w 4 9) <| .ok (.hcopy (f32 w 18) (f32 w 13))
  | 2 => needZero (fld w 4 9) <| needZero (fld w 18 5) <| .ok (.hdrop (f32 w 13))
  | 3 => needZero (fld w 4 4) <| .ok (.hbind (f32 w 18) (f32 w 13) (f32 w 8))
  | 4 => needZero (fld w 4 9) <| .ok (.hquery (f32 w 18) (f32 w 13))
  | _ => .error .selector

/-- FOFFER, FACCEPT, FLEND, FRECALL, FRELEASE, FQUERY (R42). -/
def decM44 (w : Nat) : Decoded :=
  match fld w 0 4 with
  | 0 => needZero (fld w 4 4) <| .ok (.foffer (f32 w 18) (f32 w 13) (f32 w 8))
  | 1 => needZero (fld w 4 4) <| .ok (.faccept (f32 w 18) (f32 w 13) (f32 w 8))
  | 2 => needZero (fld w 4 4) <| .ok (.flend (f32 w 18) (f32 w 13) (f32 w 8))
  | 3 => needZero (fld w 4 4) <| .ok (.frecall (f32 w 18) (f32 w 13) (f32 w 8))
  | 4 => needZero (fld w 4 9) <| .ok (.frelease (f32 w 18) (f32 w 13))
  | 5 => needZero (fld w 4 9) <| .ok (.fquery (f32 w 18) (f32 w 13))
  | _ => .error .selector

/-- TLBI, FLUSH, INVAL (R42). -/
def decM45 (w : Nat) : Decoded :=
  match fld w 0 4 with
  | 0 => needZero (fld w 6 2) <| coded (TlbiScope.ofCode? (fld w 18 5)) fun scope => .ok (.tlbi scope (f32 w 13) (f32 w 8) (TlbiKind.ofCode (fld w 4 2)))
  | 1 => needZero (fld w 4 4) <| needZero (fld w 18 5) <| .ok (.flush (f32 w 13) (f32 w 8))
  | 2 => needZero (fld w 4 4) <| needZero (fld w 18 5) <| .ok (.inval (f32 w 13) (f32 w 8))
  | _ => .error .selector

/-- Class M (R42). -/
def decodeM (op w : Nat) : Decoded :=
  match op with
  | 0 => decM0 w
  | 1 => decM1 w
  | 2 => decM2 w
  | 3 => decM3 w
  | 4 => decM4 w
  | 5 => decM5 w
  | 6 => decM6 w
  | 8 => decM8 w
  | 9 => decM9 w
  | 10 => decM10 w
  | 11 => decM11 w
  | 12 => decM12 w
  | 13 => decM13 w
  | 14 => decM14 w
  | 15 => decM15 w
  | 16 => decM16 w
  | 17 => decM17 w
  | 18 => decM18 w
  | 19 => decM19 w
  | 20 => decM20 w
  | 21 => decM21 w
  | 22 => decM22 w
  | 23 => decM23 w
  | 24 => decM24 w
  | 25 => decM25 w
  | 26 => decM26 w
  | 27 => decM27 w
  | 28 => decM28 w
  | 29 => decM29 w
  | 30 => decM30 w
  | 31 => decM31 w
  | 32 => decM32 w
  | 33 => decM33 w
  | 34 => decM34 w
  | 35 => decM35 w
  | 36 => decM36 w
  | 37 => decM37 w
  | 38 => decM38 w
  | 39 => decM39 w
  | 40 => decM40 w
  | 41 => decM41 w
  | 42 => decM42 w
  | 43 => decM43 w
  | 44 => decM44 w
  | 45 => decM45 w
  | _ => .error .unassigned

/-- VADD, VSUB, VMUL, VMULH (R43). -/
def decV0 (w : Nat) : Decoded :=
  match fld w 0 2 with
  | 0 => .ok (.vadd (f32 w 18) (f32 w 13) (f32 w 8) (f8 w 5) (Ew.ofCode (fld w 3 2)) (fld w 2 1 == 1))
  | 1 => .ok (.vsub (f32 w 18) (f32 w 13) (f32 w 8) (f8 w 5) (Ew.ofCode (fld w 3 2)) (fld w 2 1 == 1))
  | 2 => .ok (.vmul (f32 w 18) (f32 w 13) (f32 w 8) (f8 w 5) (Ew.ofCode (fld w 3 2)) (fld w 2 1 == 1))
  | _ => .ok (.vmulh (f32 w 18) (f32 w 13) (f32 w 8) (f8 w 5) (Ew.ofCode (fld w 3 2)) (fld w 2 1 == 1))

/-- VMIN, VMAX, VMINU, VMAXU (R43). -/
def decV1 (w : Nat) : Decoded :=
  match fld w 0 2 with
  | 0 => .ok (.vmin (f32 w 18) (f32 w 13) (f32 w 8) (f8 w 5) (Ew.ofCode (fld w 3 2)) (fld w 2 1 == 1))
  | 1 => .ok (.vmax (f32 w 18) (f32 w 13) (f32 w 8) (f8 w 5) (Ew.ofCode (fld w 3 2)) (fld w 2 1 == 1))
  | 2 => .ok (.vminu (f32 w 18) (f32 w 13) (f32 w 8) (f8 w 5) (Ew.ofCode (fld w 3 2)) (fld w 2 1 == 1))
  | _ => .ok (.vmaxu (f32 w 18) (f32 w 13) (f32 w 8) (f8 w 5) (Ew.ofCode (fld w 3 2)) (fld w 2 1 == 1))

/-- VAND, VOR, VXOR, VANDN (R43). -/
def decV2 (w : Nat) : Decoded :=
  match fld w 0 2 with
  | 0 => .ok (.vand (f32 w 18) (f32 w 13) (f32 w 8) (f8 w 5) (Ew.ofCode (fld w 3 2)) (fld w 2 1 == 1))
  | 1 => .ok (.vor (f32 w 18) (f32 w 13) (f32 w 8) (f8 w 5) (Ew.ofCode (fld w 3 2)) (fld w 2 1 == 1))
  | 2 => .ok (.vxor (f32 w 18) (f32 w 13) (f32 w 8) (f8 w 5) (Ew.ofCode (fld w 3 2)) (fld w 2 1 == 1))
  | _ => .ok (.vandn (f32 w 18) (f32 w 13) (f32 w 8) (f8 w 5) (Ew.ofCode (fld w 3 2)) (fld w 2 1 == 1))

/-- VSLL, VSRL, VSRA, VROL (R43). -/
def decV3 (w : Nat) : Decoded :=
  match fld w 0 2 with
  | 0 => .ok (.vsll (f32 w 18) (f32 w 13) (f32 w 8) (f8 w 5) (Ew.ofCode (fld w 3 2)) (fld w 2 1 == 1))
  | 1 => .ok (.vsrl (f32 w 18) (f32 w 13) (f32 w 8) (f8 w 5) (Ew.ofCode (fld w 3 2)) (fld w 2 1 == 1))
  | 2 => .ok (.vsra (f32 w 18) (f32 w 13) (f32 w 8) (f8 w 5) (Ew.ofCode (fld w 3 2)) (fld w 2 1 == 1))
  | _ => .ok (.vrol (f32 w 18) (f32 w 13) (f32 w 8) (f8 w 5) (Ew.ofCode (fld w 3 2)) (fld w 2 1 == 1))

/-- VSADD, VSSUB, VAVG, VABS (R43). -/
def decV4 (w : Nat) : Decoded :=
  match fld w 0 2 with
  | 0 => .ok (.vsadd (f32 w 18) (f32 w 13) (f32 w 8) (f8 w 5) (Ew.ofCode (fld w 3 2)) (fld w 2 1 == 1))
  | 1 => .ok (.vssub (f32 w 18) (f32 w 13) (f32 w 8) (f8 w 5) (Ew.ofCode (fld w 3 2)) (fld w 2 1 == 1))
  | 2 => .ok (.vavg (f32 w 18) (f32 w 13) (f32 w 8) (f8 w 5) (Ew.ofCode (fld w 3 2)) (fld w 2 1 == 1))
  | _ => needZero (fld w 8 5) <| .ok (.vabs (f32 w 18) (f32 w 13) (f8 w 5) (Ew.ofCode (fld w 3 2)) (fld w 2 1 == 1))

/-- VFADD, VFSUB, VFMUL, VFABD (R43). -/
def decV5 (w : Nat) : Decoded :=
  match fld w 0 2 with
  | 0 => coded (Fw.ofCode? (fld w 3 2)) fun e => .ok (.vfadd (f32 w 18) (f32 w 13) (f32 w 8) (f8 w 5) e (fld w 2 1 == 1))
  | 1 => coded (Fw.ofCode? (fld w 3 2)) fun e => .ok (.vfsub (f32 w 18) (f32 w 13) (f32 w 8) (f8 w 5) e (fld w 2 1 == 1))
  | 2 => coded (Fw.ofCode? (fld w 3 2)) fun e => .ok (.vfmul (f32 w 18) (f32 w 13) (f32 w 8) (f8 w 5) e (fld w 2 1 == 1))
  | _ => coded (Fw.ofCode? (fld w 3 2)) fun e => .ok (.vfabd (f32 w 18) (f32 w 13) (f32 w 8) (f8 w 5) e (fld w 2 1 == 1))

/-- VFMA, VFMS, VFNMA, VFNMS (R43). -/
def decV6 (w : Nat) : Decoded :=
  match fld w 0 2 with
  | 0 => coded (Fw.ofCode? (fld w 3 2)) fun e => .ok (.vfma (f32 w 18) (f32 w 13) (f32 w 8) (f8 w 5) e (fld w 2 1 == 1))
  | 1 => coded (Fw.ofCode? (fld w 3 2)) fun e => .ok (.vfms (f32 w 18) (f32 w 13) (f32 w 8) (f8 w 5) e (fld w 2 1 == 1))
  | 2 => coded (Fw.ofCode? (fld w 3 2)) fun e => .ok (.vfnma (f32 w 18) (f32 w 13) (f32 w 8) (f8 w 5) e (fld w 2 1 == 1))
  | _ => coded (Fw.ofCode? (fld w 3 2)) fun e => .ok (.vfnms (f32 w 18) (f32 w 13) (f32 w 8) (f8 w 5) e (fld w 2 1 == 1))

/-- VFMIN, VFMAX, VFNEG, VFABS (R43). -/
def decV7 (w : Nat) : Decoded :=
  match fld w 0 2 with
  | 0 => coded (Fw.ofCode? (fld w 3 2)) fun e => .ok (.vfmin (f32 w 18) (f32 w 13) (f32 w 8) (f8 w 5) e (fld w 2 1 == 1))
  | 1 => coded (Fw.ofCode? (fld w 3 2)) fun e => .ok (.vfmax (f32 w 18) (f32 w 13) (f32 w 8) (f8 w 5) e (fld w 2 1 == 1))
  | 2 => needZero (fld w 8 5) <| coded (Fw.ofCode? (fld w 3 2)) fun e => .ok (.vfneg (f32 w 18) (f32 w 13) (f8 w 5) e (fld w 2 1 == 1))
  | _ => needZero (fld w 8 5) <| coded (Fw.ofCode? (fld w 3 2)) fun e => .ok (.vfabs (f32 w 18) (f32 w 13) (f8 w 5) e (fld w 2 1 == 1))

/-- VFDIV, VFSQRT, VFRCP, VFRSQ (R43). -/
def decV8 (w : Nat) : Decoded :=
  match fld w 0 2 with
  | 0 => needZero (fld w 3 2) <| .ok (.vfdiv (f32 w 18) (f32 w 13) (f32 w 8) (f8 w 5) (fld w 2 1 == 1))
  | 1 => needZero (fld w 3 2) <| needZero (fld w 8 5) <| .ok (.vfsqrt (f32 w 18) (f32 w 13) (f8 w 5) (fld w 2 1 == 1))
  | 2 => needZero (fld w 3 2) <| needZero (fld w 8 5) <| .ok (.vfrcp (f32 w 18) (f32 w 13) (f8 w 5) (fld w 2 1 == 1))
  | _ => needZero (fld w 3 2) <| needZero (fld w 8 5) <| .ok (.vfrsq (f32 w 18) (f32 w 13) (f8 w 5) (fld w 2 1 == 1))

/-- VFEXP2, VFLOG2, VFTANH, VFSIGM (R43). -/
def decV9 (w : Nat) : Decoded :=
  match fld w 0 2 with
  | 0 => needZero (fld w 3 2) <| needZero (fld w 8 5) <| .ok (.vfexp2 (f32 w 18) (f32 w 13) (f8 w 5) (fld w 2 1 == 1))
  | 1 => needZero (fld w 3 2) <| needZero (fld w 8 5) <| .ok (.vflog2 (f32 w 18) (f32 w 13) (f8 w 5) (fld w 2 1 == 1))
  | 2 => needZero (fld w 3 2) <| needZero (fld w 8 5) <| .ok (.vftanh (f32 w 18) (f32 w 13) (f8 w 5) (fld w 2 1 == 1))
  | _ => needZero (fld w 3 2) <| needZero (fld w 8 5) <| .ok (.vfsigm (f32 w 18) (f32 w 13) (f8 w 5) (fld w 2 1 == 1))

/-- VCMP_EQ, VCMP_NE, VCMP_LT, VCMP_LE (R43). -/
def decV10 (w : Nat) : Decoded :=
  match fld w 0 2 with
  | 0 => needZero (fld w 21 2) <| .ok (.vcmpEq (f8 w 18) (f32 w 13) (f32 w 8) (f8 w 5) (Ew.ofCode (fld w 3 2)) (fld w 2 1 == 1))
  | 1 => needZero (fld w 21 2) <| .ok (.vcmpNe (f8 w 18) (f32 w 13) (f32 w 8) (f8 w 5) (Ew.ofCode (fld w 3 2)) (fld w 2 1 == 1))
  | 2 => needZero (fld w 21 2) <| .ok (.vcmpLt (f8 w 18) (f32 w 13) (f32 w 8) (f8 w 5) (Ew.ofCode (fld w 3 2)) (fld w 2 1 == 1))
  | _ => needZero (fld w 21 2) <| .ok (.vcmpLe (f8 w 18) (f32 w 13) (f32 w 8) (f8 w 5) (Ew.ofCode (fld w 3 2)) (fld w 2 1 == 1))

/-- VFCMP_EQ, VFCMP_NE, VFCMP_LT, VFCMP_LE (R43). -/
def decV11 (w : Nat) : Decoded :=
  match fld w 0 2 with
  | 0 => needZero (fld w 21 2) <| coded (Fw.ofCode? (fld w 3 2)) fun e => .ok (.vfcmpEq (f8 w 18) (f32 w 13) (f32 w 8) (f8 w 5) e (fld w 2 1 == 1))
  | 1 => needZero (fld w 21 2) <| coded (Fw.ofCode? (fld w 3 2)) fun e => .ok (.vfcmpNe (f8 w 18) (f32 w 13) (f32 w 8) (f8 w 5) e (fld w 2 1 == 1))
  | 2 => needZero (fld w 21 2) <| coded (Fw.ofCode? (fld w 3 2)) fun e => .ok (.vfcmpLt (f8 w 18) (f32 w 13) (f32 w 8) (f8 w 5) e (fld w 2 1 == 1))
  | _ => needZero (fld w 21 2) <| coded (Fw.ofCode? (fld w 3 2)) fun e => .ok (.vfcmpLe (f8 w 18) (f32 w 13) (f32 w 8) (f8 w 5) e (fld w 2 1 == 1))

/-- VSEL, VMOV (R43). -/
def decV12 (w : Nat) : Decoded :=
  match fld w 0 2 with
  | 0 => .ok (.vsel (f32 w 18) (f32 w 13) (f32 w 8) (f8 w 5) (Ew.ofCode (fld w 3 2)) (fld w 2 1 == 1))
  | 1 => needZero (fld w 8 5) <| .ok (.vmov (f32 w 18) (f32 w 13) (f8 w 5) (Ew.ofCode (fld w 3 2)) (fld w 2 1 == 1))
  | _ => .error .selector

/-- KAND, KOR, KXOR, KANDN (R43). -/
def decV13 (w : Nat) : Decoded :=
  match fld w 0 2 with
  | 0 => needZero (fld w 2 6) <| needZero (fld w 11 2) <| needZero (fld w 16 2) <| needZero (fld w 21 2) <| .ok (.kand (f8 w 18) (f8 w 13) (f8 w 8))
  | 1 => needZero (fld w 2 6) <| needZero (fld w 11 2) <| needZero (fld w 16 2) <| needZero (fld w 21 2) <| .ok (.kor (f8 w 18) (f8 w 13) (f8 w 8))
  | 2 => needZero (fld w 2 6) <| needZero (fld w 11 2) <| needZero (fld w 16 2) <| needZero (fld w 21 2) <| .ok (.kxor (f8 w 18) (f8 w 13) (f8 w 8))
  | _ => needZero (fld w 2 6) <| needZero (fld w 11 2) <| needZero (fld w 16 2) <| needZero (fld w 21 2) <| .ok (.kandn (f8 w 18) (f8 w 13) (f8 w 8))

/-- KNOT, KPOP, KFIRST, KSET (R43). -/
def decV14 (w : Nat) : Decoded :=
  match fld w 0 2 with
  | 0 => needZero (fld w 2 11) <| needZero (fld w 16 2) <| needZero (fld w 21 2) <| .ok (.knot (f8 w 18) (f8 w 13))
  | 1 => needZero (fld w 2 11) <| needZero (fld w 16 2) <| .ok (.kpop (f32 w 18) (f8 w 13))
  | 2 => needZero (fld w 2 11) <| needZero (fld w 16 2) <| .ok (.kfirst (f32 w 18) (f8 w 13))
  | _ => needZero (fld w 2 11) <| needZero (fld w 21 2) <| .ok (.kset (f8 w 18) (f32 w 13))

/-- VBCAST, VINS, VEXT, VSLIDE (R43). -/
def decV15 (w : Nat) : Decoded :=
  match fld w 0 2 with
  | 0 => needZero (fld w 2 1) <| needZero (fld w 13 5) <| .ok (.vbcast (f32 w 18) (f32 w 8) (f8 w 5) (Ew.ofCode (fld w 3 2)))
  | 1 => needZero (fld w 2 1) <| needZero (fld w 5 3) <| .ok (.vins (f32 w 18) (f32 w 13) (f32 w 8) (Ew.ofCode (fld w 3 2)))
  | 2 => needZero (fld w 5 3) <| .ok (.vext (f32 w 18) (f32 w 13) (f32 w 8) (Ew.ofCode (fld w 3 2)) (fld w 2 1 == 1))
  | _ => .ok (.vslide (f32 w 18) (f32 w 13) (f32 w 8) (f8 w 5) (Ew.ofCode (fld w 3 2)) (fld w 2 1 == 1))

/-- VPERM, VROT, VZIP, VUNZIP (R43). -/
def decV16 (w : Nat) : Decoded :=
  match fld w 0 2 with
  | 0 => .ok (.vperm (f32 w 18) (f32 w 13) (f32 w 8) (f8 w 5) (Ew.ofCode (fld w 3 2)) (fld w 2 1 == 1))
  | 1 => .ok (.vrot (f32 w 18) (f32 w 13) (f32 w 8) (f8 w 5) (Ew.ofCode (fld w 3 2)) (fld w 2 1 == 1))
  | 2 => .ok (.vzip (f32 w 18) (f32 w 13) (f32 w 8) (f8 w 5) (Ew.ofCode (fld w 3 2)) (fld w 2 1 == 1))
  | _ => .ok (.vunzip (f32 w 18) (f32 w 13) (f32 w 8) (f8 w 5) (Ew.ofCode (fld w 3 2)) (fld w 2 1 == 1))

/-- VRSUM, VRMAX, VRFMAX, VRMIN, VRFMIN, VRFSUM (R43). -/
def decV17 (w : Nat) : Decoded :=
  match fld w 0 2 with
  | 0 => needZero (fld w 8 5) <| .ok (.vrsum (f32 w 18) (f32 w 13) (f8 w 5) (Ew.ofCode (fld w 3 2)) (fld w 2 1 == 1))
  | 1 =>
    if fld w 8 5 = 0 then needZero (fld w 8 5) <| .ok (.vrmax (f32 w 18) (f32 w 13) (f8 w 5) (Ew.ofCode (fld w 3 2)) (fld w 2 1 == 1))
    else needEq (fld w 8 5) 1 <| coded (Fw.ofCode? (fld w 3 2)) fun e => .ok (.vrfmax (f32 w 18) (f32 w 13) (f8 w 5) e (fld w 2 1 == 1))
  | 2 =>
    if fld w 8 5 = 0 then needZero (fld w 8 5) <| .ok (.vrmin (f32 w 18) (f32 w 13) (f8 w 5) (Ew.ofCode (fld w 3 2)) (fld w 2 1 == 1))
    else needEq (fld w 8 5) 1 <| coded (Fw.ofCode? (fld w 3 2)) fun e => .ok (.vrfmin (f32 w 18) (f32 w 13) (f8 w 5) e (fld w 2 1 == 1))
  | _ => needZero (fld w 8 5) <| coded (Fw.ofCode? (fld w 3 2)) fun e => .ok (.vrfsum (f32 w 18) (f32 w 13) (f8 w 5) e (fld w 2 1 == 1))

/-- VCVT (R43). -/
def decV18 (w : Nat) : Decoded :=
  .ok (.vcvt (f32 w 18) (f32 w 13) (Fmt.ofCode (fld w 9 4)) (Fmt.ofCode (fld w 5 4)) (Rm.ofCode (fld w 3 2)) (fld w 2 1 == 1) (f4 w 0))

/-- VPACK, VUNPK (R43). -/
def decV19 (w : Nat) : Decoded :=
  match fld w 0 2 with
  | 0 => needZero (fld w 12 1) <| .ok (.vpack (f32 w 18) (f32 w 13) (Fmt.ofCode (fld w 8 4)) (f8 w 5) (Ew.ofCode (fld w 3 2)) (fld w 2 1 == 1))
  | 1 => needZero (fld w 12 1) <| .ok (.vunpk (f32 w 18) (f32 w 13) (Fmt.ofCode (fld w 8 4)) (f8 w 5) (Ew.ofCode (fld w 3 2)) (fld w 2 1 == 1))
  | _ => .error .selector

/-- VLUT (R43). -/
def decV20 (w : Nat) : Decoded :=
  match fld w 0 2 with
  | 0 => coded (Fw.ofCode? (fld w 3 2)) fun e => .ok (.vlut (f32 w 18) (f32 w 13) (f32 w 8) (f8 w 5) e (fld w 2 1 == 1))
  | _ => .error .selector

/-- VSCALE (R43). -/
def decV21 (w : Nat) : Decoded :=
  match fld w 0 2 with
  | 0 => coded (Fw.ofCode? (fld w 3 2)) fun e => .ok (.vscale (f32 w 18) (f32 w 13) (f32 w 8) (f8 w 5) e (fld w 2 1 == 1))
  | _ => .error .selector

/-- VMOVI (R43). -/
def decV22 (w : Nat) : Decoded :=
  .ok (.vmovi (f32 w 18) (BitVec.ofNat 13 (w / 2 ^ 5)) (f8 w 2) (Ew.ofCode (fld w 0 2)))

/-- Class V (R43). -/
def decodeV (op w : Nat) : Decoded :=
  match op with
  | 0 => decV0 w
  | 1 => decV1 w
  | 2 => decV2 w
  | 3 => decV3 w
  | 4 => decV4 w
  | 5 => decV5 w
  | 6 => decV6 w
  | 7 => decV7 w
  | 8 => decV8 w
  | 9 => decV9 w
  | 10 => decV10 w
  | 11 => decV11 w
  | 12 => decV12 w
  | 13 => decV13 w
  | 14 => decV14 w
  | 15 => decV15 w
  | 16 => decV16 w
  | 17 => decV17 w
  | 18 => decV18 w
  | 19 => decV19 w
  | 20 => decV20 w
  | 21 => decV21 w
  | 22 => decV22 w
  | _ => .error .unassigned

/-- MMA (R44). -/
def decX0 (w : Nat) : Decoded :=
  .ok (.mma (f4 w 21) (f8 w 18) (f8 w 15) (Fmt.ofCode (fld w 11 4)) (Fmt.ofCode (fld w 7 4)) (fld w 6 1 == 1) (fld w 5 1 == 1) (f32 w 0))

/-- MMAS_N6 (R44). -/
def decX1 (w : Nat) : Decoded :=
  .ok (.mmasN6 (f4 w 21) (f8 w 18) (f8 w 15) (Fmt.ofCode (fld w 11 4)) (Fmt.ofCode (fld w 7 4)) (fld w 6 1 == 1) (fld w 5 1 == 1) (f32 w 0))

/-- MMAS_N8 (R44). -/
def decX2 (w : Nat) : Decoded :=
  .ok (.mmasN8 (f4 w 21) (f8 w 18) (f8 w 15) (Fmt.ofCode (fld w 11 4)) (Fmt.ofCode (fld w 7 4)) (fld w 6 1 == 1) (fld w 5 1 == 1) (f32 w 0))

/-- MMAS_N12 (R44). -/
def decX3 (w : Nat) : Decoded :=
  .ok (.mmasN12 (f4 w 21) (f8 w 18) (f8 w 15) (Fmt.ofCode (fld w 11 4)) (Fmt.ofCode (fld w 7 4)) (fld w 6 1 == 1) (fld w 5 1 == 1) (f32 w 0))

/-- MZERO (R44). -/
def decX4 (w : Nat) : Decoded :=
  needZero (fld w 0 21) <| .ok (.mzero (f4 w 21))

/-- MDRAIN (R44). -/
def decX5 (w : Nat) : Decoded :=
  needZero (fld w 0 4) <| .ok (.mdrain (f4 w 21) (f32 w 16) (Fmt.ofCode (fld w 12 4)) (Rm.ofCode (fld w 10 2)) (fld w 9 1 == 1) (f32 w 4))

/-- MDRAINS (R44). -/
def decX6 (w : Nat) : Decoded :=
  needZero (fld w 0 4) <| .ok (.mdrains (f4 w 21) (f32 w 16) (Fmt.ofCode (fld w 12 4)) (Rm.ofCode (fld w 10 2)) (fld w 9 1 == 1) (f32 w 4))

/-- MCHAIN_SEND, MCHAIN_RECV, MCHAIN_RELAY (R44). -/
def decX7 (w : Nat) : Decoded :=
  match fld w 14 2 with
  | 0 => needZero (fld w 0 4) <| needZero (fld w 9 5) <| .ok (.mchainSend (f4 w 21) (f32 w 16) (f32 w 4))
  | 1 => needZero (fld w 0 4) <| needZero (fld w 9 3) <| needZero (fld w 13 1) <| .ok (.mchainRecv (f4 w 21) (f32 w 16) (fld w 12 1 == 1) (f32 w 4))
  | 2 => needZero (fld w 0 4) <| needZero (fld w 9 3) <| needZero (fld w 13 1) <| .ok (.mchainRelay (f4 w 21) (f32 w 16) (fld w 12 1 == 1) (f32 w 4))
  | _ => .error .selector

/-- MCBK (R44). -/
def decX8 (w : Nat) : Decoded :=
  needZero (fld w 5 13) <| needZero (fld w 21 2) <| .ok (.mcbk (f8 w 18) (f32 w 0))

/-- MRSET (R44). -/
def decX9 (w : Nat) : Decoded :=
  needZero (fld w 5 13) <| needZero (fld w 21 2) <| .ok (.mrset (f8 w 18) (f32 w 0))

/-- MRADV (R44). -/
def decX10 (w : Nat) : Decoded :=
  needZero (fld w 5 13) <| needZero (fld w 21 2) <| .ok (.mradv (f8 w 18) (f32 w 0))

/-- MRSTAT (R44). -/
def decX11 (w : Nat) : Decoded :=
  needZero (fld w 5 13) <| needZero (fld w 21 2) <| .ok (.mrstat (f8 w 18) (f32 w 0))

/-- MWAIT (R44). -/
def decX12 (w : Nat) : Decoded :=
  needZero (fld w 0 23) <| .ok (.mwait)

/-- MSEQ (R44). -/
def decX13 (w : Nat) : Decoded :=
  needZero (fld w 5 18) <| .ok (.mseq (f32 w 0))

/-- MACC (R44). -/
def decX14 (w : Nat) : Decoded :=
  needZero (fld w 0 18) <| .ok (.macc (f4 w 21) (fld w 20 1 == 1) (f4 w 18))

/-- Class X (R44). -/
def decodeX (op w : Nat) : Decoded :=
  match op with
  | 0 => decX0 w
  | 1 => decX1 w
  | 2 => decX2 w
  | 3 => decX3 w
  | 4 => decX4 w
  | 5 => decX5 w
  | 6 => decX6 w
  | 7 => decX7 w
  | 8 => decX8 w
  | 9 => decX9 w
  | 10 => decX10 w
  | 11 => decX11 w
  | 12 => decX12 w
  | 13 => decX13 w
  | 14 => decX14 w
  | _ => .error .unassigned
/-- The decoder of one word by its fields, the L bit aside (R27): all ones first, then EXTENSION, then the class
and the op6 (R45, R47). -/
def decodeFields (w : Nat) : Decoded :=
  if w = 0xFFFFFFFF then .error .allOnes
  else if 48 ≤ fld w 23 6 then .error .extension
  else
    match fld w 30 2 with
    | 0 => decodeS (fld w 23 6) w
    | 1 => decodeM (fld w 23 6) w
    | 2 => decodeV (fld w 23 6) w
    | _ => decodeX (fld w 23 6) w

/-- The decoder of one word: the fields, then what the instruction's own chapter refuses at decode. -/
def decodeWord (w : Nat) : Decoded :=
  match decodeFields w with
  | .ok i => if i.wellFormed then .ok i else .error .fields
  | .error r => .error r

/-- The L bit of a word (R27). -/
def lBit (w : Nat) : Bool := fld w 29 1 == 1

/-- The class of a word (R27). -/
def classOf (w : Nat) : Nat := fld w 30 2

/-- Little-endian value of a list of bytes (R134). -/
def leNat : List Byte → Nat
  | [] => 0
  | b :: bs => b.toNat + 256 * leNat bs

/-- The n bytes of a value, the least significant first (R134). -/
def leBytes : Nat → Nat → List Byte
  | 0, _ => []
  | n + 1, v => BitVec.ofNat 8 v :: leBytes n (v / 256)

/-- The instruction in the four bytes of a word, as they stand in memory (R27), with the bytes after them. -/
def decodeBytes : List Byte → Option (Decoded × List Byte)
  | a :: b :: c :: d :: rest => some (decodeWord (leNat [a, b, c, d]), rest)
  | _ => none

/-- The instruction that the decoder reads from a word whose low nbits are given, the others zero. -/
def decodeTableWord (nbits w : Nat) : Option Instr :=
  match decodeBytes (leBytes 4 (w % 2 ^ nbits)) with
  | some (.ok i, _) => some i
  | _ => none

/-- A word: its fixed bits, and its fields at their lowest bits (R35). -/
def word (base : Nat) (fs : List (Nat × Nat)) : Option Nat :=
  some (fs.foldl (fun n f => n + f.2 * 2 ^ f.1) base)

/-- The word of an instruction with L = 0 (R35, R41 to R44); a step of the package has none. -/
def encodeWord : Instr → Option Nat
  | .add d a b => word 0x00000000 [(18, d.val), (13, a.val), (8, b.val)]
  | .sub d a b => word 0x00000001 [(18, d.val), (13, a.val), (8, b.val)]
  | .and d a b => word 0x00000002 [(18, d.val), (13, a.val), (8, b.val)]
  | .or d a b => word 0x00000003 [(18, d.val), (13, a.val), (8, b.val)]
  | .xor d a b => word 0x00000004 [(18, d.val), (13, a.val), (8, b.val)]
  | .andn d a b => word 0x00000005 [(18, d.val), (13, a.val), (8, b.val)]
  | .sll d a b => word 0x00000006 [(18, d.val), (13, a.val), (8, b.val)]
  | .srl d a b => word 0x00000007 [(18, d.val), (13, a.val), (8, b.val)]
  | .sra d a b => word 0x00000008 [(18, d.val), (13, a.val), (8, b.val)]
  | .rol d a b => word 0x00000009 [(18, d.val), (13, a.val), (8, b.val)]
  | .slt d a b => word 0x0000000A [(18, d.val), (13, a.val), (8, b.val)]
  | .sltu d a b => word 0x0000000B [(18, d.val), (13, a.val), (8, b.val)]
  | .min d a b => word 0x0000000C [(18, d.val), (13, a.val), (8, b.val)]
  | .max d a b => word 0x0000000D [(18, d.val), (13, a.val), (8, b.val)]
  | .minu d a b => word 0x0000000E [(18, d.val), (13, a.val), (8, b.val)]
  | .maxu d a b => word 0x0000000F [(18, d.val), (13, a.val), (8, b.val)]
  | .clz d a => word 0x00000010 [(18, d.val), (13, a.val)]
  | .ctz d a => word 0x00000011 [(18, d.val), (13, a.val)]
  | .popc d a => word 0x00000012 [(18, d.val), (13, a.val)]
  | .sel d a b => word 0x00000013 [(18, d.val), (13, a.val), (8, b.val)]
  | .mul d a b => word 0x00800000 [(18, d.val), (13, a.val), (8, b.val)]
  | .mulh d a b => word 0x00800001 [(18, d.val), (13, a.val), (8, b.val)]
  | .mulhu d a b => word 0x00800002 [(18, d.val), (13, a.val), (8, b.val)]
  | .div d a b => word 0x00800003 [(18, d.val), (13, a.val), (8, b.val)]
  | .divu d a b => word 0x00800004 [(18, d.val), (13, a.val), (8, b.val)]
  | .rem d a b => word 0x00800005 [(18, d.val), (13, a.val), (8, b.val)]
  | .remu d a b => word 0x00800006 [(18, d.val), (13, a.val), (8, b.val)]
  | .lea d a b s => word 0x01000000 [(18, d.val), (13, a.val), (8, b.val), (0, s.val)]
  | .bfx d a n p => word 0x01800000 [(18, d.val), (13, a.val), (6, n.val), (0, p.val)]
  | .bfi d a n p => word 0x02000000 [(18, d.val), (13, a.val), (6, n.val), (0, p.val)]
  | .faddS d a b => word 0x02800000 [(18, d.val), (13, a.val), (8, b.val)]
  | .fsubS d a b => word 0x02800001 [(18, d.val), (13, a.val), (8, b.val)]
  | .fmulS d a b => word 0x02800002 [(18, d.val), (13, a.val), (8, b.val)]
  | .fminS d a b => word 0x02800003 [(18, d.val), (13, a.val), (8, b.val)]
  | .fmaxS d a b => word 0x02800004 [(18, d.val), (13, a.val), (8, b.val)]
  | .fcvtSW d a => word 0x02800005 [(18, d.val), (13, a.val)]
  | .fcvtWS d a => word 0x02800006 [(18, d.val), (13, a.val)]
  | .feqS d a b => word 0x02800007 [(18, d.val), (13, a.val), (8, b.val)]
  | .fltS d a b => word 0x02800008 [(18, d.val), (13, a.val), (8, b.val)]
  | .fleS d a b => word 0x02800009 [(18, d.val), (13, a.val), (8, b.val)]
  | .fmaS d a b => word 0x0280000A [(18, d.val), (13, a.val), (8, b.val)]
  | .fcvtSBf d a => word 0x0280000B [(18, d.val), (13, a.val)]
  | .fcvtBfS d a => word 0x0280000C [(18, d.val), (13, a.val)]
  | .addi d a i => word 0x04000000 [(18, d.val), (13, a.val), (0, i.toNat)]
  | .andi d a i => word 0x04800000 [(18, d.val), (13, a.val), (0, i.toNat)]
  | .ori d a i => word 0x05000000 [(18, d.val), (13, a.val), (0, i.toNat)]
  | .xori d a i => word 0x05800000 [(18, d.val), (13, a.val), (0, i.toNat)]
  | .slli d a s => word 0x06000000 [(18, d.val), (13, a.val), (0, s.val)]
  | .srli d a s => word 0x06800000 [(18, d.val), (13, a.val), (0, s.val)]
  | .srai d a s => word 0x07000000 [(18, d.val), (13, a.val), (0, s.val)]
  | .slti d a i => word 0x07800000 [(18, d.val), (13, a.val), (0, i.toNat)]
  | .lui d i => word 0x08000000 [(18, d.val), (0, i.toNat)]
  | .luih d i => word 0x08800000 [(18, d.val), (0, i.toNat)]
  | .beq a b o => word 0x0A000000 [(18, a.val), (13, b.val), (0, o.toNat)]
  | .bne a b o => word 0x0A800000 [(18, a.val), (13, b.val), (0, o.toNat)]
  | .blt a b o => word 0x0B000000 [(18, a.val), (13, b.val), (0, o.toNat)]
  | .bge a b o => word 0x0B800000 [(18, a.val), (13, b.val), (0, o.toNat)]
  | .bltu a b o => word 0x0C000000 [(18, a.val), (13, b.val), (0, o.toNat)]
  | .bgeu a b o => word 0x0C800000 [(18, a.val), (13, b.val), (0, o.toNat)]
  | .jal d o => word 0x0D000000 [(18, d.val), (0, o.toNat)]
  | .jalr d a i => word 0x0D800000 [(18, d.val), (13, a.val), (0, i.toNat)]
  | .loop a o => word 0x0E000000 [(18, a.val), (0, o.toNat)]
  | .beos p o => word 0x0E800000 [(18, p.val), (0, o.toNat)]
  | .trap a => word 0x10000000 [(13, a.val)]
  | .eret => word 0x10000001 []
  | .wfe a => word 0x10000002 [(13, a.val)]
  | .yield => word 0x10000003 []
  | .halt => word 0x10000004 []
  | .brk => word 0x10000005 []
  | .scall d a b => word 0x10000007 [(18, d.val), (13, a.val), (8, b.val)]
  | .mfc d r => word 0x10800000 [(18, d.val), (0, r.toNat)]
  | .mtc a r => word 0x11000000 [(13, a.val), (0, r.toNat)]
  | .lb d a o => word 0x40000000 [(18, d.val), (13, a.val), (0, o.toNat)]
  | .lbu d a o => word 0x40800000 [(18, d.val), (13, a.val), (0, o.toNat)]
  | .lh d a o => word 0x41000000 [(18, d.val), (13, a.val), (0, o.toNat)]
  | .lhu d a o => word 0x41800000 [(18, d.val), (13, a.val), (0, o.toNat)]
  | .lw d a o => word 0x42000000 [(18, d.val), (13, a.val), (0, o.toNat)]
  | .lwu d a o => word 0x42800000 [(18, d.val), (13, a.val), (0, o.toNat)]
  | .ld d a o => word 0x43000000 [(18, d.val), (13, a.val), (0, o.toNat)]
  | .sb s a o => word 0x44000000 [(18, s.val), (13, a.val), (0, o.toNat)]
  | .sh s a o => word 0x44800000 [(18, s.val), (13, a.val), (0, o.toNat)]
  | .sw s a o => word 0x45000000 [(18, s.val), (13, a.val), (0, o.toNat)]
  | .sd s a o => word 0x45800000 [(18, s.val), (13, a.val), (0, o.toNat)]
  | .vld v a o => word 0x46000000 [(18, v.val), (13, a.val), (0, o.toNat)]
  | .vst v a o => word 0x46800000 [(18, v.val), (13, a.val), (0, o.toNat)]
  | .vlds v a b k d64 => word 0x47000010 [(18, v.val), (13, a.val), (8, b.val), (5, k.val), (3, d64.toNat)]
  | .vsts v a b k d64 => word 0x47800010 [(18, v.val), (13, a.val), (8, b.val), (5, k.val), (3, d64.toNat)]
  | .vgth v a i k d64 => word 0x48000010 [(18, v.val), (13, a.val), (8, i.val), (5, k.val), (3, d64.toNat)]
  | .vsct v a i k d64 => word 0x48800010 [(18, v.val), (13, a.val), (8, i.val), (5, k.val), (3, d64.toNat)]
  | .lda d a ord scope dbl => word 0x49000000 [(18, d.val), (13, a.val), (5, ord.code), (1, scope.code), (0, dbl.toNat)]
  | .stl a b ord scope dbl => word 0x49800000 [(13, a.val), (8, b.val), (5, ord.code), (1, scope.code), (0, dbl.toNat)]
  | .amoadd d a b ord scope dbl => word 0x4A000000 [(18, d.val), (13, a.val), (8, b.val), (5, ord.code), (1, scope.code), (0, dbl.toNat)]
  | .amoand d a b ord scope dbl => word 0x4A800000 [(18, d.val), (13, a.val), (8, b.val), (5, ord.code), (1, scope.code), (0, dbl.toNat)]
  | .amoor d a b ord scope dbl => word 0x4B000000 [(18, d.val), (13, a.val), (8, b.val), (5, ord.code), (1, scope.code), (0, dbl.toNat)]
  | .amoxor d a b ord scope dbl => word 0x4B800000 [(18, d.val), (13, a.val), (8, b.val), (5, ord.code), (1, scope.code), (0, dbl.toNat)]
  | .amomin d a b ord scope dbl => word 0x4C000000 [(18, d.val), (13, a.val), (8, b.val), (5, ord.code), (1, scope.code), (0, dbl.toNat)]
  | .amomax d a b ord scope dbl => word 0x4C800000 [(18, d.val), (13, a.val), (8, b.val), (5, ord.code), (1, scope.code), (0, dbl.toNat)]
  | .amominu d a b ord scope dbl => word 0x4D000000 [(18, d.val), (13, a.val), (8, b.val), (5, ord.code), (1, scope.code), (0, dbl.toNat)]
  | .amomaxu d a b ord scope dbl => word 0x4D800000 [(18, d.val), (13, a.val), (8, b.val), (5, ord.code), (1, scope.code), (0, dbl.toNat)]
  | .amoswap d a b ord scope dbl => word 0x4E000000 [(18, d.val), (13, a.val), (8, b.val), (5, ord.code), (1, scope.code), (0, dbl.toNat)]
  | .amocas d a b ord scope dbl => word 0x4E800000 [(18, d.val), (13, a.val), (8, b.val), (5, ord.code), (1, scope.code), (0, dbl.toNat)]
  | .fence ord scope => word 0x4F000000 [(5, ord.code), (1, scope.code)]
  | .putq d a b len => word 0x4F800000 [(18, d.val), (13, a.val), (8, b.val), (0, len.val)]
  | .qcfg p a => word 0x50000000 [(18, p.val), (13, a.val)]
  | .qget d p => word 0x50800000 [(18, d.val), (13, p.val)]
  | .qput p a => word 0x51000000 [(18, p.val), (13, a.val)]
  | .qclose p => word 0x51800000 [(18, p.val)]
  | .qstat d p sel => word 0x52000000 [(18, d.val), (13, p.val), (0, sel.val)]
  | .cpyset c a f => word 0x52800000 [(18, c.val), (13, a.val), (0, f.code)]
  | .cpysetClrerr c => word 0x5280000A [(18, c.val)]
  | .cpygo d a c => word 0x53000000 [(18, d.val), (13, a.val), (8, c.val)]
  | .cpywait c a => word 0x53800000 [(18, c.val), (13, a.val)]
  | .cpystat d c sel => word 0x54000000 [(18, d.val), (8, c.val), (0, sel.code)]
  | .bar d lv => word 0x54800000 [(18, d.val), (4, lv.code)]
  | .barw a lv => word 0x54800001 [(13, a.val), (4, lv.code)]
  | .phase d lv => word 0x54800002 [(18, d.val), (4, lv.code)]
  | .couple a => word 0x54800003 [(13, a.val)]
  | .uncouple => word 0x54800004 []
  | .inbx d a poll => word 0x55000000 [(18, d.val), (13, a.val), (4, poll.toNat)]
  | .jnext d a => word 0x55000001 [(18, d.val), (13, a.val)]
  | .larm d a => word 0x55000002 [(18, d.val), (13, a.val)]
  | .gdisp d a => word 0x55000003 [(18, d.val), (13, a.val)]
  | .gjoin d a poll => word 0x55000004 [(18, d.val), (13, a.val), (4, poll.toNat)]
  | .sigw d a b nowait => word 0x55000005 [(18, d.val), (13, a.val), (8, b.val), (4, nowait.toNat)]
  | .sigs a b add => word 0x55000006 [(13, a.val), (8, b.val), (4, add.toNat)]
  | .hnew d a b => word 0x55800000 [(18, d.val), (13, a.val), (8, b.val)]
  | .hcopy d s => word 0x55800001 [(18, d.val), (13, s.val)]
  | .hdrop s => word 0x55800002 [(13, s.val)]
  | .hbind d a b => word 0x55800003 [(18, d.val), (13, a.val), (8, b.val)]
  | .hquery d a => word 0x55800004 [(18, d.val), (13, a.val)]
  | .foffer d a b => word 0x56000000 [(18, d.val), (13, a.val), (8, b.val)]
  | .faccept d a b => word 0x56000001 [(18, d.val), (13, a.val), (8, b.val)]
  | .flend d a b => word 0x56000002 [(18, d.val), (13, a.val), (8, b.val)]
  | .frecall d a b => word 0x56000003 [(18, d.val), (13, a.val), (8, b.val)]
  | .frelease d a => word 0x56000004 [(18, d.val), (13, a.val)]
  | .fquery d a => word 0x56000005 [(18, d.val), (13, a.val)]
  | .tlbi scope a b kind => word 0x56800000 [(18, scope.code), (13, a.val), (8, b.val), (4, kind.code)]
  | .flush a b => word 0x56800001 [(13, a.val), (8, b.val)]
  | .inval a b => word 0x56800002 [(13, a.val), (8, b.val)]
  | .vadd d a b k e keep => word 0x80000000 [(18, d.val), (13, a.val), (8, b.val), (5, k.val), (3, e.code), (2, keep.toNat)]
  | .vsub d a b k e keep => word 0x80000001 [(18, d.val), (13, a.val), (8, b.val), (5, k.val), (3, e.code), (2, keep.toNat)]
  | .vmul d a b k e keep => word 0x80000002 [(18, d.val), (13, a.val), (8, b.val), (5, k.val), (3, e.code), (2, keep.toNat)]
  | .vmulh d a b k e keep => word 0x80000003 [(18, d.val), (13, a.val), (8, b.val), (5, k.val), (3, e.code), (2, keep.toNat)]
  | .vmin d a b k e keep => word 0x80800000 [(18, d.val), (13, a.val), (8, b.val), (5, k.val), (3, e.code), (2, keep.toNat)]
  | .vmax d a b k e keep => word 0x80800001 [(18, d.val), (13, a.val), (8, b.val), (5, k.val), (3, e.code), (2, keep.toNat)]
  | .vminu d a b k e keep => word 0x80800002 [(18, d.val), (13, a.val), (8, b.val), (5, k.val), (3, e.code), (2, keep.toNat)]
  | .vmaxu d a b k e keep => word 0x80800003 [(18, d.val), (13, a.val), (8, b.val), (5, k.val), (3, e.code), (2, keep.toNat)]
  | .vand d a b k e keep => word 0x81000000 [(18, d.val), (13, a.val), (8, b.val), (5, k.val), (3, e.code), (2, keep.toNat)]
  | .vor d a b k e keep => word 0x81000001 [(18, d.val), (13, a.val), (8, b.val), (5, k.val), (3, e.code), (2, keep.toNat)]
  | .vxor d a b k e keep => word 0x81000002 [(18, d.val), (13, a.val), (8, b.val), (5, k.val), (3, e.code), (2, keep.toNat)]
  | .vandn d a b k e keep => word 0x81000003 [(18, d.val), (13, a.val), (8, b.val), (5, k.val), (3, e.code), (2, keep.toNat)]
  | .vsll d a b k e keep => word 0x81800000 [(18, d.val), (13, a.val), (8, b.val), (5, k.val), (3, e.code), (2, keep.toNat)]
  | .vsrl d a b k e keep => word 0x81800001 [(18, d.val), (13, a.val), (8, b.val), (5, k.val), (3, e.code), (2, keep.toNat)]
  | .vsra d a b k e keep => word 0x81800002 [(18, d.val), (13, a.val), (8, b.val), (5, k.val), (3, e.code), (2, keep.toNat)]
  | .vrol d a b k e keep => word 0x81800003 [(18, d.val), (13, a.val), (8, b.val), (5, k.val), (3, e.code), (2, keep.toNat)]
  | .vsadd d a b k e keep => word 0x82000000 [(18, d.val), (13, a.val), (8, b.val), (5, k.val), (3, e.code), (2, keep.toNat)]
  | .vssub d a b k e keep => word 0x82000001 [(18, d.val), (13, a.val), (8, b.val), (5, k.val), (3, e.code), (2, keep.toNat)]
  | .vavg d a b k e keep => word 0x82000002 [(18, d.val), (13, a.val), (8, b.val), (5, k.val), (3, e.code), (2, keep.toNat)]
  | .vabs d a k e keep => word 0x82000003 [(18, d.val), (13, a.val), (5, k.val), (3, e.code), (2, keep.toNat)]
  | .vfadd d a b k e keep => word 0x82800000 [(18, d.val), (13, a.val), (8, b.val), (5, k.val), (3, e.code), (2, keep.toNat)]
  | .vfsub d a b k e keep => word 0x82800001 [(18, d.val), (13, a.val), (8, b.val), (5, k.val), (3, e.code), (2, keep.toNat)]
  | .vfmul d a b k e keep => word 0x82800002 [(18, d.val), (13, a.val), (8, b.val), (5, k.val), (3, e.code), (2, keep.toNat)]
  | .vfabd d a b k e keep => word 0x82800003 [(18, d.val), (13, a.val), (8, b.val), (5, k.val), (3, e.code), (2, keep.toNat)]
  | .vfma d a b k e keep => word 0x83000000 [(18, d.val), (13, a.val), (8, b.val), (5, k.val), (3, e.code), (2, keep.toNat)]
  | .vfms d a b k e keep => word 0x83000001 [(18, d.val), (13, a.val), (8, b.val), (5, k.val), (3, e.code), (2, keep.toNat)]
  | .vfnma d a b k e keep => word 0x83000002 [(18, d.val), (13, a.val), (8, b.val), (5, k.val), (3, e.code), (2, keep.toNat)]
  | .vfnms d a b k e keep => word 0x83000003 [(18, d.val), (13, a.val), (8, b.val), (5, k.val), (3, e.code), (2, keep.toNat)]
  | .vfmin d a b k e keep => word 0x83800000 [(18, d.val), (13, a.val), (8, b.val), (5, k.val), (3, e.code), (2, keep.toNat)]
  | .vfmax d a b k e keep => word 0x83800001 [(18, d.val), (13, a.val), (8, b.val), (5, k.val), (3, e.code), (2, keep.toNat)]
  | .vfneg d a k e keep => word 0x83800002 [(18, d.val), (13, a.val), (5, k.val), (3, e.code), (2, keep.toNat)]
  | .vfabs d a k e keep => word 0x83800003 [(18, d.val), (13, a.val), (5, k.val), (3, e.code), (2, keep.toNat)]
  | .vfdiv d a b k keep => word 0x84000000 [(18, d.val), (13, a.val), (8, b.val), (5, k.val), (2, keep.toNat)]
  | .vfsqrt d a k keep => word 0x84000001 [(18, d.val), (13, a.val), (5, k.val), (2, keep.toNat)]
  | .vfrcp d a k keep => word 0x84000002 [(18, d.val), (13, a.val), (5, k.val), (2, keep.toNat)]
  | .vfrsq d a k keep => word 0x84000003 [(18, d.val), (13, a.val), (5, k.val), (2, keep.toNat)]
  | .vfexp2 d a k keep => word 0x84800000 [(18, d.val), (13, a.val), (5, k.val), (2, keep.toNat)]
  | .vflog2 d a k keep => word 0x84800001 [(18, d.val), (13, a.val), (5, k.val), (2, keep.toNat)]
  | .vftanh d a k keep => word 0x84800002 [(18, d.val), (13, a.val), (5, k.val), (2, keep.toNat)]
  | .vfsigm d a k keep => word 0x84800003 [(18, d.val), (13, a.val), (5, k.val), (2, keep.toNat)]
  | .vcmpEq d a b k e keep => word 0x85000000 [(18, d.val), (13, a.val), (8, b.val), (5, k.val), (3, e.code), (2, keep.toNat)]
  | .vcmpNe d a b k e keep => word 0x85000001 [(18, d.val), (13, a.val), (8, b.val), (5, k.val), (3, e.code), (2, keep.toNat)]
  | .vcmpLt d a b k e keep => word 0x85000002 [(18, d.val), (13, a.val), (8, b.val), (5, k.val), (3, e.code), (2, keep.toNat)]
  | .vcmpLe d a b k e keep => word 0x85000003 [(18, d.val), (13, a.val), (8, b.val), (5, k.val), (3, e.code), (2, keep.toNat)]
  | .vfcmpEq d a b k e keep => word 0x85800000 [(18, d.val), (13, a.val), (8, b.val), (5, k.val), (3, e.code), (2, keep.toNat)]
  | .vfcmpNe d a b k e keep => word 0x85800001 [(18, d.val), (13, a.val), (8, b.val), (5, k.val), (3, e.code), (2, keep.toNat)]
  | .vfcmpLt d a b k e keep => word 0x85800002 [(18, d.val), (13, a.val), (8, b.val), (5, k.val), (3, e.code), (2, keep.toNat)]
  | .vfcmpLe d a b k e keep => word 0x85800003 [(18, d.val), (13, a.val), (8, b.val), (5, k.val), (3, e.code), (2, keep.toNat)]
  | .vsel d a b k e keep => word 0x86000000 [(18, d.val), (13, a.val), (8, b.val), (5, k.val), (3, e.code), (2, keep.toNat)]
  | .vmov d a k e keep => word 0x86000001 [(18, d.val), (13, a.val), (5, k.val), (3, e.code), (2, keep.toNat)]
  | .kand d a b => word 0x86800000 [(18, d.val), (13, a.val), (8, b.val)]
  | .kor d a b => word 0x86800001 [(18, d.val), (13, a.val), (8, b.val)]
  | .kxor d a b => word 0x86800002 [(18, d.val), (13, a.val), (8, b.val)]
  | .kandn d a b => word 0x86800003 [(18, d.val), (13, a.val), (8, b.val)]
  | .knot d a => word 0x87000000 [(18, d.val), (13, a.val)]
  | .kpop d a => word 0x87000001 [(18, d.val), (13, a.val)]
  | .kfirst d a => word 0x87000002 [(18, d.val), (13, a.val)]
  | .kset d a => word 0x87000003 [(18, d.val), (13, a.val)]
  | .vbcast d b k e => word 0x87800000 [(18, d.val), (8, b.val), (5, k.val), (3, e.code)]
  | .vins d a b e => word 0x87800001 [(18, d.val), (13, a.val), (8, b.val), (3, e.code)]
  | .vext d a b e keep => word 0x87800002 [(18, d.val), (13, a.val), (8, b.val), (3, e.code), (2, keep.toNat)]
  | .vslide d a b k e keep => word 0x87800003 [(18, d.val), (13, a.val), (8, b.val), (5, k.val), (3, e.code), (2, keep.toNat)]
  | .vperm d a b k e keep => word 0x88000000 [(18, d.val), (13, a.val), (8, b.val), (5, k.val), (3, e.code), (2, keep.toNat)]
  | .vrot d a b k e keep => word 0x88000001 [(18, d.val), (13, a.val), (8, b.val), (5, k.val), (3, e.code), (2, keep.toNat)]
  | .vzip d a b k e keep => word 0x88000002 [(18, d.val), (13, a.val), (8, b.val), (5, k.val), (3, e.code), (2, keep.toNat)]
  | .vunzip d a b k e keep => word 0x88000003 [(18, d.val), (13, a.val), (8, b.val), (5, k.val), (3, e.code), (2, keep.toNat)]
  | .vrsum d a k e keep => word 0x88800000 [(18, d.val), (13, a.val), (5, k.val), (3, e.code), (2, keep.toNat)]
  | .vrmax d a k e keep => word 0x88800001 [(18, d.val), (13, a.val), (5, k.val), (3, e.code), (2, keep.toNat)]
  | .vrfmax d a k e keep => word 0x88800101 [(18, d.val), (13, a.val), (5, k.val), (3, e.code), (2, keep.toNat)]
  | .vrmin d a k e keep => word 0x88800002 [(18, d.val), (13, a.val), (5, k.val), (3, e.code), (2, keep.toNat)]
  | .vrfmin d a k e keep => word 0x88800102 [(18, d.val), (13, a.val), (5, k.val), (3, e.code), (2, keep.toNat)]
  | .vrfsum d a k e keep => word 0x88800003 [(18, d.val), (13, a.val), (5, k.val), (3, e.code), (2, keep.toNat)]
  | .vcvt d a src dst rm sat k => word 0x89000000 [(18, d.val), (13, a.val), (9, src.code), (5, dst.code), (3, rm.code), (2, sat.toNat), (0, k.val)]
  | .vpack d a nf k e keep => word 0x89800000 [(18, d.val), (13, a.val), (8, nf.code), (5, k.val), (3, e.code), (2, keep.toNat)]
  | .vunpk d a nf k e keep => word 0x89800001 [(18, d.val), (13, a.val), (8, nf.code), (5, k.val), (3, e.code), (2, keep.toNat)]
  | .vlut d a b k e keep => word 0x8A000000 [(18, d.val), (13, a.val), (8, b.val), (5, k.val), (3, e.code), (2, keep.toNat)]
  | .vscale d a b k e keep => word 0x8A800000 [(18, d.val), (13, a.val), (8, b.val), (5, k.val), (3, e.code), (2, keep.toNat)]
  | .vmovi d i k e => word 0x8B000000 [(18, d.val), (5, i.toNat), (2, k.val), (0, e.code)]
  | .mma c a b fa fb popA popB s => word 0xC0000000 [(21, c.val), (18, a.val), (15, b.val), (11, fa.code), (7, fb.code), (6, popA.toNat), (5, popB.toNat), (0, s.val)]
  | .mmasN6 c a b fa fb popA popB s => word 0xC0800000 [(21, c.val), (18, a.val), (15, b.val), (11, fa.code), (7, fb.code), (6, popA.toNat), (5, popB.toNat), (0, s.val)]
  | .mmasN8 c a b fa fb popA popB s => word 0xC1000000 [(21, c.val), (18, a.val), (15, b.val), (11, fa.code), (7, fb.code), (6, popA.toNat), (5, popB.toNat), (0, s.val)]
  | .mmasN12 c a b fa fb popA popB s => word 0xC1800000 [(21, c.val), (18, a.val), (15, b.val), (11, fa.code), (7, fb.code), (6, popA.toNat), (5, popB.toNat), (0, s.val)]
  | .mzero c => word 0xC2000000 [(21, c.val)]
  | .mdrain c v tf rm sat row => word 0xC2800000 [(21, c.val), (16, v.val), (12, tf.code), (10, rm.code), (9, sat.toNat), (4, row.val)]
  | .mdrains c a tf rm sat row => word 0xC3000000 [(21, c.val), (16, a.val), (12, tf.code), (10, rm.code), (9, sat.toNat), (4, row.val)]
  | .mchainSend c rows row => word 0xC3800000 [(21, c.val), (16, rows.val), (4, row.val)]
  | .mchainRecv c rows int row => word 0xC3804000 [(21, c.val), (16, rows.val), (12, int.toNat), (4, row.val)]
  | .mchainRelay c rows int row => word 0xC3808000 [(21, c.val), (16, rows.val), (12, int.toNat), (4, row.val)]
  | .mcbk r a => word 0xC4000000 [(18, r.val), (0, a.val)]
  | .mrset r a => word 0xC4800000 [(18, r.val), (0, a.val)]
  | .mradv r a => word 0xC5000000 [(18, r.val), (0, a.val)]
  | .mrstat r d => word 0xC5800000 [(18, r.val), (0, d.val)]
  | .mwait => word 0xC6000000 []
  | .mseq d => word 0xC6800000 [(0, d.val)]
  | .macc c int s => word 0xC7000000 [(21, c.val), (20, int.toNat), (18, s.val)]
  | .wfeDeadline .. | .haltRetire .. | .modeWrite .. | .arbWrite .. | .vshareWrite ..
  | .mownerWrite .. | .fflagsWrite .. | .mstatWrite .. | .loopcWrite .. | .jnextCovered ..
  | .resultLand .. | .variableResultLand .. | .shadowReland .. | .vectorPartBind .. | .seqCommandStart ..
  | .mmaRetire .. | .mzeroRetire .. | .maccRetire .. | .mdrainRetire .. | .mdrainsRetire ..
  | .chainSendDone .. | .chainMessageArrival .. | .chainReceiveRetire .. | .ringstarved .. | .streamFetch ..
  | .streamWrite .. | .ringTileAdvance .. | .streamCloseDone .. | .copyTransferStart .. | .copyTransferComplete ..
  | .putqDelivery .. | .chipLinkArrival .. | .enginePageFault .. | .engineReplay .. | .translationFill ..
  | .barrierCompletion .. | .consistForm .. | .consistResume .. | .trapEntry .. | .faultRecordWrite ..
  | .kickInterrupt .. | .kickRestart .. | .breakpointTableLoad .. | .engineFreeze .. | .engineFrozen ..
  | .engineUnfreeze .. | .switchArm .. | .switchStop .. | .switchSave .. | .switchRestore ..
  | .notifyWrite .. | .yardAdmit .. | .yardPriorityAge .. | .yardIdleRelease .. | .packetTake ..
  | .signalBoxEvent | .launchPlace .. | .monitorEntry .. | .eretStart .. | .launchCompletion ..
  | .endRequest .. | .launchEndDone .. | .queueRegister .. | .queueRemove .. | .contextRegister ..
  | .contextUnregister .. | .partitionWrite .. | .handlePost | .recallDeadline .. | .recallDrainDone ..
  | .rootWrite .. | .eventFrameWrite .. | .keyRegenerate .. | .pkgnumWrite .. | .hubRegisterWrite ..
  | .dmaWrite .. | .dmaRead .. | .correctedError .. | .linkRetrainDone .. | .uncorrectableError ..
  | .tileRemap .. | .patrolScrub .. | .watchdogBeat .. | .watchdogPeriodWrite .. | .watchdogExpiry ..
  | .residentAdopt .. | .residentResume .. | .extentAdd .. | .extentRelease .. | .coldReset ..
  | .warmReset .. | .bootTimeout .. | .bootokWrite .. | .mctpControl .. | .sidebandOtherMessage ..
  | .getVersion .. | .getCapabilities .. | .negotiateAlgorithms .. | .getDigests .. | .getCertificate ..
  | .challenge .. | .getMeasurements .. | .sensorThreshold .. | .thermalClockStep .. | .heartbeatSend ..
  | .linkdown .. | .freezeFlitArrival .. | .heartbeatArrival .. | .rowSpareDone .. | .hbmRepairDone ..
  | .handlePostLost => none

/-- The word of an instruction with the given L bit (R27). -/
def encode (l : Bool) (i : Instr) : Option Nat := (encodeWord i).map (· + l.toNat * 2 ^ 29)

end Sys2Proof
end

