-- ==== Sys2Proof/Config.lean ====
section
/-! DEFINITION. What one package fixes, and the values that the manual leaves open. An opaque constant has no body:
nothing can be proved of its value, so a claim holds whatever it is. -/

namespace Sys2Proof.Config

/-- A value the manual does not state, of width w: the n-th one a machine draws (State.free). Marked in log 9. -/
opaque freeValue (w : Nat) : Nat → BitVec w

/-- SYSTIME at a count of the package clock (R52): its offset against DTIME is not stated. Marked in log 10. -/
opaque sysTime : Nat → BitVec 64

/-- The level-0 node address of the management core's page table (R296 gives it no root frame). Marked in log 12. -/
opaque mgmtRoot : BitVec 64

/-- The 64 KiB I/O frames that hold a device BAR below a root port (R307). Marked in log 11. -/
opaque barFrame : Nat → Bool

/-- The set of a shared translation cache in which a page of an address space lies (R302 states no index function), one of
2,048. Marked in log 7. -/
opaque cacheSet (va asn : Nat) : Nat

/-- The data key and the tweak key of a slot (R316): what the random source gives at a fill, and at a regeneration of the
slot after it. Marked in log 68. -/
opaque randomKey (fill slot draw : Nat) : BitVec 512

/-- The encryption and the decryption of a granule of 64 bytes under a data key and a tweak key, with a tweak (R316 names
AES-256-XTS; its keys are unknown, so the functions stay uninterpreted). Marked in log 68. -/
opaque encrypt (keys : BitVec 512) (tweak : BitVec 42) (granule : BitVec 512) : BitVec 512
opaque decrypt (keys : BitVec 512) (tweak : BitVec 42) (granule : BitVec 512) : BitVec 512

/-- A byte of the sensor frame at an offset, as the readings, the thresholds and what has been stored in the frame give it (R391
states no layout). Marked in log 103. -/
opaque sensorByte (readings : List (Nat × BitVec 64)) (limits : List Nat) (stored : List (Nat × BitVec 8)) (offset : Nat) : BitVec 8

/-- The job tag of a partition while a context is resident in it (R393 names no place that holds it). Marked in log 75. -/
opaque jobTag (partition ctx : Nat) : Nat

/-- Repair resources of a bank of an HBM stack (R377 gives no number). Marked in log 16. -/
opaque hbmRepairs (stack bank : Nat) : Nat

/-- The frames of a stack that lie in a row of a bank, counted in the stack (R378 gives no address map). Marked in
log 16. -/
opaque stackFrames (stack bank row : Nat) : List Nat

/-- Frames of a stack: 96 GiB (R6). -/
def framesPerStack : Nat := 0x180000

/-- The frames that lie in a row of a bank of stack s, all in [s × 96 GiB, (s + 1) × 96 GiB) (R239). -/
def rowFrames (stack bank row : Nat) : List Nat :=
  (stackFrames stack bank row).map (fun f => stack * framesPerStack + f % framesPerStack)

/-- Bytes of the state section of a saved tile's image (R336 leaves its contents private). Marked in log 29. -/
opaque stateSection : Nat

/-- Spare rows that the two spare banks of a tile give (R15, R16): two banks of 8 KiB in rows of 32 bytes. -/
def spareRows : Nat := 512

/-- The kernel of G-core c (R295): the monitor assigns twelve to HOST and four to RESIDENT; the manual does not say
which. DESIGN CHOICE (log 4): cores 0 to 11 are HOST's. -/
def gcoreKernel (c : Nat) : Kernel := if c < 12 then .host else .resident

/-- Tiles, strands and profile G cores. -/
def tiles : Nat := 512
def strands : Nat := 2048
/-- The number of the management core among the profile G cores; 0 to 15 are the G-cores, 17 to 28 the signal box's. -/
def mgmtCore : Nat := 16
def gcores : Nat := 29

end Sys2Proof.Config
end

