-- ==== Sys2Proof/Machine/State.lean ====
section
/-! DEFINITION. The state of one CX-8840 package, as plain data: every piece the manual names (INVENTORY.md lists them
with their rules), and the few fields that say which party moves next. A table is a list of (key, entry) pairs; a key
it does not list has the entry's initial value. -/

namespace Sys2Proof.Machine

/-- Entries by number; a later pair of the same number does not count. -/
abbrev Table (α : Type) := List (Nat × α)

/-- Where a byte is: a tile's scratchpad, or a physical address. -/
inductive Loc where
  | scratch (t off : Nat)
  | phys (pa : Nat)
  deriving DecidableEq, Repr

/-! ## Strands and profile G cores -/

/-- Where a result goes when it lands: a vector result changes only the bits of its mask (R151). -/
inductive Landing where
  | none
  | x (r : XReg) (v : Word)
  | v (r : VReg) (v mask : VWord)
  | k (r : KReg) (v : Word)
  deriving DecidableEq, Repr

/-- The issued word a result or a fault belongs to: bundle address, word index, sequence number (0xFFFF for class S
and M, R320), place in the strand's issue order, and whether it issued above USER (R324). -/
structure Origin where
  pc : Word := 0
  w1 : Bool := false
  seq : BitVec 16 := 0xFFFF
  order : Nat := 0
  sys : Bool := false
  /-- A word of class V or X, whose sequence number seq is. -/
  vx : Bool := false
  deriving DecidableEq, Repr

/-- A result on its way (R58, R60): the advancing cycle it lands in, or none while an engine still owes it or its
vector parts are not bound (R73). -/
structure InFlight where
  due : Option Nat
  land : Landing
  /-- Floating-point flags that reach FFLAGS with it (R101), in the bit order of R98. -/
  fl : BitVec 5 := 0
  /-- Those of its flags that were enabled in FTRAP at issue (R100). -/
  en : BitVec 5 := 0
  /-- It sets MSTAT.TERNBAD when it lands (R91). -/
  tern : Bool := false
  /-- Its latency is variable (R60). -/
  wait : Bool := false
  /-- The latency that counts from the binding of its last part (R73). -/
  lat : Nat := 0
  org : Origin
  /-- It belongs to a floating instruction (R101; log 123). -/
  float : Bool := false
  deriving DecidableEq, Repr

/-- One entry of the pipe shadow (R61): the result and its remaining count. -/
structure ShadowEntry where
  rem : Nat
  land : Landing
  fl : BitVec 5 := 0
  en : BitVec 5 := 0
  tern : Bool := false
  org : Origin
  float : Bool := false
  deriving DecidableEq, Repr

/-- One level of hardware loop (R123, R125). -/
structure LoopLevel where
  first : Word
  last : Word
  count : BitVec 28
  deriving DecidableEq, Repr

/-- One entry of the dispatch ring (R171), with the issue order of its word. -/
structure DispatchEntry where
  seq : BitVec 16
  pc : Word
  w1 : Bool
  order : Nat
  deriving DecidableEq, Repr

/-- A late fault that has not been taken (R322): its cause, TVAL and FADDR, and whether held commands stand (R326). -/
structure LateFault where
  cause : BitVec 8
  tval : Word
  faddr : BitVec 48
  replay : Bool
  org : Origin
  deriving DecidableEq, Repr

/-- An instruction of a strand's vector queue (R69): parts bound so far, whether it is bound whole (R72), and the
issue order of its result. -/
structure VqEntry where
  order : Nat
  bound : Nat
  whole : Bool
  deriving DecidableEq, Repr

/-- What a frozen or waiting delivery still has to do (R321, R330). -/
inductive Delivery where
  /-- The fault-ring record and the handler frame: step 4 of R321. -/
  | record
  /-- The fetch of the first handler bundle. -/
  | fetch
  /-- The call-ring write of SCALL (R131). -/
  | callRing
  /-- TVEC.BASE was 0. -/
  | vector
  /-- A precise trap above USER with TSTATUS.RE = 0. -/
  | nested
  deriving DecidableEq, Repr

/-- The trap registers of an entry that has not been delivered, which the DOUBLE values overlay (R330). -/
structure Undelivered where
  tcause : Word
  tval : Word
  tpc : Word
  tseq : Word
  tstatus : Word
  /-- The virtual address of the fault-ring slot it has claimed (R329). -/
  slot : Option Word := none
  /-- DTIME at the event, for the record (R328). -/
  time : Nat := 0
  /-- Port and element of a STREAMFAULT, for the record (R84). -/
  port : Option PortNo := none
  deriving DecidableEq, Repr

/-- Whether a strand or core issues. -/
inductive RunState where
  | running
  /-- Its MODE.RUN bit is clear (R54). -/
  | inactive
  /-- HALT has issued and waits for results in flight (R130). -/
  | halting
  /-- An entry waits for its fault-ring slot (R329). -/
  | delivering
  /-- Frozen with DOUBLE (R330). -/
  | frozen (d : Delivery)
  deriving DecidableEq, Repr

/-- The mode of a port (R85, R192). -/
inductive PortMode where | affine | indexed | ring
  deriving DecidableEq, Repr

/-- A push that has taken its place and is not yet written: its transfer number, its bytes, the bytes a lane mask
keeps (R81), and the MDRAIN that still owes it (R186). -/
structure Push where
  t : Nat
  bytes : List Byte
  keep : List Bool
  owed : Option Nat
  deriving DecidableEq, Repr

/-- An element of a push whose checks are made and whose bytes are not yet performed at their places (R202): the transfer it
belongs to, its number, its places, its bytes, and those that a lane mask keeps. -/
structure Deferred where
  t : Nat
  e : Nat
  places : List (Loc × Nat)
  bytes : List Byte
  keep : List Bool
  deriving DecidableEq, Repr

/-- A port context (R76, R85, R192 to R200). -/
structure PortCtx where
  cfg : Bool := false
  write : Bool := false
  mode : PortMode := .affine
  eos : Bool := false
  fault : Bool := false
  wait : Bool := false
  close : Bool := false
  base : Word := 0
  w : Nat := 1
  l : Nat := 1
  aux : Nat := 0
  depth : Nat := 2
  fill : BitVec 32 := 0
  cnt : Vector Nat 4 := Vector.replicate 4 1
  stride : Vector Word 4 := Vector.replicate 4 0
  /-- Its QCFG issued above USER: the privilege of its accesses. -/
  sys : Bool := false
  /-- DTIME at its QCFG (R313). -/
  since : Nat := 0
  /-- Transfers popped or pushed by the program, and transfers fetched, written or tiles advanced (R200). -/
  pos : Nat := 0
  done : Nat := 0
  /-- Read port: transfers in staging, the oldest first. -/
  stage : List (List Byte) := []
  /-- Write port: pushes not yet written, the oldest first. -/
  pend : List Push := []
  /-- Write port: checked elements that are still to be performed, in an order that nothing gives (R202, R399). -/
  later : List Deferred := []
  /-- Indices that the engine of an INDEXED port has taken from its index port for elements it has yet to fetch (R194). -/
  taken : List Int := []
  /-- Elements of the transfer at which an index port is faulted that the engine it serves has taken (R84, R194). -/
  part : Nat := 0
  /-- The faulted element, its address and its subcause (R84). -/
  fidx : Nat := 0
  fva : Word := 0
  fsub : BitVec 8 := 0
  deriving DecidableEq, Repr

/-- A strand of a tile (profile T) or a core of profile G, with what R51, R52 and R318 give it. -/
structure Hart where
  x : Vector Word 32 := Vector.replicate 32 0
  v : Vector VWord 24 := Vector.replicate 24 0
  k : Vector Word 8 := Vector.replicate 8 0
  ports : Vector PortCtx 8 := Vector.replicate 8 {}
  pc : Word := 0
  w1 : Bool := false
  priv : Priv := .user
  fflags : BitVec 5 := 0
  frm : BitVec 2 := 0
  ftrap : BitVec 5 := 0
  /-- TVEC of a profile G core; a tile's TVEC is its context's (R52). -/
  tvec : Word := 0
  tcause : Word := 0
  tpc : Word := 0
  tval : Word := 0
  tseq : Word := 0
  tstatus : Word := 0
  /-- Loop levels of USER and of HANDLER, the innermost first (R123, R124). -/
  loopsU : List LoopLevel := []
  loopsH : List LoopLevel := []
  latch : Bool := false
  flight : List InFlight := []
  shadow : List ShadowEntry := []
  /-- Flags that landed in the cycle at hand (R101): of fixed-latency results in the advancing cycle, of variable-latency ones
  in the clock cycle. -/
  landed : BitVec 5 := 0
  landedNow : BitVec 5 := 0
  /-- An MTC that takes effect at the end of its bundle (R132): register number and value. -/
  mtcPend : Option (Nat × Word) := none
  seq : BitVec 16 := 0
  ring : List DispatchEntry := []
  late : List LateFault := []
  step : Option Word := none
  irqs : List (BitVec 8 × Word) := []
  run : RunState := .running
  undelivered : Option Undelivered := none
  /-- Arrival counts per level (R256). -/
  arrivals : Vector (BitVec 32) 4 := Vector.replicate 4 0
  bp : Vector Word 4 := Vector.replicate 4 0
  /-- The next bundle is not compared with the breakpoints (R325). -/
  bpskip : Bool := false
  bubble : Nat := 0
  waited : Nat := 0
  vq : List VqEntry := []
  /-- Words issued so far: the issue order of late faults and results. -/
  issued : Nat := 0
  /-- A SIGW that waits: its home address and the value a wake delivered (R290). -/
  wake : Option (Nat × Option Word) := none
  /-- DTIME at which the waiting instruction at pc first held. -/
  since : Option Nat := none
  /-- The deadline of the WFE it waits in, and that the deadline has ended the wait (R129). -/
  wfe : Option Word := none
  wfeOver : Bool := false
  /-- The configuration that a QCFG, and the transfer that a CPYGO, has checked and holds with (R197, R206). -/
  qcfg : Option PortCtx := none
  cpygo : Option (Vector Word 10) := none
  /-- The call-ring slot that an SCALL has claimed and could not write: the SCALL's place, and the slot's address (R131). -/
  claim : Option (Word × Word) := none
  /-- It has issued COUPLE with this value, or ERET in a consist, and waits for the others (R263, R266). -/
  coupling : Option Word := none
  ereting : Bool := false
  /-- Its consist has formed, and the COUPLE that it waits in ends with its next issue (R263). -/
  coupled : Bool := false
  /-- Place and words of the bundle that holds the COUPLE it waits in (R263). -/
  couple : Option (Word × Nat × Nat) := none
  /-- Cycles before its first unissued word that the stop of its consist has cut short (R266), and a follower's wait in HALT that
  an entry has interrupted (R267). -/
  rest : Nat := 0
  halts : Bool := false
  /-- KICK_RESTART has ended its freeze, which its consist's resumption waits for (R266, R330). -/
  restarted : Bool := false
  deriving DecidableEq, Repr

/-! ## Tiles -/

/-- An accumulator: element (m, n) of 48 bits at bit 48 × (64m + n) (R94). -/
abbrev Acc := BitVec 98304

/-- An operand ring (R175, R182). -/
structure Ring where
  /-- The MRSET configuration; 0 is unconfigured. -/
  cfg : Word := 0
  head : BitVec 32 := 0
  tail : BitVec 32 := 0
  codebook : BitVec 256 := 0
  deriving DecidableEq, Repr

/-- A place in a chain (R268): the position, the length, and the tile at the next position. -/
structure ChainPlace where
  j : Nat
  p : Nat
  next : Option Nat
  deriving DecidableEq, Repr

/-- A command of the sequencer (R169, R170), with the operand it read at issue: the scale of an MMA, the address of an
MDRAINS. -/
structure Command where
  instr : Instr
  opnd : Word
  strand : Fin 4
  org : Origin
  /-- FTRAP as it stood at issue (R100). -/
  en : BitVec 5 := 0
  issuedAt : Nat
  /-- Start and retirement times in DTIME, once started. -/
  started : Option Nat := none
  retireAt : Nat := 0
  /-- The place in its chain at which an MCHAIN has started (R189, R268). -/
  place : Option ChainPlace := none
  /-- DTIME since which its tiles or its message have been missing (R173). -/
  starved : Option Nat := none
  /-- Kept in the sequencer by a fault that its strand has not taken yet: the issue order of the command that faulted (R172,
  R326). -/
  parked : Option Nat := none
  deriving DecidableEq, Repr

/-- A chain message (R189): rows of 64 FX48 values, row r at bit 3,072 r, the launch of its sender, with which it goes
(R395), the tile it goes to, and the PUTQs of its tile for that tile that left before it, by sender and issue order (R22). -/
structure ChainMsg where
  rows : Nat
  int : Bool
  data : Acc
  launch : Option Nat := none
  dst : Nat := 0
  behind : List (Nat × Nat) := []
  deriving DecidableEq, Repr

/-- An entry of the range-lock table (R216): bytes lo to hi, its kind, and its owner (a transfer also has an ID). -/
structure Lock where
  lo : Nat
  hi : Nat
  write : Bool
  owner : EngineUnit
  id : Nat
  deriving DecidableEq, Repr

/-- What a consist's leader passes down the line (R265): nothing, a bubble, or what it issued, with its decisions. -/
structure FwdWord where
  w0 : Nat
  w1 : Option Nat
  pc : Word
  /-- The word index of w0. -/
  at1 : Bool
  nextPc : Word
  nextW1 : Bool
  loops : List LoopLevel
  /-- The bubbles that follow it at the leader (R64), which a follower that uncouples with it has itself. -/
  bubble : Nat := 0
  /-- The pair of a JNEXT (R280). -/
  dealt : Option (Word × Word)
  deriving DecidableEq, Repr

/-- Whether the tile is present (R332, R383, R379). -/
inductive Presence where
  | present
  /-- Stopped by a gang switch and not yet saved. -/
  | stopped
  /-- Its image has been saved; another context's may be there. -/
  | absent
  /-- Stopped by a crash or a freeze flit (R383, R393). -/
  | crashed
  /-- Retired (R379). -/
  | retired
  deriving DecidableEq, Repr

/-- A logical tile (R15) with what R52 keeps per tile. -/
structure Tile where
  scratch : List Host.Cell := []
  dirty : BitVec 192 := 0
  /-- MODE (R54): SHARED, RUN and FIXCODE. -/
  mode : Word := 2
  arb : Word := 0x11110
  vshare : Word := 0x1111
  owner : BitVec 2 := 0
  /-- DOMMEM (R253), its PH field included. -/
  dommem : Word := 0x10
  /-- MSTAT without DEPTH (R185). -/
  mstat : Word := 0x1400
  /-- SCRBASE (R52). -/
  scrbase : Word := 0
  /-- Sticky bits of MSTAT that a command has set in the cycle at hand, and whether a result that landed in it has set
  TERNBAD (R185). -/
  fresh : BitVec 2 := 0
  ternLanded : Bool := false
  /-- DBGCTL without FROZEN (R339). -/
  dbgctl : Word := 0
  frozen : Bool := false
  /-- DTIME at which FREEZE was set: RINGTIME does not count from then on (R342). -/
  frozenAt : Nat := 0
  arbCtr : Vector Int 4 := Vector.replicate 4 0
  vCtr : Vector Int 4 := Vector.replicate 4 0
  /-- The package clock of the cycle whose lane groups have been dealt (R71). -/
  dealtAt : Option Nat := none
  /-- Age order, the oldest first (R66). -/
  age : List (Fin 4) := [0]
  last : Fin 4 := 3
  yielded : Bool := false
  /-- Generations of the four levels (R257). -/
  gen : Vector (BitVec 32) 4 := Vector.replicate 4 0
  /-- Pending generations that some strand of the tile made with PHASE, per level (R255). -/
  marks : Vector (List (BitVec 32)) 4 := Vector.replicate 4 []
  /-- All strands have halted since the launch began: arrived for every later generation (R256). -/
  allHalted : Bool := false
  acc : Vector Acc 4 := Vector.replicate 4 0
  rings : Vector Ring 8 := Vector.replicate 8 {}
  cmds : List Command := []
  held : List Command := []
  /-- DTIME from which the array, and the drain path, are free (R170). -/
  arrayFree : Nat := 0
  drainFree : Nat := 0
  chain : Option ChainMsg := none
  /-- A message that has left this tile and not yet arrived (R189). -/
  chainOut : Option ChainMsg := none
  inbox : List (List Byte) := []
  locks : List Lock := []
  /-- DTIME from which the direct-access path is free (R141). -/
  pathFree : Nat := 0
  /-- Advancing cycles (R59), and the DTIME at which the tile left reset (R52). -/
  adv : Nat := 0
  born : Nat := 0
  /-- The context the tile is bound to and the launch it runs a part of (R276). -/
  ctx : Nat := 0
  launch : Option Nat := none
  /-- Held words of a follower, the next to issue first; none is a bubble (R265, R266). -/
  line : List (Option FwdWord) := []
  presence : Presence := .present
  /-- Scratchpad granules of 64 bytes with an uncorrectable error (R380). -/
  bad : List Nat := []
  deriving DecidableEq, Repr

/-! ## Copy channels -/

/-- The parameters of a transfer: the ten shadow registers, in the order of their fn8 codes (R203). -/
abbrev CopyParams := Vector Word 10

/-- A transfer that has not completed (R206): the strand that issued it, whether it has started, and whether its
translation waits for a replay (R211, R218). -/
structure Xfer where
  id : Nat
  p : CopyParams
  hart : Nat
  /-- Its CPYGO issued above USER: the privilege of its accesses. -/
  sys : Bool := false
  /-- It has been handed to its channel; until then its CPYGO holds for room in the range-lock table (R206). -/
  handed : Bool := true
  started : Bool := false
  wait : Bool := false
  /-- Rows done, bytes done of the next row, and the address that waits for its translation. -/
  row : Nat := 0
  off : Nat := 0
  fva : Word := 0
  /-- DTIME at its CPYGO (R313). -/
  since : Nat := 0
  deriving DecidableEq, Repr

/-- A copy channel (R203 to R210). -/
structure Chan where
  shadow : CopyParams := Vector.replicate 10 0
  nextId : Nat := 1
  live : List Xfer := []
  /-- The last error: CERRID, CERRST, CERRVA (R210). -/
  cerrId : Nat := 0
  cerrSt : BitVec 8 := 0
  cerrVa : Word := 0
  deriving DecidableEq, Repr

/-- The four channels of a tile, or those the hub gives a profile G core (R218). -/
abbrev ChanSet := Vector Chan 4

/-! ## The package -/

/-- A cached translation (R302, R303). The unit is a tile, 1000 + a compute die's shared cache, 2000 + a profile G
core, 3000 the hub cache, 4000 + a root port. -/
structure TlbEntry where
  unit : Nat
  kn : Kernel
  asn : Nat
  glob : Bool
  /-- Page base and log2 of the page size: 16, 21 or 30. -/
  va : Nat
  sz : Nat
  pa : Nat
  r : Bool
  w : Bool
  x : Bool
  k : Bool
  deadline : Option Nat
  deriving DecidableEq, Repr

/-- The state of a depot record (R282). -/
inductive RecState where | idle | armed | ready | running
  deriving DecidableEq, Repr

/-- What the hub keeps for a depot record (R281, R282). -/
structure DepotRec where
  /-- The 64 bytes copied at registration, with DCNT and ARG0 to ARG7 as read at the last arm. -/
  bytes : List Byte := []
  st : RecState := .idle
  cnt : Nat := 0
  early : Nat := 0
  arms : BitVec 52 := 0
  dones : BitVec 52 := 0
  status : BitVec 8 := 0
  readyAt : Nat := 0
  /-- The tile of the predecessor that made it READY and that predecessor's RREG (R284). -/
  handoff : Option (Nat × BitVec 32) := none
  deriving DecidableEq, Repr

/-- A context (R294, R318): TVEC and FRING, and the registration the hub keeps. -/
structure Ctx where
  tvec : Word := 0
  fring : Word := 0
  valid : Bool := false
  depot : Word := 0
  drecs : Nat := 0
  callring : Word := 0
  part : Nat := 0
  deriving DecidableEq, Repr

/-- The state of a user queue (R269). -/
inductive QueueState where | idle | waiting | mapped | overrun
  deriving DecidableEq, Repr

/-- A registered user queue (R269 to R271). -/
structure UQueue where
  valid : Bool := false
  hdr : Word := 0
  sz : Nat := 0
  prio : Nat := 0
  ctx : Nat := 0
  st : QueueState := .idle
  ridx : Word := 0
  widx : Word := 0
  /-- DTIME at which it entered WAITING, was mapped, and last had a packet to take. -/
  since : Nat := 0
  busyAt : Nat := 0
  /-- How often its waiting has raised its effective priority. -/
  aged : Nat := 0
  deriving DecidableEq, Repr

/-- A packet taken from a queue (R272). -/
structure SbEvent where
  queue : Nat
  index : Word
  ctx : Nat
  packet : List Byte
  deriving DecidableEq, Repr

/-- A launch that has been accepted and has not completed (R272 to R278). -/
structure Launch where
  ctx : Nat
  /-- The queue of its packet and the packet's index, or its depot record. -/
  queue : Option (Nat × Word)
  record : Option Nat
  bytes : List Byte
  /-- Tiles placed so far in position order, and how many the launch has in all. -/
  tiles : List Nat := []
  size : Nat := 0
  /-- Parts that have ended. -/
  ended : Nat := 0
  status : BitVec 8 := 0
  ending : Bool := false
  /-- The tile and RREG of a handoff (R284). -/
  handoff : Option (Nat × BitVec 32) := none
  /-- The bytes of that RREG, once another launch has taken the tile (R284; log 105). -/
  region : Option (List Byte) := none
  /-- DTIME at which it became ready to be placed (R283). -/
  readyAt : Nat := 0
  /-- It has started: its card as read then, the card's place, and its screen (R279, R349). -/
  begun : Bool := false
  card : List Byte := []
  cardPa : Nat := 0
  screen : Nat := 0
  deriving DecidableEq, Repr

/-- A SIGW registration at the home of its signal (R290): the number of the signal's place. -/
structure SigReg where
  pa : Nat
  target : Word
  hart : Nat
  nowait : Bool
  /-- The launch of its strand, with which it goes. -/
  launch : Option Nat := none
  /-- The package of a strand that is not here, and the address by which it names the signal. -/
  away : Option (Nat × Word) := none
  deriving DecidableEq, Repr

/-- A slot of a handle unit (R364). -/
structure HandleSlot where
  gen : BitVec 29 := 0
  live : Bool := false
  exp : Nat := 0
  returned : Nat := 0
  /-- The owning context, if its maker had one. -/
  ctx : Option Nat := none
  base : Nat := 0
  frames : Nat := 0
  /-- The handle a proxy holds. -/
  proxy : Option Word := none
  /-- The finaliser: 4,096 × its context + its depot record. -/
  fin : Option Nat := none
  deriving DecidableEq, Repr

/-- A weight on its way home (R370): the context of its poster, the strand or core that dropped it (none for the held
handle of a proxy), and for a poster on another package that package and the context there. -/
structure Post where
  handle : Word
  ctx : Option Nat
  hart : Option Nat
  away : Option (Nat × Nat) := none
  deriving DecidableEq, Repr

/-- A PUTQ that has left and not been delivered (R212): its target descriptor and payload, the sender with its context
and privilege at issue, and the issue order of its result. -/
structure PutqMsg where
  target : Word
  payload : List Byte
  hart : Nat
  ctx : Nat
  priv : Priv
  order : Nat
  deriving DecidableEq, Repr

/-- A fault record of an engine or of the hub that is not yet written (R329): its bytes, the context whose ring takes
it, the slot it has claimed, and the engine that waits for it. -/
structure FaultRec where
  ctx : Nat
  bytes : List Byte
  slot : Option Word := none
  unit : Option EngineUnit := none
  deriving DecidableEq, Repr

/-- How far an armed gang switch is (R331 to R337). -/
inductive SwitchStage where | armed | saving | restoring
  deriving DecidableEq, Repr

/-- A gang switch of a partition: time, incoming context, stage, tiles still to save and to restore. -/
structure Switch where
  swt : Nat
  inctx : Nat
  stage : SwitchStage := .armed
  todo : List Nat := []
  deriving DecidableEq, Repr

/-- A saved tile of a context (R334, R336): its state with the scratchpad image, its strands and its channels. -/
structure Image where
  ctx : Nat
  tile : Nat
  st : Tile
  harts : List Hart
  chans : ChanSet
  deriving DecidableEq, Repr

/-- A chip link (R377, R393). -/
structure Link where
  lanes : Nat := 8
  up : Bool := true
  retrain : Bool := false
  /-- The lane that it retrains without. -/
  lane : Nat := 0
  heard : Nat := 0
  sent : Nat := 0
  deriving DecidableEq, Repr

/-- What leaves over a chip link: a queue or inbox delivery, a copy, a source read, a signal, a handle's post, bind or query,
a heartbeat, a freeze flit with its job tag; and what is answered to another package: the status of a piece, a read or a PUTQ with the bytes of a read, the
value that a SIGW, HBIND or HQUERY reads, a wake, and the report of a post that could not be counted. -/
inductive LinkMsg where
  | putq (pkg ctx : Nat) (target : Word) (payload : List Byte)
  | copy (pkg ctx : Nat) (p : CopyParams)
  | read (pkg ctx : Nat) (p : CopyParams)
  | sigs (pkg ctx : Nat) (sig v : Word) (add : Bool)
  | sigw (pkg ctx hart : Nat) (sig target : Word) (nowait : Bool)
  | sigDrop (pkg hart : Nat)
  | post (pkg ctx : Nat) (handle : Word)
  | bind (pkg ctx : Nat) (handle : Word) (rec : Nat)
  | query (pkg ctx : Nat) (handle : Word)
  | heartbeat (link : Nat)
  | freeze (link tag : Nat)
  | status (pkg : Nat) (st : BitVec 8) (data : List Byte)
  | value (pkg : Nat) (v : Word)
  | wake (pkg hart : Nat) (sig v : Word)
  | uncounted (pkg ctx : Nat) (handle : Word)
  deriving DecidableEq, Repr

/-- The algorithms that the SPDM responder names (R389). -/
inductive SpdmAlg where
  | ecdsaP384
  | sha384
  deriving DecidableEq, Repr

/-- What the hub answers a fabric manager (R385, R386): an add taken or refused, a release acknowledged, by the first frame of
the extent. -/
inductive FabricReply where
  | added (frame : Nat)
  | refused (frame : Nat)
  | released (frame : Nat)
  deriving DecidableEq, Repr

/-- What the sideband port answers (R389). The version is 0x13 for 1.3; the slot is that of the certificate chain. -/
inductive Reply where
  | control (data : List Byte)
  | error
  | unexpected
  | unsupported
  | version (v : Nat)
  | capabilities
  | algorithms (baseAsym baseHash measurementHash : SpdmAlg)
  | digests (slot : Nat) (hash : SpdmAlg)
  | certificate (slot : Nat)
  | challengeAuth (slot : Nat) (sig : SpdmAlg)
  | measurements (hash : SpdmAlg) (m : List (BitVec 384))
  deriving DecidableEq, Repr

/-- Power and boot state (R390, R392). -/
inductive Power where | on | safelight | off
  deriving DecidableEq, Repr

/-- The clock of a die (R392): steps down in sixteenths, and the sensors, by number, whose reading steps it down, and halves it for
critical heat or for voltage. -/
structure DieClock where
  steps : Nat := 0
  warm : List Nat := []
  half : List Nat := []
  volt : List Nat := []
  deriving DecidableEq, Repr

/-- Which party moves: an event of the package, another core, a scalar store on its way to a hub register (R240), an eviction
from a translation cache (R302), an error arising in a granule of device memory or of a tile's scratchpad (R380), or in a
tile's logic or another of its SRAMs (R379), a store of another host into a shared extent (R251), a DMA read-modify-write
(R301), a start that fails with a reason (R390), a measurement (R388), a recovery image that verifies (R390), a reset
message (R389), a choice among deliveries that nothing orders (R399), a freeze flit that the resident kernel sends for a
partition (R393), or a reading that a sensor takes (R391). -/
inductive Move where
  | event (i : Instr)
  | core (h : Nat)
  | store (pa size : Nat) (v : Word) (byMonitor : Bool)
  | evict (n : Nat)
  | corrupt (g : Nat)
  | corruptTile (t g : Nat)
  | tileError (t : Nat)
  | otherHost (pa : Nat) (data : List Byte)
  | dmaAtomic (port : Nat) (va : Word) (data : List Byte)
  | startFails (reason : Nat)
  | measure (i : Fin 16)
  | recovery
  | resetMessage (b : Byte)
  | turn (n : Nat)
  | floodFreeze (p : Nat)
  | sense (n : Nat)
  deriving DecidableEq, Repr

/-- What the word being executed did. -/
inductive Ctl where
  /-- It ran and the next word follows. -/
  | ran
  /-- It transferred control. -/
  | taken
  /-- It started the strands of a launch (R277). -/
  | started
  /-- It trapped, or froze its strand: cause, TVAL, and the port of a STREAMFAULT. -/
  | trapped (cause : BitVec 8) (tval : Word) (port : Option PortNo)
  /-- It holds at issue and runs again. -/
  | holds
  deriving DecidableEq, Repr

/-- The word being executed: its bits, its partner in a paired bundle, its index, and what it did. -/
structure Issue where
  raw : Nat := 0
  w1 : Bool := false
  paired : Bool := false
  ctl : Ctl := .ran
  /-- The target of a transfer in a paired bundle, which takes effect after the bundle (R33), and whether the transfer
  leaves the loop levels as they are: the skip of a LOOP (R123), and a HALT, whose place is kept. -/
  target : Option Word := none
  keepLoops : Bool := false
  /-- Values of the port transfers this word popped, by port (R78). -/
  popped : List (Nat × VWord) := []
  /-- It is a forwarded word of a consist's follower (R265). -/
  fwd : Option FwdWord := none
  /-- The pair that this word, a JNEXT, has been dealt (R280). -/
  dealt : Option (Word × Word) := none
  deriving DecidableEq, Repr

/-- A key of the key store (R316): the fill of the store it comes from, its slot, and the regenerations of the slot since. -/
structure KeyRef where
  fill : Nat
  slot : Nat
  draw : Nat
  deriving DecidableEq, Repr

/-- Granules of 64 bytes, from lo up to, not including, hi, that stand as they were written under a key (R317); none is no
encryption (R385). -/
structure Seal where
  lo : Nat
  hi : Nat
  key : Option KeyRef
  deriving DecidableEq, Repr

/-- The package. -/
structure State where
  harts : Table Hart := []
  tiles : Table Tile := []
  chans : Table ChanSet := []
  /-- Device memory: HBM and CXL windows by physical address, canonical. -/
  mem : List Host.Cell := []
  /-- Bytes of the hub register frames by physical address, canonical. -/
  io : List Host.Cell := []
  tlb : List TlbEntry := []
  waybill : Table (BitVec 128) := []
  /-- Extent frames whose entry exists, with the shared attribute (R385). -/
  extents : Table Bool := []
  depots : Table DepotRec := []
  ctxs : Table Ctx := []
  queues : Table UQueue := []
  events : List SbEvent := []
  launches : Table Launch := []
  nextLaunch : Nat := 1
  sigs : List SigReg := []
  /-- Registrations of strands here for signals of other packages, each with the descriptor in place of a place's number. -/
  sigsAway : List SigReg := []
  handles : Table HandleSlot := []
  posts : List Post := []
  putqs : List PutqMsg := []
  recs : List FaultRec := []
  linkOut : List LinkMsg := []
  /-- The hub's answers to fabric managers (R385, R386). -/
  fabric : List FabricReply := []
  switches : Table Switch := []
  images : List Image := []
  /-- Memory keys (R316): fills of the key store so far, and the draws of each slot since the last. -/
  keyFill : Nat := 0
  keyGen : Table Nat := []
  /-- Granules of device memory last written under a key that may not be the one of their frame (R317); of several that hold a
  granule the first counts. Every other granule stands under its frame's key. -/
  sealed : List Seal := []
  /-- Bytes of shared extents as another host stored them, which no INVAL has fetched (R251), by physical address. -/
  foreign : Table Byte := []
  /-- The last deadline at which a kernel lost a frame (R313), by 4 × frame + kernel. -/
  revoked : Table Nat := []
  /-- Finalisers that wait while the resident kernel is down (R365, R383): 4,096 × context + record. -/
  finals : List Nat := []
  /-- Corrected errors by unit and 60 s bucket (R376). -/
  buckets : List (ErrUnit × Nat × Nat) := []
  spares : Table Nat := []
  repairs : Table Nat := []
  /-- SRAM rows being copied to a spare, by tile, and HBM rows under repair, by stack and bank (R377). -/
  sparing : List (Nat × Nat) := []
  repairing : List (Nat × Nat × Nat) := []
  worn : List Nat := []
  /-- Physical columns retired, per row of the package (R11, R12), and retirements pending (R379). -/
  retired : Table (List Nat) := []
  pendingRet : List Nat := []
  /-- 64-byte granules of device memory with an uncorrectable error (R380). -/
  bad : List Nat := []
  links : Table Link := []
  clocks : Table DieClock := []
  /-- Readings of the sensors (R391), by their number: 32 × die + sensor, a die's supply sensors from 16 (log 103). -/
  sensors : Table Word := []
  /-- The thresholds of R392, in °C and in percent: warn, critical and trip, each with the reading that ends it, and the two of
  voltage. -/
  limits : List Nat := [95, 92, 105, 100, 115, 100, 5, 8]
  meas : Vector (BitVec 384) 16 := Vector.replicate 16 0
  spdm : Nat := 0
  replies : List Reply := []
  power : Power := .on
  /-- DTIME of the last watchdog beat; DTIME itself counts from the last reset (R376). -/
  beatAt : Nat := 0
  /-- The sensors, by number, that have tripped and whose reading stays above 100 °C: the next start fails (R392). -/
  trips : List Nat := []
  /-- The package clock in half-cycles of 3.0 GHz: DTIME is half of it. -/
  clk : Nat := 0
  cur : Nat := 0
  agenda : List Move := []
  /-- Which of several deliveries that nothing orders comes next, as the agenda has chosen (R399, log 53). -/
  turn : Nat := 0
  issue : Issue := {}
  free : Nat := 0
  deriving DecidableEq, Repr

/-- Why a step can stop the model. -/
inductive Fault where
  /-- step: State.cur names no core, so no party of the machine moves. Safe: the machine has no such core. -/
  | noCore
  /-- step, exec: the package has shut down (R392) and nothing in it runs until a reset. Safe: nothing is claimed of it. -/
  | poweredOff
  deriving DecidableEq, Repr

/-- Why an instruction has no meaning. -/
inductive Refusal where
  /-- exec: the instruction has no meaning in the model yet. Safe: nothing is claimed of it. -/
  | notModelled (mnemonic : String)
  deriving DecidableEq, Repr

/-- A tile before anything happened to it; SCRBASE is the base of its slice window (log 26). -/
def Tile.initial (t : Nat) : Tile := { scrbase := BitVec.ofNat 64 (0x7F0000000000 + t * 0x100000) }

/-- The value of a strand or core before anything happened to it (R277 for strand 0 of a tile; log 4 for privileges of
profile G). -/
def Hart.initial (h : Nat) : Hart :=
  if h < 2048 then
    if h % 4 = 0 then { priv := .system } else { run := .inactive }
  else if h = 2048 + 16 then { priv := .monitor }
  else { priv := .system }

/-- The machine right after reset: the tile monitors at their entry (R277), whose address the frame 0x08F2_0000_0000
holds, the watchdog at 1,000 ms (R382), and the ICORE of HOST and RESIDENT at the lowest core of each (R315). -/
def State.reset : State :=
  { io := [(0x08F50000_0008, 0xE8), (0x08F50000_0009, 0x03), (0x08FE0002_0024, 12)] }

/-- DTIME (R52). -/
def State.dtime (s : State) : Nat := s.clk / 2

end Sys2Proof.Machine
end

