-- ==== Sys2Proof/Machine/Store.lean ====
section
/-! DEFINITION. Reading and writing the pieces of the state: tables, cores, tiles, channels, and byte memories in their
canonical form (addresses strictly rising, no byte listed that equals what an unlisted address reads as, 0: log 3). -/

namespace Sys2Proof.Machine

/-- The answer of a meaning. -/
abbrev Out := Host.Outcome State Fault Refusal

/-! ## Tables -/

/-- The entry of a number, or d where the table lists none. -/
def look {α : Type} (d : α) : Table α → Nat → α
  | [], _ => d
  | (k, v) :: t, n => if k = n then v else look d t n

/-- The table with the entry of a number replaced. -/
def put {α : Type} : Table α → Nat → α → Table α
  | [], n, v => [(n, v)]
  | (k, w) :: t, n, v => if k = n then (n, v) :: t else (k, w) :: put t n v

def State.hart (s : State) (h : Nat) : Hart := look (Hart.initial h) s.harts h
def State.setHart (s : State) (h : Nat) (x : Hart) : State := { s with harts := put s.harts h x }
def State.tile (s : State) (t : Nat) : Tile := look (Tile.initial t) s.tiles t
def State.setTile (s : State) (t : Nat) (x : Tile) : State := { s with tiles := put s.tiles t x }

/-- The channels of tile u, or of the profile G core u − 512. -/
def State.chanSet (s : State) (u : Nat) : ChanSet := look (Vector.replicate 4 {}) s.chans u
def State.chan (s : State) (u : Nat) (c : ChanNo) : Chan := (s.chanSet u)[c]
def State.setChan (s : State) (u : Nat) (c : ChanNo) (x : Chan) : State :=
  { s with chans := put s.chans u ((s.chanSet u).set c x) }

def State.ctx (s : State) (c : Nat) : Ctx := look {} s.ctxs c
def State.setCtx (s : State) (c : Nat) (x : Ctx) : State := { s with ctxs := put s.ctxs c x }
def State.queue (s : State) (q : Nat) : UQueue := look {} s.queues q
def State.setQueue (s : State) (q : Nat) (x : UQueue) : State := { s with queues := put s.queues q x }
/-- Depot record i of context c. -/
def State.depot (s : State) (c i : Nat) : DepotRec := look {} s.depots (c * 4096 + i)
def State.setDepot (s : State) (c i : Nat) (x : DepotRec) : State := { s with depots := put s.depots (c * 4096 + i) x }
def State.launch? (s : State) (n : Nat) : Option Launch := (s.launches.find? (·.1 == n)).map (·.2)
def State.setLaunch (s : State) (n : Nat) (x : Launch) : State := { s with launches := put s.launches n x }
def State.dropLaunch (s : State) (n : Nat) : State := { s with launches := s.launches.filter (·.1 != n) }
def State.link (s : State) (n : Nat) : Link := look {} s.links n
def State.setLink (s : State) (n : Nat) (x : Link) : State := { s with links := put s.links n x }

/-! ## The core that moves -/

/-- Profile T: a strand of a tile. -/
def isT (h : Nat) : Bool := decide (h < Config.strands)
/-- The tile of a strand, and its number in the tile. -/
def tileOf (h : Nat) : Nat := h / 4
def strandOf (h : Nat) : Fin 4 := Fin.ofNat 4 h
/-- The number of a profile G core. -/
def gcoreOf (h : Nat) : Nat := h - Config.strands
/-- The number names a strand or a core. -/
def isCore (h : Nat) : Bool := decide (h < Config.strands + Config.gcores)
/-- The compute die of a tile (R10). -/
def dieOf (t : Nat) : Nat := t / 128

def State.me (s : State) : Hart := s.hart s.cur
def State.setMe (s : State) (x : Hart) : State := s.setHart s.cur x
def State.mapMe (s : State) (f : Hart → Hart) : State := s.setMe (f s.me)
def State.myTile (s : State) : Tile := s.tile (tileOf s.cur)
def State.setMyTile (s : State) (x : Tile) : State := s.setTile (tileOf s.cur) x
def State.mapTile (s : State) (t : Nat) (f : Tile → Tile) : State := s.setTile t (f (s.tile t))
def State.mapHart (s : State) (h : Nat) (f : Hart → Hart) : State := s.setHart h (f (s.hart h))

/-- The next free value of width w (log 9). -/
def State.draw (s : State) (w : Nat) : BitVec w × State := (Config.freeValue w s.free, { s with free := s.free + 1 })

/-! ## Byte memories -/

/-- The byte at an address; an unlisted byte reads 0 (log 3). -/
def memGet : List Host.Cell → Nat → Byte
  | [], _ => 0
  | (k, b) :: m, a => if k = a then b else memGet m a

/-- A write that keeps the canonical form. -/
def memSet : List Host.Cell → Nat → Byte → List Host.Cell
  | [], a, b => if b = 0 then [] else [(a, b)]
  | (k, c) :: m, a, b =>
    if a < k then if b = 0 then (k, c) :: m else (a, b) :: (k, c) :: m
    else if a = k then if b = 0 then m else (a, b) :: m
    else (k, c) :: memSet m a b

/-- n bytes from an address. -/
def memRead (m : List Host.Cell) (a : Nat) : Nat → List Byte
  | 0 => []
  | n + 1 => memGet m a :: memRead m (a + 1) n

/-- Bytes written from an address upward. -/
def memWrite (m : List Host.Cell) (a : Nat) : List Byte → List Host.Cell
  | [] => m
  | b :: bs => memWrite (memSet m a b) (a + 1) bs

/-- Every byte from lo up to, not including, hi reads 0 afterwards. -/
def memClear (m : List Host.Cell) (lo hi : Nat) : List Host.Cell := m.filter (fun c => c.1 < lo || hi ≤ c.1)

/-- The canonical form. -/
def Memory.wf : List Host.Cell → Bool
  | [] => true
  | [(_, b)] => b != 0
  | (a, b) :: (k, c) :: m => b != 0 && decide (a < k) && Memory.wf ((k, c) :: m)

/-- A little-endian number of n bytes (R134). -/
def leRead (m : List Host.Cell) (a n : Nat) : Nat := leNat (memRead m a n)

/-- A hub register frame's bytes as a number, and the hub's own write of them. -/
def State.ioRead (s : State) (pa n : Nat) : Nat := leRead s.io pa n
def State.ioWrite (s : State) (pa n v : Nat) : State := { s with io := memWrite s.io pa (leBytes n v) }
/-- The size of a scratchpad (R16). -/
def scratchSize : Nat := 0xC0000

/-- The type of a physical address (R239). -/
inductive PhysKind where | hbm | io | cxl | absent
  deriving DecidableEq, Repr

def physKind (pa : Nat) : PhysKind :=
  if pa < 0x00C000000000 then .hbm
  else if 0x080000000000 ≤ pa ∧ pa < 0x090000000000 then .io
  else if 0x100000000000 ≤ pa ∧ pa < 0x140000000000 then .cxl
  else .absent

/-- The waybill table's own place in HBM (R307), and the entry of a frame as it stands there; the table's frames are
MONITOR's, OWNED and LOCKED (log 20). -/
def wbTable : Nat := 0x00BFF4000000
def State.wbRaw (s : State) (f : Nat) : BitVec 128 :=
  look (if wbTable / 0x10000 ≤ f then BitVec.ofNat 128 (1 + 2 ^ 34) else 0) s.waybill f

/-- n bytes of the waybill table from an address on: the entry of frame f lies at 16 f. -/
def State.wbBytes (s : State) (pa n : Nat) : List Byte :=
  (List.range n).map (fun i =>
    let a := pa + i - wbTable
    BitVec.ofNat 8 ((s.wbRaw (a / 16)).toNat / 256 ^ (a % 16)))

/-! ## Memory keys (R316, R317, R385) -/

/-- The key under which the memory controllers hold a frame now: none for a frame of a shared extent. -/
def State.frameKey (s : State) (f : Nat) : Option KeyRef :=
  if look false s.extents f then none
  else
    let k := (s.wbRaw f).toNat / 256 % 1024
    some ⟨s.keyFill, k, look 0 s.keyGen k⟩

/-- The data key and the tweak key that a reference names. -/
def KeyRef.key (k : KeyRef) : BitVec 512 := Config.randomKey k.fill k.slot k.draw

/-- Granule number g as it stands under a key, with bits [47:6] of its address as the tweak; and what it reads as through one. -/
def sealUnder (k : Option KeyRef) (g : Nat) (b : BitVec 512) : BitVec 512 :=
  match k with
  | some k => Config.encrypt k.key (BitVec.ofNat 42 g) b
  | none => b
def openUnder (k : Option KeyRef) (g : Nat) (b : BitVec 512) : BitVec 512 :=
  match k with
  | some k => Config.decrypt k.key (BitVec.ofNat 42 g) b
  | none => b

/-- The seal of a granule. -/
def State.sealOf (s : State) (g : Nat) : Option Seal := s.sealed.find? (fun e => decide (e.lo ≤ g) && decide (g < e.hi))

/-- What a sealed granule reads as: through another key than the one it was written under, the decryption of what stands there. -/
def State.sealedGranule (s : State) (g : Nat) (e : Seal) : BitVec 512 :=
  let b := BitVec.ofNat 512 (leRead s.mem (64 * g) 64)
  let k := s.frameKey (g / 1024)
  if e.key = k then b else openUnder k g (sealUnder e.key g b)

/-- The byte of device memory at a physical address. -/
def State.memByte (s : State) (a : Nat) : Byte :=
  match s.sealOf (a / 64) with
  | none => memGet s.mem a
  | some e => (s.sealedGranule (a / 64) e >>> (8 * (a % 64))).setWidth 8

/-- n bytes of device memory from a physical address. -/
def State.memRd (s : State) (pa : Nat) : Nat → List Byte
  | 0 => []
  | n + 1 => s.memByte pa :: s.memRd (pa + 1) n

/-- The granules from lo up to, not including, hi carry no seal any more. -/
def unsealed (lo hi : Nat) (l : List Seal) : List Seal :=
  l.flatMap (fun e => [{ e with hi := Nat.min e.hi lo }, { e with lo := Nat.max e.lo hi }].filter (fun e => decide (e.lo < e.hi)))

/-- The granules that n bytes from an address touch are to be written: what they read as stands under their frame's key. -/
def State.breakSeals (s : State) (pa n : Nat) : State :=
  if s.sealed.isEmpty || n == 0 then s
  else
    let lo := pa / 64
    let hi := (pa + n + 63) / 64
    let gs := (List.range (hi - lo)).map (lo + ·)
    { s with
      mem := gs.foldl (fun m g => match s.sealOf g with
        | some e => memWrite m (64 * g) (leBytes 64 (s.sealedGranule g e).toNat)
        | none => m) s.mem
      sealed := unsealed lo hi s.sealed }

/-- Bytes of device memory written from a physical address. -/
def State.memWr (s : State) (pa : Nat) (bs : List Byte) : State :=
  let s := s.breakSeals pa bs.length
  { s with mem := memWrite s.mem pa bs }

/-- Device memory as the hub reads and writes it by physical address. -/
def State.memNat (s : State) (pa n : Nat) : Nat := leNat (s.memRd pa n)
def State.memPut (s : State) (pa n v : Nat) : State := s.memWr pa (leBytes n v)

/-- The bytes of a frame stand from now on as they were written, under a key. -/
def State.sealFrame (s : State) (f : Nat) (k : Option KeyRef) : State :=
  { s with sealed := s.sealed ++ [⟨1024 * f, 1024 * f + 1024, k⟩] }

/-! ## Places -/

def State.readLoc (s : State) (n : Nat) : Loc → List Byte
  | .scratch t off => memRead (s.tile t).scratch off n
  | .phys pa =>
    if physKind pa = .io then memRead s.io pa n
    else if wbTable ≤ pa ∧ pa < 0x00C000000000 then s.wbBytes pa n
    else s.memRd pa n

/-- The dirty bits of the 4 KiB regions of a byte range of a scratchpad (R336). -/
def dirtyBits (off n : Nat) : BitVec 192 :=
  (List.range ((off + n - 1) / 4096 + 1 - off / 4096)).foldl (fun d i => d ||| (1#192 <<< (off / 4096 + i))) 0

def Tile.write (t : Tile) (off : Nat) (bs : List Byte) : Tile :=
  { t with scratch := memWrite t.scratch off bs, dirty := t.dirty ||| (if bs.isEmpty then 0 else dirtyBits off bs.length) }

/-- Bytes written at a place of a scratchpad or of device memory. The hub's flush of them to a shared extent will stand over
what another host stored there before (R251). -/
def State.writeLoc (s : State) (bs : List Byte) : Loc → State
  | .scratch t off => s.mapTile t (·.write off bs)
  | .phys pa => { s.memWr pa bs with foreign := memClear s.foreign pa (pa + bs.length) }

/-- What other hosts have stored in the bytes from lo up to, not including, hi is fetched (R251, R306). -/
def State.fetchForeign (s : State) (lo hi : Nat) : State :=
  let got := s.foreign.filter (fun c => decide (lo ≤ c.1) && decide (c.1 < hi))
  { got.foldl (fun s c => s.memWr c.1 [c.2]) s with foreign := memClear s.foreign lo hi }

end Sys2Proof.Machine
end

