-- ==== Sys2Proof/Machine/Xlate.lean ====
section
/-! DEFINITION. Translation and the waybill check (R295 to R303, R307 to R310). -/

namespace Sys2Proof.Machine

/-! ## Cause codes (R320) -/

abbrev Cause := BitVec 8
def cILLEGAL : Cause := 0x01
def cEXTENSION : Cause := 0x02
def cBUNDLE : Cause := 0x03
def cALIGN : Cause := 0x04
def cPRIV : Cause := 0x05
def cPAGE : Cause := 0x10
def cPERM : Cause := 0x11
def cWAYBILL : Cause := 0x12
def cRECALLED : Cause := 0x13
def cDATAERR : Cause := 0x14
def cRANGELOCK : Cause := 0x15
def cPHASEVIOL : Cause := 0x16
def cSLICEPERM : Cause := 0x17
def cMISALIGN : Cause := 0x18
def cSTREAMFAULT : Cause := 0x20
def cSTREAMCFG : Cause := 0x21
def cFPE : Cause := 0x30
def cRINGSTARVED : Cause := 0x31
def cSPARSEMETA : Cause := 0x32
def cMATOWN : Cause := 0x33
def cFORMAT : Cause := 0x34
def cTRAPINS : Cause := 0x40
def cBREAK : Cause := 0x41
def cSTEP : Cause := 0x42
def cDOUBLE : Cause := 0x50
def cHANDLEOVER : Cause := 0x51
def cCOUPLE : Cause := 0x60

/-! ## Requesters (R295, R296) -/

/-- Who asks for a translation: kernel (none for a signal-box core), root node, ASN, its own cache and the shared cache
behind it, and whether it runs at USER. -/
structure Requester where
  kn : Option Kernel
  root : Nat
  asn : Nat
  unit : Nat
  shared : Nat
  user : Bool
  deriving DecidableEq, Repr

/-- The root and ASN of an entry of a root frame (R296). -/
def State.rootAt (s : State) (pa : Nat) : Nat × Nat := (s.ioRead pa 8, s.ioRead (pa + 8) 2 % 4096)

/-- The requester of a context's translations, through the cache of a unit. -/
def State.ctxRequester (s : State) (c unit shared : Nat) (user : Bool) : Requester :=
  let r := s.rootAt (0x08FD00000000 + 16 * c)
  ⟨some .resident, r.1, r.2, unit, shared, user⟩

/-- The kernel of a profile G core (R295). -/
def gcoreKn (c : Nat) : Option Kernel :=
  if c < Config.mgmtCore then some (Config.gcoreKernel c) else if c = Config.mgmtCore then some .monitor else none

/-- The requester of a strand or core at a privilege (R295, R296). The management core's root is log 12. -/
def State.requester (s : State) (h : Nat) (p : Priv) : Requester :=
  if isT h then s.ctxRequester (s.tile (tileOf h)).ctx (tileOf h) (1000 + dieOf (tileOf h)) (p == .user)
  else
    let c := gcoreOf h
    let r := if c < Config.mgmtCore then s.rootAt (0x08FF00000000 + c * 0x10000) else (Config.mgmtRoot.toNat, 0)
    ⟨gcoreKn c, r.1, r.2, 2000 + c, 3000, p == .user⟩

/-- The requester of DMA below a root port (R295, R296). -/
def State.portRequester (s : State) (p : Nat) : Requester :=
  let r := s.rootAt (0x08FC00000000 + p * 0x10000)
  ⟨some .host, r.1, r.2, 3000, 3000, false⟩

/-- The context of a strand, or the one bound to a G-core (R288, R294). -/
def State.ctxOf (s : State) (h : Nat) : Option Nat :=
  if isT h then some (s.tile (tileOf h)).ctx
  else
    let b := s.ioRead (0x08F100008000 + 8 * gcoreOf h) 8
    if gcoreOf h < 16 ∧ b / 256 % 2 = 1 ∧ (s.ctx (b % 256)).valid then some (b % 256) else none

/-! ## Waybill entries (R307 to R309) -/

/-- Field [lo + n − 1 : lo] of an entry. -/
def wbField (e : BitVec 128) (lo n : Nat) : Nat := e.toNat / 2 ^ lo % 2 ^ n
/-- The entry with a field replaced. -/
def wbSet (e : BitVec 128) (lo n v : Nat) : BitVec 128 :=
  BitVec.ofNat 128 (e.toNat - wbField e lo n * 2 ^ lo + v % 2 ^ n * 2 ^ lo)
def wbState (e : BitVec 128) : Nat := wbField e 0 3
def wbOwner (e : BitVec 128) : Nat := wbField e 3 2
def wbPeer (e : BitVec 128) : Nat := wbField e 5 2
def wbRevoked (e : BitVec 128) : Bool := wbField e 7 1 == 1
def wbKey (e : BitVec 128) : Nat := wbField e 8 10
def wbTag (e : BitVec 128) : Nat := wbField e 18 16
def wbLocked (e : BitVec 128) : Bool := wbField e 34 1 == 1
def wbDeadline (e : BitVec 128) : Nat := wbField e 64 64

/-- An OWNED, LOCKED entry of a kernel. -/
def wbLockedTo (k : Kernel) : BitVec 128 := BitVec.ofNat 128 (1 + k.code * 8 + 2 ^ 34)

/-- The owner of an I/O frame that the hub decodes (R307), by frame number. -/
def ioOwner (f : Nat) : Option Kernel :=
  if 0x08000000 ≤ f ∧ f < 0x08000400 then some .resident
  else if f = 0x08F00000 ∨ f = 0x08F10000 ∨ f = 0x08F10001 ∨ f = 0x08F20000 ∨ f = 0x08F30000 ∨ f = 0x08F50000
    ∨ f = 0x08F70000 ∨ f = 0x08F80000 ∨ f = 0x08F90000 ∨ f = 0x08FA0000 ∨ f = 0x08FD0000 then some .resident
  else if f = 0x08F40000 ∨ f = 0x08F40001 then some .monitor
  else if 0x08F60000 ≤ f ∧ f < 0x08F60003 then Kernel.ofCode? (f - 0x08F60000)
  else if 0x08FE0000 ≤ f ∧ f < 0x08FE0003 then Kernel.ofCode? (f - 0x08FE0000)
  else if 0x08FB0000 ≤ f ∧ f < 0x08FB0010 then some .resident
  else if 0x08FC0000 ≤ f ∧ f < 0x08FC0004 then some .host
  else if 0x08FF0000 ≤ f ∧ f < 0x08FF0010 then some (Config.gcoreKernel (f - 0x08FF0000))
  else if Config.barFrame f then some .host
  else none

/-- The entry of a frame, none where it has none (R307). -/
def State.wb (s : State) (f : Nat) : Option (BitVec 128) :=
  match physKind (f * 0x10000) with
  | .hbm => some (s.wbRaw f)
  | .io => (ioOwner f).map wbLockedTo
  | .cxl => if s.extents.any (·.1 == f) then some (look 0 s.waybill f) else none
  | .absent => none

def State.setWb (s : State) (f : Nat) (e : BitVec 128) : State := { s with waybill := put s.waybill f e }

/-- The check of R309 at a DTIME: none passes. -/
def checkEntry (e : BitVec 128) (kn : Kernel) (now : Nat) : Option Cause :=
  let o := wbOwner e == kn.code
  let p := wbPeer e == kn.code
  let m := kn == .monitor
  match wbState e with
  | 0 => if m then none else some cWAYBILL
  | 1 => if o || m then none else if p && wbRevoked e then some cRECALLED else some cWAYBILL
  | 2 => if m then none else some cWAYBILL
  | 3 => if o || p || m then none else some cWAYBILL
  | 4 => if o || m then none else if p then (if now < wbDeadline e then none else some cRECALLED) else some cWAYBILL
  | _ => some cWAYBILL

/-- WaybillCheck of R49 on the frame of a physical address; a frame without an entry gives PERM (R300, R307), and a
requester without a kernel WAYBILL (R295). -/
def State.waybillCheck (s : State) (pa : Nat) (kn : Option Kernel) : Option Cause :=
  match s.wb (pa / 0x10000) with
  | none => some cPERM
  | some e => match kn with
    | none => some cWAYBILL
    | some k => checkEntry e k s.dtime

/-! ## Table entries (R298) -/

def pteField (e : Nat) (lo n : Nat) : Nat := e / 2 ^ lo % 2 ^ n

/-- log2 of a leaf's page size. -/
def pageBits (sz : Nat) : Nat := if sz = 0 then 16 else if sz = 1 then 21 else 30

/-- A malformed entry of a level (R298). -/
def pteMalformed (e lvl : Nat) : Bool :=
  let ptr := pteField e 1 1 == 1
  let sz := pteField e 2 2
  pteField e 9 7 != 0 || pteField e 48 16 != 0
    || (ptr && lvl == 2) || (!ptr && lvl == 0)
    || (ptr && pteField e 2 7 != 0)
    || (!ptr && lvl == 1 && sz != 2)
    || (!ptr && lvl == 2 && sz != 0 && sz != 1)
    || (!ptr && pteField e 16 32 * 0x10000 % 2 ^ pageBits sz != 0)

/-- The permissions an access needs (R301): R, W, X of the given bits. -/
def permits (r w x : Bool) : AccKind → Bool
  | .load => r
  | .store => w
  | .atomic => r && w
  | .fetch => x

/-- Index of a virtual address at a level (R297). -/
def vaIndex (va lvl : Nat) : Nat :=
  if lvl = 0 then va / 2 ^ 42 % 64 else if lvl = 1 then va / 2 ^ 29 % 8192 else va / 2 ^ 16 % 8192

/-- The translation of a leaf for an address, after CheckPage (R310): the frame's cause, or the entry to install. -/
def State.checkPage (s : State) (rq : Requester) (k : Kernel) (va e : Nat) : Except Cause TlbEntry :=
  let b := pageBits (pteField e 2 2)
  let base := pteField e 16 32 * 0x10000
  let pa := base + va % 2 ^ b
  let frames := (List.range (2 ^ (b - 16))).map (fun i => base / 0x10000 + i)
  let entry (sz : Nat) (d : Option Nat) : TlbEntry :=
    ⟨rq.unit, k, rq.asn, pteField e 8 1 == 1, va / 2 ^ sz * 2 ^ sz, sz, pa / 2 ^ sz * 2 ^ sz,
      pteField e 4 1 == 1, pteField e 5 1 == 1, pteField e 6 1 == 1, pteField e 7 1 == 1, d⟩
  let deadline (f : Nat) : Option Nat :=
    match s.wb f with
    | some w => if wbState w = 4 then some (wbDeadline w) else none
    | none => none
  if 16 < b ∧ frames.all (fun f => s.waybillCheck (f * 0x10000) (some k) == none) then
    .ok (entry b ((frames.filterMap deadline).min?))
  else
    match s.waybillCheck pa (some k) with
    | some c => .error c
    | none => .ok (entry 16 (deadline (pa / 0x10000)))

/-- The walk of R300 from a node at a level, with the levels that remain. -/
def State.walk (s : State) (rq : Requester) (va : Nat) (k : AccKind) : Nat → Nat → Nat → Except Cause TlbEntry
  | 0, _, _ => .error cPERM
  | n + 1, lvl, node =>
    match s.waybillCheck node rq.kn with
    | some c => .error c
    | none =>
      let e := leNat (s.readLoc 8 (.phys (node + 8 * vaIndex va lvl)))
      if pteField e 0 1 = 0 then .error cPAGE
      else if pteMalformed e lvl then .error cPERM
      else if pteField e 1 1 = 1 then s.walk rq va k n (lvl + 1) (pteField e 16 32 * 0x10000)
      else if !permits (pteField e 4 1 == 1) (pteField e 5 1 == 1) (pteField e 6 1 == 1) k
          || (pteField e 7 1 == 1 && rq.user) then .error cPERM
      else if physKind (pteField e 16 32 * 0x10000 + va % 2 ^ pageBits (pteField e 2 2)) = .absent then .error cPERM
      else match rq.kn with
        | none => .error cWAYBILL
        | some kn => s.checkPage rq kn va e

/-- A cached translation serves a lookup (R303). -/
def TlbEntry.hits (e : TlbEntry) (unit : Nat) (rq : Requester) (va now : Nat) : Bool :=
  e.unit == unit && some e.kn == rq.kn && (e.glob || e.asn == rq.asn) && va / 2 ^ e.sz * 2 ^ e.sz == e.va
    && (match e.deadline with | some d => decide (now < d) | none => true)

/-- The answer of a cached translation; one that lacks the permission faults PERM, as its table entry would (log 13). -/
def TlbEntry.use (e : TlbEntry) (rq : Requester) (va : Nat) (k : AccKind) : Except Cause Nat :=
  if permits e.r e.w e.x k && !(e.k && rq.user) then .ok (e.pa + va % 2 ^ e.sz) else .error cPERM

/-- Where a translation may be cached: its unit, and in a shared cache its set (R302). -/
def TlbEntry.place (e : TlbEntry) : Nat × Nat :=
  (e.unit, if e.unit < 1000 ∨ (2000 ≤ e.unit ∧ e.unit < 3000) then 0 else Config.cacheSet e.va e.asn % 2048)

/-- Translations that one place holds: the 64 of a core's own TLB, the 8 ways of a set of a shared cache (R302). -/
def TlbEntry.ways (e : TlbEntry) : Nat := if e.unit < 1000 ∨ (2000 ≤ e.unit ∧ e.unit < 3000) then 64 else 8

/-- A cache takes in a translation; where its place is full, one of those there goes, which a free value chooses
(log 7). -/
def State.install (s : State) (e : TlbEntry) : State :=
  if (s.tlb.filter (·.unit == e.unit)).length < e.ways ∨ (s.tlb.filter (·.place == e.place)).length < e.ways then
    { s with tlb := e :: s.tlb }
  else
    let mates := s.tlb.filter (·.place == e.place)
    let (v, s) := s.draw 64
    { s with tlb := e :: s.tlb.erase (mates.getD (v.toNat % mates.length) e) }

/-- Translate of R49: the physical address or a cause, and the state with what a fill installed (R300, R302). -/
def State.translate (s : State) (rq : Requester) (va : Word) (k : AccKind) : Except Cause Nat × State :=
  let a := va.toNat
  if 2 ^ 48 ≤ a then (.error cPERM, s)
  else
    match s.tlb.find? (·.hits rq.unit rq a s.dtime) with
    | some e => (e.use rq a k, s)
    | none =>
      match s.tlb.find? (·.hits rq.shared rq a s.dtime) with
      | some e => (e.use rq a k, s.install { e with unit := rq.unit })
      | none =>
        match s.walk rq a k 3 0 rq.root with
        | .error c => (.error c, s)
        | .ok e =>
          let s := s.install { e with unit := rq.shared }
          (e.use rq a k, if rq.unit = rq.shared then s else s.install e)

/-! ## Invalidation (R304, R305, R312) -/

/-- Removes the translations of a kernel that satisfy p from the units that satisfy u. -/
def State.dropTlb (s : State) (u : Nat → Bool) (p : TlbEntry → Bool) : State :=
  { s with tlb := s.tlb.filter (fun e => !(u e.unit && p e)) }

/-- Shoot down: every translation of a kernel, or of every kernel, that maps a frame (R312). -/
def State.shootDown (s : State) (kn : Option Kernel) (f : Nat) : State :=
  s.dropTlb (fun _ => true) (fun e => (match kn with | some k => e.kn == k | none => true)
    && decide (e.pa ≤ f * 0x10000) && decide (f * 0x10000 < e.pa + 2 ^ e.sz))

end Sys2Proof.Machine
end

