-- ==== Sys2Proof/Machine/Events.lean ====
section
/-! DEFINITION. What the hub posts: interrupts of the G-cores (R401), waybill and management events (R315, R375),
fault records of a context (R327 to R329); and what an uncorrectable error does to its frame or tile (R379, R380). -/

namespace Sys2Proof.Machine

/-! ## Interrupts -/

/-- An interrupt made pending on a core: one of the same code that is still pending is not raised again on profile G
(R401); at a privilege above USER it sets the event latch (R323, R343). -/
def Hart.addIrq (x : Hart) (once : Bool) (code : BitVec 8) (v : Word) : Hart :=
  let dup := once && x.irqs.any (·.1 == code)
  { x with irqs := if dup then x.irqs else x.irqs ++ [(code, v)], latch := x.latch || x.priv != .user }

/-- The core the hub interrupts for a kernel (R315, R401). -/
def State.icore (s : State) (k : Kernel) : Nat :=
  if k = .monitor then Config.strands + Config.mgmtCore
  else Config.strands + s.ioRead (0x08FE00000024 + k.code * 0x10000) 1 % 32

def State.interrupt (s : State) (k : Kernel) (code : BitVec 8) (v : Nat) : State :=
  s.mapHart (s.icore k) (·.addIrq true code (BitVec.ofNat 64 v))

/-- Sets the event latch of a strand or core (R129). -/
def State.wakeLatch (s : State) (h : Nat) : State := s.mapHart h (fun x => { x with latch := true })
/-- Sets the event latches of a tile's strands (R129). -/
def State.wakeTile (s : State) (t : Nat) : State :=
  [0, 1, 2, 3].foldl (fun s i => s.wakeLatch (4 * t + i)) s

/-! ## Event rings (R315, R375) -/

/-- A power of two from 2^lo to 2^hi. -/
def isPow2 (n lo hi : Nat) : Bool := (List.range (hi - lo + 1)).any (fun i => n == 2 ^ (lo + i))

/-- A 32-byte record put into the ring a hub frame describes; a full ring, or one without a legal size, drops it and
counts it in LOST. -/
def State.ringPut (s : State) (frame : Nat) (k : Kernel) (code : BitVec 8) (rec : List Byte) : State :=
  let slots := s.ioRead (frame + 8) 4
  let head := s.ioRead (frame + 12) 4
  let tail := s.ioRead (frame + 16) 4
  if !isPow2 slots 4 12 || slots ≤ (tail + 2 ^ 32 - head) % 2 ^ 32 then
    s.ioWrite (frame + 20) 4 (s.ioRead (frame + 20) 4 + 1)
  else
    let s := s.memWr (s.ioRead frame 8 + tail % slots * 32) rec
    (s.ioWrite (frame + 16) 4 (tail + 1)).interrupt k code ((tail + 1) % 2 ^ 32)

/-- A waybill event (R315): kind, frame, other kernel, and the entry's tag and deadline. -/
def State.wbEvent (s : State) (k : Kernel) (kind frame other : Nat) (e : BitVec 128) : State :=
  s.ringPut (0x08FE00000000 + k.code * 0x10000) k 0x01
    (leBytes 8 (frame * 0x10000) ++ leBytes 1 kind ++ leBytes 1 other ++ leBytes 2 (wbTag e) ++ leBytes 4 0
      ++ leBytes 8 (wbDeadline e) ++ leBytes 8 s.dtime)

/-- A management event (R375). -/
def State.mgmtEvent (s : State) (k : Kernel) (kind sub unit addr detail : Nat) : State :=
  s.ringPut (0x08F600000000 + k.code * 0x10000) k 0x02
    (leBytes 1 kind ++ leBytes 1 sub ++ leBytes 2 unit ++ leBytes 4 0 ++ leBytes 8 addr ++ leBytes 8 s.dtime
      ++ leBytes 8 detail)

/-- The same event to several kernels, once each. -/
def State.mgmtEvents (s : State) (ks : List Kernel) (kind sub unit addr detail : Nat) : State :=
  ks.eraseDups.foldl (fun s k => s.mgmtEvent k kind sub unit addr detail) s

/-! ## Uncorrectable errors (R379, R380) -/

/-- The kernels that an event about an entry reaches: OWNER, and PEER under the QUARANTINE row of R312. -/
def wbParties (e : BitVec 128) : List Kernel :=
  let st := wbState e
  (Kernel.ofCode? (wbOwner e)).toList
    ++ (if st = 2 ∨ st = 3 ∨ st = 4 ∨ (st = 1 ∧ wbRevoked e = true) then (Kernel.ofCode? (wbPeer e)).toList else [])

/-- The frame enters QUARANTINE (R312): every translation of it goes, and its parties are told. -/
def State.quarantine (s : State) (f : Nat) : State :=
  match s.wb f with
  | none => s
  | some e =>
    if wbState e = 5 then s
    else
      let s := (s.shootDown none f).setWb f (wbSet e 0 3 5)
      (wbParties e).foldl (fun s k => s.wbEvent k 5 f (if k.code = wbOwner e then wbPeer e else wbOwner e) e) s

/-- An access has found the error of a granule of device memory (R380). -/
def State.foundPhys (s : State) (pa : Nat) : State :=
  let f := pa / 0x10000
  match s.wb f with
  | none => s
  | some e => (s.quarantine f).mgmtEvents (.monitor :: wbParties e) 5 0 0 (pa / 64 * 64) 0

/-- A copy channel stopped by the retirement of its tile: every transfer ends with DATAERR (R379, R211), and no
address has faulted: CERRVA reads 0 (log 116). -/
def Chan.failAll (c : Chan) (cause : Cause) : Chan :=
  match (c.live.map (·.id)).min? with
  | none => c
  | some i =>
    if c.cerrId = 0 ∨ i < c.cerrId then { c with live := [], cerrId := i, cerrSt := cause, cerrVa := 0 }
    else { c with live := [] }

/-- A tile begins its retirement (R379): its strands and engines stop, its copies end with DATAERR, its locks stand, and
a TILE event with SUB 1 is posted. -/
def State.retireTile (s : State) (t : Nat) : State :=
  if (s.tile t).presence = .retired then s
  else
    let s := s.mapTile t (fun x => { x with presence := .retired })
    let s := { s with chans := put s.chans t ((s.chanSet t).map (fun c : Chan => c.failAll cDATAERR)), pendingRet := s.pendingRet ++ [t] }
    let s := s.ioWrite (0x08F7000000C0 + t / 8) 1 (s.ioRead (0x08F7000000C0 + t / 8) 1 ||| 2 ^ (t % 8))
    s.mgmtEvents [.monitor, .resident] 4 1 t 0 0

/-- The granules of 64 bytes that a byte range touches. -/
def granules (a n : Nat) : List Nat :=
  if n = 0 then [] else (List.range ((a + n - 1) / 64 + 1 - a / 64)).map (fun i => a / 64 + i)

/-- The granule lies wholly in the byte range. -/
def coversGranule (a n g : Nat) : Bool := decide (a ≤ 64 * g) && decide (64 * g + 64 ≤ a + n)

/-- Whether an uncorrectable error lies in a granule of a place. -/
def State.badAt (s : State) (l : Loc) (g : Nat) : Bool :=
  match l with
  | .scratch t _ => (s.tile t).bad.contains g
  | .phys _ => s.bad.contains g

/-- The offset or physical address of a place. -/
def Loc.addr : Loc → Nat
  | .scratch _ off => off
  | .phys pa => pa

/-- A read of n bytes finds an error. -/
def State.readBad (s : State) (l : Loc) (n : Nat) : Bool := (granules l.addr n).any (s.badAt l)

/-- The error of granule g of a place is reported: the frame, or the tile, is handled (R379, R380). -/
def State.foundAt (s : State) (l : Loc) (g : Nat) : State :=
  match l with
  | .scratch t _ => s.retireTile t
  | .phys _ => s.foundPhys (64 * g)

/-- Granule g of the memory that a place lies in. -/
def Loc.granule (l : Loc) (g : Nat) : Loc :=
  match l with
  | .scratch t _ => .scratch t (64 * g)
  | .phys _ => .phys (64 * g)

/-- The granules with an error that a read of n bytes finds, and that a write of them would merge into (R380). -/
def State.readFinds (s : State) (l : Loc) (n : Nat) : List Loc := ((granules l.addr n).filter (s.badAt l)).map l.granule
def State.mergeFinds (s : State) (l : Loc) (n : Nat) : List Loc :=
  ((granules l.addr n).filter (fun g => s.badAt l g && !coversGranule l.addr n g)).map l.granule

/-- The errors of granules are reported, each once. -/
def State.report (s : State) (ls : List Loc) : State := ls.eraseDups.foldl (fun s l => s.foundAt l (l.addr / 64)) s

/-- The errors that a read of n bytes has found are reported. -/
def State.found (s : State) (l : Loc) (n : Nat) : State := s.report (s.readFinds l n)

/-- The first granule with an error that a write of n bytes would merge into (R380). -/
def State.mergeBad (s : State) (l : Loc) (n : Nat) : Option Nat :=
  (granules l.addr n).find? (fun g => s.badAt l g && !coversGranule l.addr n g)
def State.writeBad (s : State) (l : Loc) (n : Nat) : Bool := (s.mergeBad l n).isSome

/-- The error marks of the granules that a write covers whole go (R380). -/
def State.heal (s : State) (l : Loc) (n : Nat) : State :=
  let keep := fun g => !coversGranule l.addr n g
  match l with
  | .scratch t _ => if (s.tile t).bad.isEmpty then s else s.mapTile t (fun x => { x with bad := x.bad.filter keep })
  | .phys _ => if s.bad.isEmpty then s else { s with bad := s.bad.filter keep }

/-- A store performed at its home: one that would merge into a bad granule is not performed and reports it (R380). -/
def State.storeLoc (s : State) (bs : List Byte) (l : Loc) : State :=
  match s.mergeBad l bs.length with
  | some _ => s.report (s.mergeFinds l bs.length)
  | none => (s.heal l bs.length).writeLoc bs l

/-! ## Fault records (R327 to R329) -/

/-- The 64 bytes of a record (R328), STATE not yet WRITTEN. -/
def faultRecord (kind unit : Nat) (cause sub : Cause) (tseq : Nat) (pcid tval tstatus : Word) (index : Nat)
    (cnt : List Nat) (now : Nat) : List Byte :=
  leBytes 1 kind ++ leBytes 1 0 ++ leBytes 2 unit ++ leBytes 1 cause.toNat ++ leBytes 1 sub.toNat ++ leBytes 2 tseq
    ++ leBytes 8 pcid.toNat ++ leBytes 8 tval.toNat ++ leBytes 8 tstatus.toNat ++ leBytes 8 index
    ++ leBytes 4 (cnt.getD 0 0) ++ leBytes 4 (cnt.getD 1 0) ++ leBytes 4 (cnt.getD 2 0) ++ leBytes 4 (cnt.getD 3 0)
    ++ leBytes 8 now

/-- How a claim or a write of a slot ends. -/
inductive Claim where
  | ok (v : Word)
  | wait
  | fail (c : Cause)
  deriving DecidableEq, Repr

/-- A physical place of device memory for an access of the device itself: an I/O page ends with PERM (R240), an error in
the bytes read with DATAERR. -/
def State.devicePlace (s : State) (rq : Requester) (va : Word) (k : AccKind) (n : Nat) : Except Cause Nat × State :=
  match s.translate rq va k with
  | (.error c, s) => (.error c, s)
  | (.ok pa, s) =>
    if physKind pa = .io then (.error cPERM, s)
    else if s.readBad (.phys pa) n then (.error cDATAERR, s.found (.phys pa) n)
    else (.ok pa, s)

/-- The next slot of a fault ring, claimed by the increment of TAIL (R327, R329). FRING is read with its low six bits 0. -/
def State.claimSlot (s : State) (rq : Requester) (fring : Word) : Claim × State :=
  match s.devicePlace rq (fring &&& ~~~63#64) .atomic 64 with
  | (.error c, s) => (.fail c, s)
  | (.ok h, s) =>
    let rbase := s.memNat h 8
    let slots := s.memNat (h + 8) 4
    let tail := s.memNat (h + 16) 8
    if !isPow2 slots 4 16 || rbase % 64 != 0 then (.fail cPERM, s)
    else (.ok (BitVec.ofNat 64 (rbase + tail % slots * 64)), s.memPut (h + 16) 8 (tail + 1))

/-- The record written into its slot, once that is FREE: STATE last (R329). -/
def State.writeRecord (s : State) (rq : Requester) (slot : Word) (rec : List Byte) : Claim × State :=
  match s.devicePlace rq slot .atomic 64 with
  | (.error c, s) => (.fail c, s)
  | (.ok pa, s) =>
    if s.memNat (pa + 1) 1 != 0 then (.wait, s)
    else (.ok slot, s.memWr pa (rec.set 1 1))

/-- The requester of the hub in a context. -/
def State.hubIn (s : State) (c : Nat) : Requester := s.ctxRequester c 3000 3000 false

/-- A record of the hub or of an engine is posted: it is written at once if its slot is free, and waits otherwise; a
claim that fails answers its cause, and nothing is posted (R329). -/
def State.postRecord (s : State) (c : Nat) (rec : List Byte) (u : Option EngineUnit) : Option Cause × State :=
  let rq := s.hubIn c
  match s.claimSlot rq (s.ctx c).fring with
  | (.fail cause, s) => (some cause, s)
  | (.wait, s) => (none, s)
  | (.ok slot, s) =>
    match s.writeRecord rq slot rec with
    | (.fail cause, s) => (some cause, s)
    | (.wait, s) => (none, { s with recs := s.recs ++ [⟨c, rec, some slot, u⟩] })
    | (.ok _, s) => (none, s)

/-- An EVENT record for a context (R328): one that cannot be written is dropped (R329). -/
def State.ctxEvent (s : State) (c : Nat) (cause sub : Cause) (pcid tval : Word) (index : Nat) : State :=
  (s.postRecord c (faultRecord 3 0 cause sub 0 pcid tval 0 index [] s.dtime) none).2

end Sys2Proof.Machine
end

