-- ==== Sys2Proof/Machine/Io.lean ====
section
/-! DEFINITION. Scalar accesses to I/O addresses (R240). A store stands at the head of the agenda until the hub performs
it, once, before any other party moves. -/

namespace Sys2Proof.Machine

/-- A scalar store to an I/O address (R240). A store into a device BAR leaves no trace in the package. -/
def State.ioStore (s : State) (pa size : Nat) (v : Word) (byMonitor : Bool) : State :=
  if Config.barFrame (pa / 0x10000) && (ioOwner (pa / 0x10000) == some .host) && decide (pa < 0x08F000000000) then s
  else { s with agenda := .store pa size v byMonitor :: s.agenda }

/-- The bytes of the sensor frame of R391, whose layout is not stated, as the readings, the thresholds and the stores to the frame
give them (log 103). -/
def State.sensorBytes (s : State) (pa : Nat) : Nat → List Byte
  | 0 => []
  | n + 1 => Config.sensorByte s.sensors s.limits (s.io.filter (fun c => c.1 / 0x10000 == 0x08F40001)) (pa % 0x10000) :: s.sensorBytes (pa + 1) n

/-- A scalar load from an I/O address (R240): a hub register's bytes, the sensor frame's, or a free value of a device BAR
(log 11). -/
def State.ioLoad (s : State) (pa size : Nat) : List Byte × State :=
  if pa < 0x08F000000000 ∧ 0x080004000000 ≤ pa then
    let (v, s) := s.draw 64
    (leBytes size v.toNat, s)
  else if pa / 0x10000 = 0x08F40001 then (s.sensorBytes pa size, s)
  else (memRead s.io pa size, s)

end Sys2Proof.Machine
end

