-- ==== Sys2Proof/Machine/Access.lean ====
section
/-! DEFINITION. Memory accesses: the classes of addresses (R133, R238), the checks of a direct access (R135), and the
bytes it reads or writes. -/

namespace Sys2Proof.Machine

/-- The first address of the local alias and of the slice window (R133). -/
def aliasBase : Nat := 0x7E0000000000
def windowBase : Nat := 0x7F0000000000

/-- The class of an address (R133). -/
inductive VaClass where
  | own (off : Nat)
  | slice (t off : Nat)
  | xlated
  deriving DecidableEq, Repr

/-- The class of an address that a tile names. -/
def classify (va : Nat) : VaClass :=
  if aliasBase ≤ va ∧ va < aliasBase + scratchSize then .own (va - aliasBase)
  else if windowBase ≤ va ∧ va < windowBase + 512 * 0x100000 ∧ (va - windowBase) % 0x100000 < scratchSize then
    .slice ((va - windowBase) / 0x100000) ((va - windowBase) % 0x100000)
  else .xlated

/-- An address of the tile's own slice window as its local-alias address (R148, R216). -/
def normVa (t va : Nat) : Nat :=
  match classify va with
  | .slice u off => if u = t then aliasBase + off else va
  | _ => va

/-- The other address of a byte of the tile's own scratchpad: alias and own window name the same bytes (R133, R148). -/
def twinVa (t va : Nat) : Nat :=
  match classify va with
  | .own off => windowBase + t * 0x100000 + off
  | .slice u off => if u = t then aliasBase + off else va
  | .xlated => va

/-- The parts of a byte range between 64 KiB boundaries. -/
def splitPages (va : Nat) : Nat → Nat → List (Nat × Nat)
  | 0, _ => []
  | fuel + 1, n =>
    let room := 0x10000 - va % 0x10000
    if n = 0 then [] else if n ≤ room then [(va, n)]
    else (va, room) :: splitPages (va + room) fuel (n - room)

/-! ## Membership (R12, R252 to R255) -/

/-- Fields of DOMMEM (R253). -/
def domField (d : Word) (lo n : Nat) : Nat := d.toNat / 2 ^ lo % 2 ^ n
/-- A word with a field replaced. -/
def setField (d : Word) (lo n v : Nat) : Word :=
  BitVec.ofNat 64 (d.toNat - domField d lo n * 2 ^ lo + v % 2 ^ n * 2 ^ lo)

def Tile.cpos (t : Tile) : Nat := domField t.dommem 0 4
def Tile.csize (t : Tile) : Nat := domField t.dommem 4 5
def Tile.gid (t : Tile) : Nat := domField t.dommem 9 6
def Tile.gsize (t : Tile) : Nat := domField t.dommem 24 10
def Tile.dsize (t : Tile) : Nat := domField t.dommem 43 10
def Tile.chlvl (t : Tile) : Nat := domField t.dommem 57 2
/-- A communication phase is open at a level on the tile (R253, R255). -/
def Tile.commOpen (t : Tile) (lv : Level) : Bool := domField t.dommem (53 + lv.code) 1 == 1

/-- MODE.SHARED, MODE.RUN and MODE.FIXCODE (R54). -/
def Tile.shared (t : Tile) : Bool := t.mode.getLsbD 0
def Tile.runs (t : Tile) (i : Fin 4) : Bool := t.mode.getLsbD (1 + i.val)
def Tile.fixcode (t : Tile) : Bool := t.mode.getLsbD 5

/-- A logical number without a tile (R12, R381). -/
def State.lost (s : State) (t : Nat) : Bool := s.ioRead (0x08F700000040 + t / 8) 1 / 2 ^ (t % 8) % 2 == 1

/-- PCLASS of a launch record (R273). -/
def recClass (b : List Byte) : Nat := (b.getD 1 0).toNat / 4 % 4

/-- Tile u is one of the tiles placed for the launch of tile t (R135, check 2). A part of a PARALLEL or WEAK launch counts as started
from its placement (log 95). -/
def State.together (s : State) (t u : Nat) : Bool :=
  match (s.tile t).launch with
  | none => false
  | some n => match s.launch? n with
    | none => false
    | some l => if recClass l.bytes = 2 then l.tiles.contains u else (s.tile u).launch == some n

/-- The image that a gang switch keeps of tile u's part of a launch (R334). -/
def State.partImage (s : State) (n : Option Nat) (u : Nat) : Option Image :=
  s.images.find? (fun i => i.tile == u && n.isSome && i.st.launch == n)

/-- Tile u's part of a launch, as an image keeps it or as it stands. -/
def State.partOf (s : State) (n : Option Nat) (u : Nat) : Option Tile :=
  match s.partImage n u with
  | some i => some i.st
  | none => if (s.tile u).launch == n then some (s.tile u) else none

/-- Tile u's part of a launch stands on its tile, which no gang switch has stopped or saved. -/
def State.partHere (s : State) (n : Option Nat) (u : Nat) : Bool :=
  (s.tile u).launch == n && (s.partImage n u).isNone
    && (s.tile u).presence != .stopped && (s.tile u).presence != .absent

/-- Tile u is coupled in the consist of tile t (R252, R267), here or in its image. -/
def State.coupledWith (s : State) (t u : Nat) : Bool :=
  let x := s.tile t
  u == t || (match s.partOf x.launch u with
    | some y => y.csize == x.csize && y.cpos + t == x.cpos + u
    | none => false)

/-- Number of groups that a launch record declares (R273): 0 and 1 mean one group. -/
def recGroups (b : List Byte) : Nat := Nat.max 1 (b.getD 5 0).toNat

/-- The members of a tile at a level, in position order (R252). The group of a domain position p of n is p × groups ÷ n
(R274). -/
def State.members (s : State) (t : Nat) (lv : Level) : List Nat :=
  let x := s.tile t
  match lv with
  | .tile => [t]
  | .consist => ((List.range x.csize).map (fun i => t - x.cpos + i)).filter (s.coupledWith t)
  | .group | .domain =>
    match x.launch.bind s.launch? with
    | none => []
    | some l =>
      let n := l.tiles.length
      if recClass l.bytes ≠ 2 then []
      else if lv = .domain then l.tiles
      else (l.tiles.zipIdx.filter (fun p => p.2 * recGroups l.bytes / n == x.gid)).map (·.1)

/-- The part of tile t's launch that runs on tile u, here or in an image that a gang switch keeps, has not ended. -/
def State.partRuns (s : State) (t u : Nat) : Bool := (s.partOf (s.tile t).launch u).isSome

/-- While no communication phase is open at any level that contains tile u, t may not reach it (R254). -/
def State.phaseBars (s : State) (t u : Nat) : Bool :=
  !([Level.consist, .group, .domain].any (fun lv => (s.members t lv).contains u && (s.tile t).commOpen lv))

/-! ## Range locks (R216, R217) -/

/-- An access of n bytes meets a lock (R135, check 5). -/
def Lock.bars (l : Lock) (va n : Nat) (store : Bool) : Bool :=
  (store || l.write) && decide (va ≤ l.hi) && decide (l.lo < va + n)

/-- An access of n bytes meets a lock of tile t under either address of its bytes. -/
def Tile.lockBars (x : Tile) (t va n : Nat) (store : Bool) : Bool :=
  x.locks.any (fun l => l.bars va n store || l.bars (twinVa t va) n store)

/-! ## Direct accesses (R135) -/

/-- The access stores: a store, or the store part of an atomic. -/
def accStores : AccKind → Bool
  | .store => true
  | .atomic => true
  | _ => false

/-- The slice checks of a part of an access by a strand of tile t (R135, checks 2 and 3). -/
def State.sliceCheck (s : State) (t : Nat) (p : Nat × Nat) : Option Cause :=
  match classify p.1 with
  | .slice u _ =>
    if u = t then none
    else if s.lost u || !s.together t u then some cSLICEPERM
    else if s.phaseBars t u then some cPHASEVIOL else none
  | _ => none

/-- The place of a part of an access, by translation where its class needs it (R135, check 4). -/
def State.placePart (s : State) (rq : Requester) (t : Option Nat) (k : AccKind) (io : Bool) (p : Nat × Nat) :
    Except Cause Loc × State :=
  match t, classify p.1 with
  | some t, .own off => (.ok (.scratch t off), s)
  | some _, .slice u off => (.ok (.scratch u off), s)
  | _, _ =>
    match s.translate rq (BitVec.ofNat 64 p.1) k with
    | (.error c, s) => (.error c, s)
    | (.ok pa, s) => if physKind pa = .io ∧ io = false then (.error cPERM, s) else (.ok (.phys pa), s)

/-- The places of all parts, or the first cause. -/
def State.placeParts (s : State) (rq : Requester) (t : Option Nat) (k : AccKind) (io : Bool) :
    List (Nat × Nat) → Except Cause (List (Loc × Nat)) × State
  | [] => (.ok [], s)
  | p :: ps =>
    match s.placePart rq t k io p with
    | (.error c, s) => (.error c, s)
    | (.ok l, s) =>
      match s.placeParts rq t k io ps with
      | (.error c, s) => (.error c, s)
      | (.ok ls, s) => (.ok ((l, p.2) :: ls), s)

/-- The checks of R135 on an access of the moving core: the places of its bytes, or the first cause that applies. Only
scalar accesses may reach an I/O page (R240). -/
def State.direct (s : State) (va : Word) (n align : Nat) (k : AccKind) (scalar : Bool) :
    Except Cause (List (Loc × Nat)) × State :=
  let a := va.toNat
  let parts := splitPages a 3 n
  let rq := s.requester s.cur s.me.priv
  if a % align != 0 then (.error cMISALIGN, s)
  else if isT s.cur then
    let t := tileOf s.cur
    match parts.findSome? (fun p => if s.sliceCheck t p = some cSLICEPERM then some cSLICEPERM else none) with
    | some c => (.error c, s)
    | none =>
      match parts.findSome? (s.sliceCheck t) with
      | some c => (.error c, s)
      | none =>
        match s.placeParts rq (some t) k scalar parts with
        | (.error c, s) => (.error c, s)
        | (.ok ls, s) =>
          if (s.tile t).lockBars t a n (accStores k) then (.error cRANGELOCK, s) else (.ok ls, s)
  else s.placeParts rq none k scalar parts

/-- The bytes at the places of an access; an I/O place is read once, as a scalar. -/
def State.readParts (s : State) : List (Loc × Nat) → List Byte × State
  | [] => ([], s)
  | (l, n) :: ls =>
    let (b, s) : List Byte × State := match l with
      | .phys pa => if physKind pa = .io then s.ioLoad pa n else (s.readLoc n l, s)
      | .scratch .. => (s.readLoc n l, s)
    let (bs, s) := s.readParts ls
    (b ++ bs, s)

/-- The bytes written to the places of an access; an I/O place takes a scalar store. -/
def State.writeParts (s : State) (bs : List Byte) : List (Loc × Nat) → State
  | [] => s
  | (l, n) :: ls =>
    let s : State := match l with
      | .phys pa =>
        if physKind pa = .io then
          s.ioStore pa n (BitVec.ofNat 64 (leNat (bs.take n))) (!isT s.cur && gcoreKn (gcoreOf s.cur) == some Kernel.monitor)
        else s.storeLoc (bs.take n) l
      | .scratch .. => s.storeLoc (bs.take n) l
    s.writeParts (bs.drop n) ls

/-- The errors of the granules that a write to places would merge into are reported. -/
def State.mergedParts (s : State) (ls : List (Loc × Nat)) : State := s.report (ls.flatMap (fun p => s.mergeFinds p.1 p.2))

/-- The bytes of one store of a strand or core written to its places. One that would merge into a bad granule in any of them is
not performed and reports it (R380). -/
def State.storeParts (s : State) (bs : List Byte) (ls : List (Loc × Nat)) : State :=
  if ls.any (fun p => s.writeBad p.1 p.2) then s.mergedParts ls else s.writeParts bs ls

/-- An atomic at FABRIC scope is performed at the root port: what other hosts have stored in its places is there (R251). -/
def State.fetchParts (s : State) (ls : List (Loc × Nat)) : State :=
  if s.foreign.isEmpty then s
  else ls.foldl (fun s p => match p.1 with
    | .phys pa => s.fetchForeign pa (pa + p.2)
    | .scratch .. => s) s

/-- An uncorrectable error in the places of an access (R380). -/
def State.partsBad (s : State) (ls : List (Loc × Nat)) : Bool := ls.any (fun p => s.readBad p.1 p.2)
/-- The errors of the places are reported. -/
def State.foundParts (s : State) (ls : List (Loc × Nat)) : State := s.report (ls.flatMap (fun p => s.readFinds p.1 p.2))

/-! ## Accesses of engines (R201, R202, R208, R218, R238) -/

/-- The tile (none on profile G) and requester of an engine's owner, at the privilege its operation was issued at. -/
def State.engineRequester (s : State) (u : EngineUnit) (sys : Bool) : Option Nat × Requester :=
  let p : Priv := if sys then .system else .user
  match u with
  | .port h _ => (some (tileOf h), s.requester h p)
  | .chan o _ =>
    if o < 512 then (some o, s.requester (4 * o) p)
    else (none, s.requester (Config.strands + (o - 512)) p)

/-- The kernel of a requester has lost a frame of the places at a deadline after a DTIME (R313). -/
def State.lostSince (s : State) (rq : Requester) (since : Nat) (ls : List (Loc × Nat)) : Bool :=
  ls.any (fun p => match p.1, rq.kn with
    | .phys pa, some k => decide (since < look 0 s.revoked (pa / 0x10000 * 4 + k.code))
    | _, _ => false)

/-- The places of an engine's access, or the cause that stops it. A slice of a tile that is lost or not placed for the
launch gives PERM (log 22); an I/O page gives PERM (R240); a frame lost since the operation was issued gives RECALLED, though
it may have been lent again (R313). -/
def State.enginePlace (s : State) (u : EngineUnit) (sys : Bool) (since : Nat) (va : Word) (n : Nat) (k : AccKind) :
    Except Cause (List (Loc × Nat)) × State :=
  let (t, rq) := s.engineRequester u sys
  let parts := splitPages va.toNat 3 n
  let barred := match t with
    | some t => parts.any (fun p => match classify p.1 with
      | .slice v _ => v != t && (s.lost v || !s.together t v)
      | _ => false)
    | none => false
  if 2 ^ 48 ≤ va.toNat || barred then (.error cPERM, s)
  else match s.placeParts rq t k false parts with
    | (.error c, s) => (.error c, s)
    | (.ok ls, s) => if s.lostSince rq since ls then (.error cRECALLED, s) else (.ok ls, s)

end Sys2Proof.Machine
end

