-- ==== Sys2Proof/Machine/Ops.lean ====
section
/-! DEFINITION. The operations every instruction is written with: registers, landing of results (R51, R57 to R62), the
next word (R32, R33, R123, R124), taking an exception (R321 to R324, R327 to R330, R343) and returning from one (R128,
R325). -/

namespace Sys2Proof.Machine

/-! ## Which machine runs -/

/-- A core that runs: any core, or the management core alone in safelight mode (R390). -/
def State.lit (s : State) : Bool := s.power != .safelight || s.cur == Config.strands + Config.mgmtCore

/-- A word runs on the core that State.cur names, in a package that has not shut down. -/
def onCore (s : State) (k : State → Out) : Out :=
  if s.power = .off then .fault .poweredOff else if !isCore s.cur then .fault .noCore else if s.lit then k s else .next s

/-- A step of what still runs in safelight mode (R390), in a package that has not shut down (R392). -/
def onLit (s : State) (k : State → Out) : Out := if s.power = .off then .fault .poweredOff else k s

/-- A step of the package: nothing else happens in safelight mode. -/
def onPackage (s : State) (k : State → Out) : Out :=
  if s.power = .off then .fault .poweredOff else if s.power = .safelight then .next s else k s

/-! ## Registers (R51) -/

/-- X(n) of R49. -/
def Hart.rx (x : Hart) (n : XReg) : Word := if n.val = 0 then 0 else x.x[n]
/-- K(n) of R49. -/
def Hart.rk (x : Hart) (n : KReg) : Word := if n.val = 0 then BitVec.allOnes 64 else x.k[n]
/-- v0 to v23; a port number reads 0 here: ports are read by popping. -/
def Hart.rv (x : Hart) (n : VReg) : VWord := if h : n.val < 24 then x.v[n.val] else 0
/-- SetX, SetK of R49, and the masked write of a vector register (R151). -/
def Hart.wx (x : Hart) (n : XReg) (v : Word) : Hart := if n.val = 0 then x else { x with x := x.x.set n v }
def Hart.wk (x : Hart) (n : KReg) (v : Word) : Hart := if n.val = 0 then x else { x with k := x.k.set n v }
def Hart.wv (x : Hart) (n : VReg) (v mask : VWord) : Hart :=
  if h : n.val < 24 then { x with v := x.v.set n.val ((x.v[n.val] &&& ~~~mask) ||| (v &&& mask)) } else x

def State.rx (s : State) (n : XReg) : Word := s.me.rx n
def State.rk (s : State) (n : KReg) : Word := s.me.rk n

/-- The register a landing writes. -/
def Hart.put (x : Hart) : Landing → Hart
  | .none => x
  | .x r v => x.wx r v
  | .v r v m => x.wv r v m
  | .k r v => x.wk r v

/-! ## Late faults and flags (R100, R101, R136) -/

/-- Bits [63:16] of TVAL for a fault that names its bundle (R100, R173). -/
def pcHigh (pc : Word) : Word := (pc &&& 0xFFFFFFFFFFFF) <<< 16

def Hart.addLate (x : Hart) (f : LateFault) : Hart := { x with late := x.late ++ [f] }

/-- The FPE of a result with enabled flags (R100). -/
def fpeFault (en : BitVec 5) (org : Origin) (classS : Bool) : LateFault :=
  { cause := cFPE, tval := en.zeroExtend 64 ||| (if classS then 0x20 else 0) ||| pcHigh org.pc, faddr := 0, replay := false, org := org }

/-- A result lands: its register, its flags, and the FPE they schedule. Flags of a variable latency belong to the clock cycle,
those of a fixed one to the advancing cycle (log 109). -/
def Hart.land (x : Hart) (wait : Bool) (l : Landing) (fl en : BitVec 5) (org : Origin) : Hart :=
  let x := { x.put l with
    fflags := x.fflags ||| fl, landed := x.landed ||| (if wait then 0 else fl), landedNow := x.landedNow ||| (if wait then fl else 0) }
  if en = 0 then x else x.addLate (fpeFault en org (!org.vx))

/-- Sticky bits of MSTAT set by a command: bit 0 IOVF, bit 1 TERNBAD (R185). -/
def Tile.stick (t : Tile) (bits : BitVec 2) : Tile :=
  { t with mstat := t.mstat ||| bits.setWidth 64, fresh := t.fresh ||| bits }
/-- TERNBAD set by a result that lands (R91, R185). -/
def Tile.stickTern (t : Tile) : Tile := { t with mstat := t.mstat ||| 2, ternLanded := true }

/-- A result comes to land in a later cycle than another. -/
def InFlight.after (f g : InFlight) : Bool :=
  match f.due, g.due with
  | some a, some b => decide (b < a)
  | none, some _ => true
  | _, none => false

/-- A result put before those that land no earlier, and results in the order in which they land: by their cycle, and of one
cycle as they issued (R58). -/
def insertLanding (f : InFlight) : List InFlight → List InFlight
  | [] => [f]
  | g :: gs => if f.after g then g :: insertLanding f gs else f :: g :: gs
def landingOrder (l : List InFlight) : List InFlight := l.foldr insertLanding []

/-- The results that are due land, in their order; TERNBAD is set with them (R58, R91). -/
def State.landDue (s : State) (h : Nat) (due : InFlight → Bool) : State :=
  let x := s.hart h
  let go := x.flight.filter due
  if go.isEmpty then s
  else
    let x := (landingOrder go).foldl (fun x f => x.land f.wait f.land f.fl f.en f.org) { x with flight := x.flight.filter (fun f => !due f) }
    let s := s.setHart h x
    if go.any (·.tern) then s.mapTile (tileOf h) (·.stickTern) else s

/-- The word at hand, as the origin of its result or fault. -/
def State.origin (s : State) : Origin :=
  { pc := s.me.pc, w1 := s.issue.w1, order := s.me.issued, sys := s.me.priv != .user }

/-- The cycles that latencies of the moving core count: the advancing cycles of its tile (R59), or the cycles of the
profile G clock (R403). -/
def State.now (s : State) : Nat := if isT s.cur then s.myTile.adv else s.clk

/-- A result of the moving core: a latency n makes it visible n cycles later (R58, R403). A variable-latency result is
marked (R60); one that is here has latency 1. -/
def State.resultIn (s : State) (l : Landing) (lat : Nat) (wait : Bool) : State :=
  let f : InFlight := { due := some (s.now + lat), land := l, wait := wait, lat := lat, org := s.origin }
  s.mapMe (fun x => { x with flight := x.flight ++ [f] })
/-- A fixed-latency result. -/
def State.result (s : State) (l : Landing) (lat : Nat) : State := s.resultIn l lat false
/-- A variable-latency result whose value is here. -/
def State.resultV1 (s : State) (l : Landing) : State := s.resultIn l 1 true

/-- A scalar floating result with its flags (R101, R119). -/
def State.resultF (s : State) (l : Landing) (lat : Nat) (fl : BitVec 5) : State :=
  let f : InFlight := { due := some (s.now + lat), land := l, fl := fl, en := fl &&& s.me.ftrap, lat := lat, org := s.origin, float := true }
  s.mapMe (fun x => { x with flight := x.flight ++ [f] })

/-! ## The next word (R32, R33, R64, R123, R124) -/

/-- The loop levels of the current privilege (R124). -/
def Hart.loops (x : Hart) : List LoopLevel := if x.priv = .user then x.loopsU else x.loopsH
def Hart.setLoops (x : Hart) (l : List LoopLevel) : Hart :=
  if x.priv = .user then { x with loopsU := l } else { x with loopsH := l }

/-- The test of R123 after the bundle at pc: the levels that remain, and the back-edge if one is made. -/
def loopTest (pc : Word) : List LoopLevel → List LoopLevel × Option Word
  | [] => ([], none)
  | l :: ls =>
    if l.last ≠ pc then (l :: ls, none)
    else if 1 < l.count.toNat then ({ l with count := l.count - 1 } :: ls, some l.first)
    else loopTest pc ls

/-- A taken transfer pops every level whose body does not hold the target, with the levels inside it (R124). -/
def loopExit (target : Word) (ls : List LoopLevel) : List LoopLevel :=
  (ls.reverse.takeWhile (fun l => decide (l.first.toNat ≤ target.toNat) && decide (target.toNat ≤ l.last.toNat))).reverse

/-- Issue goes on at the start of a bundle, after the bubbles of a taken transfer (R64). -/
def Hart.goto (x : Hart) (pc : Word) (bubble : Nat) : Hart := { x with pc := pc, w1 := false, bubble := bubble }

/-- The end of a bundle without a taken transfer (R123). -/
def Hart.endBundle (x : Hart) : Hart :=
  let r := loopTest x.pc x.loops
  let x := x.setLoops r.1
  match r.2 with
  | some t => x.goto t 2
  | none => x.goto (x.pc + 8) 0

/-- A word has issued: `issued` counts it, and a wait is over. The words of a handler leave a COUPLE that has formed its consist
and is not finished. -/
def Hart.didIssue (x : Hart) : Hart :=
  { x with
    issued := x.issued + 1, since := none, wake := none, wfe := none, wfeOver := false, qcfg := none, cpygo := none
    coupled := x.coupled && x.priv != .user, couple := if x.priv = .user then none else x.couple }

/-- The word at hand is done: on to the next word. Word 0 of a paired bundle leaves the bundle to word 1 (R33). -/
def State.advance (s : State) : State :=
  let x := s.me.didIssue
  if s.issue.paired && !s.issue.w1 then s.setMe x
  else match s.issue.target with
    | some t =>
      let ls := if s.issue.keepLoops then x.loops else loopExit t x.loops
      { s with issue := { s.issue with ctl := .taken } }.setMe ((x.setLoops ls).goto t 2)
    | none => if s.issue.paired || s.issue.w1 then s.setMe x.endBundle else s.setMe { x with w1 := true }

/-- The word at hand transfers: at once, or after its paired bundle (R32, R33). With keep it leaves the loop levels. -/
def State.transferKeep (s : State) (t : Word) (keep : Bool) : State :=
  if s.issue.paired && !s.issue.w1 then
    { s with issue := { s.issue with target := some t, keepLoops := keep } }.mapMe Hart.didIssue
  else
    let x := s.me.didIssue
    let ls := if keep then x.loops else loopExit t x.loops
    { s with issue := { s.issue with ctl := .taken } }.setMe ((x.setLoops ls).goto t 2)

/-- A taken branch or jump (R124). -/
def State.transfer (s : State) (t : Word) : State := s.transferKeep t false

/-- The word at hand holds at issue: nothing changes but the time its wait began. -/
def State.hold (s : State) : State :=
  { s with issue := { s.issue with ctl := .holds } }.mapMe
    (fun x => { x with since := some (x.since.getD s.dtime) })

/-! ## Taking an exception (R318 to R330, R343) -/

/-- What an entry records: interrupt, cause code, TVAL, TSEQ.SEQ, lateness, FADDR, REPLAY with the issue order of the command
that faulted, BPSKIP, and the port of a STREAMFAULT. -/
structure Entry where
  int : Bool := false
  code : Cause
  tval : Word
  seq : BitVec 16 := 0xFFFF
  late : Bool := false
  faddr : BitVec 48 := 0
  replay : Bool := false
  order : Nat := 0
  bpskip : Bool := false
  port : Option PortNo := none
  deriving DecidableEq, Repr

/-- TSTATUS bits (R319). -/
def tsPriv (x : Hart) : Priv := Priv.ofCode (x.tstatus.toNat % 4)
def tsWord (x : Hart) : Bool := x.tstatus.getLsbD 2
def tsReplay (x : Hart) : Bool := x.tstatus.getLsbD 4
def tsRE (x : Hart) : Bool := x.tstatus.getLsbD 5
def tsStart (x : Hart) : Bool := x.tstatus.getLsbD 13

/-- The context's TVEC, or the core's (R52); BASE is bits [47:3]. -/
def State.tvecOf (s : State) (h : Nat) : Word :=
  if isT h then (s.ctx (s.tile (tileOf h)).ctx).tvec else (s.hart h).tvec

/-- Nothing is left to land: the word pushed its result at issue (R79) and raised no flag. -/
def InFlight.empty (f : InFlight) : Bool := decide (f.land = .none) && f.fl == 0 && !f.tern

/-- Step 1 of R321: a fixed-mode tile at USER captures its results in flight in the pipe shadow (R61), counted from the
cycle in which its first unissued word would have issued, after the bubbles of a taken transfer and, in a consist, what else
comes before it; every other strand lets what has a landing time land. What an engine still owes stays in flight. -/
def State.drainFlight (s : State) (h : Nat) : State :=
  let x := s.hart h
  if isT h && !(s.tile (tileOf h)).shared && x.priv == .user then
    let t := (s.tile (tileOf h)).adv + x.bubble + x.rest
    let s := s.landDue h (fun f => match f.due with | some d => decide (d ≤ t) || f.wait | none => false)
    s.mapHart h (fun x => { x with
      shadow := x.shadow ++ x.flight.filterMap (fun f =>
        match f.due with
        | some d => if f.empty then none else some ⟨d - t, f.land, f.fl, f.en, f.tern, f.org, f.float⟩
        | none => none)
      flight := x.flight.filter (·.due.isNone) })
  else
    let s := s.landDue h (fun f => f.due.isSome || f.lat != 0)
    s.mapHart h (fun x => { x with vq := [] })

/-- The trap registers of an entry at the strand's pc (step 2 of R321), taken at a DTIME. -/
def entryRegs (x : Hart) (e : Entry) (now : Nat) : Undelivered :=
  let sh := x.shadow.length
  { tcause := e.code.zeroExtend 64 ||| (if e.int then 0x8000000000000000 else 0)
    tval := e.tval
    tpc := x.pc &&& 0x0000FFFFFFFFFFF8
    tseq := e.seq.zeroExtend 64 ||| ((x.seq - 1).zeroExtend 64 <<< 16)
    tstatus := BitVec.ofNat 64 (x.priv.code + (if x.w1 then 4 else 0) + (if e.late then 8 else 0)
      + (if e.replay then 16 else 0) + (if sh = 0 then 0 else 64 + 128 * (sh % 32)) + (if e.bpskip then 4096 else 0)
      + 65536 * e.faddr.toNat)
    time := now
    port := e.port }

/-- The strand freezes with DOUBLE (R320, R330): the cause that could not be delivered and the cause that stopped it;
a tile posts the event. A RESIDENT core's freeze is seen by the watchdog (R383). -/
def State.freeze (s : State) (h : Nat) (d : Delivery) (cause stop : Cause) (u : Undelivered) : State :=
  let v : Word := cause.zeroExtend 64 ||| (stop.zeroExtend 64 <<< 8)
  let s := s.mapHart h (fun x => { x with run := .frozen d, tcause := cDOUBLE.zeroExtend 64, tval := v, undelivered := some u })
  if isT h then
    s.mgmtEvent .resident 1 0 (tileOf h + 512 * (strandOf h).val) 0 (cDOUBLE.toNat + 2 ^ 32 * (v.toNat % 2 ^ 32))
  else s

/-- The entry's registers are written, with the privilege of the handler and its empty loop levels (R321, steps 2, 3); an
interrupt that is still pending sets the event latch of a strand that enters its handler (R129, R343). -/
def Hart.writeEntry (x : Hart) (u : Undelivered) : Hart :=
  { x with
    tcause := u.tcause, tval := u.tval, tpc := u.tpc, tseq := u.tseq, tstatus := u.tstatus
    priv := if x.priv = .user then .system else x.priv, loopsH := [], undelivered := some u
    latch := x.latch || (x.priv == .user && !x.irqs.isEmpty) }

/-- The record of a trap (R328), with DTIME at the event and the element of a STREAMFAULT (R84). -/
def State.trapRecord (s : State) (h : Nat) (u : Undelivered) : List Byte :=
  let unit := tileOf h + 512 * (strandOf h).val
  let cause := u.tcause.setWidth 8
  match u.port with
  | none => faultRecord 1 unit cause 0 (u.tseq.toNat % 65536) u.tpc u.tval u.tstatus 0 [] u.time
  | some p =>
    let q := (s.hart h).ports[p]
    let c0 := q.cnt[0]; let c1 := q.cnt[1]; let c2 := q.cnt[2]
    faultRecord 1 (unit + 2048 * p.val + (if q.write then 0x4000 else 0)) cause q.fsub (u.tseq.toNat % 65536) u.tpc u.tval
      u.tstatus q.fidx [q.fidx % c0, q.fidx / c0 % c1, q.fidx / (c0 * c1) % c2, q.fidx / (c0 * c1 * c2)] u.time

/-- The handler frame's address (R321 step 4, R327, R343), from the fault-ring header for a strand that was at USER. -/
def State.frameAddr (s : State) (h : Nat) (u : Undelivered) : Except Cause Word × State :=
  let x := s.hart h
  if !isT h || u.tstatus.toNat % 4 != 0 then (.ok ((x.rx 2 &&& ~~~63#64) - 64), s)
  else
    match s.devicePlace (s.requester h .system) ((s.ctx (s.tile (tileOf h)).ctx).fring &&& ~~~63#64) .load 64 with
    | (.error c, s) => (.error c, s)
    | (.ok pa, s) => (.ok (BitVec.ofNat 64 (s.memNat (pa + 24) 8 + (h + 1) * s.memNat (pa + 32) 4) - 64), s)

/-- The frame's 16 bytes: x1 and x2 (R321 step 4). -/
def State.writeFrame (s : State) (h : Nat) (frame : Word) : Option Cause × State :=
  let x := s.hart h
  let parts := splitPages frame.toNat 2 16
  match s.placeParts (s.requester h .system) (if isT h then some (tileOf h) else none) .store false parts with
  | (.error c, s) => (some c, s)
  | (.ok ls, s) =>
    if ls.any (fun p => s.writeBad p.1 p.2) then (some cDATAERR, s.mergedParts ls)
    else (none, s.writeParts (leBytes 8 (x.rx 1).toNat ++ leBytes 8 (x.rx 2).toNat) ls)

/-- A result that a held command owes: it does not come while the handler runs (R326). -/
def State.heldBack (s : State) (h : Nat) (f : InFlight) : Bool :=
  isT h && (s.tile (tileOf h)).held.any (fun c => c.strand == strandOf h && c.org.order == f.org.order)

/-- The handler of a strand or core waits for what is still owed to it: every result lands before the handler begins (R61, R63,
R321). -/
def State.owed (s : State) (h : Nat) : Bool :=
  (s.hart h).flight.any (fun f => f.due.isNone && !s.heldBack h f)

/-- Steps 4 and 5 of R321 for a strand whose registers are written: results that are still owed, then vector, record,
frame, and the handler's first bundle; the record may have to wait for its slot (R329), and a failure freezes the strand
(R330). -/
def State.deliver (s : State) (h : Nat) (u : Undelivered) : State :=
  let cause : Cause := u.tcause.setWidth 8
  let base := s.tvecOf h &&& 0x0000FFFFFFFFFFF8
  if s.owed h then s.mapHart h (fun x => { x with run := .delivering, undelivered := some u })
  else if base = 0 then s.freeze h .vector cause 0 u
  else
    match s.frameAddr h u with
    | (.error c, s) => s.freeze h .record cause c u
    | (.ok frame, s) =>
      let (cl, s) : Claim × State :=
        if !isT h then (.ok 0, s)
        else match u.slot with
          | some slot => (.ok slot, s)
          | none => s.claimSlot (s.requester h .system) (s.ctx (s.tile (tileOf h)).ctx).fring
      match cl with
      | .fail c => s.freeze h .record cause c u
      | .wait => s
      | .ok slot =>
        let u := { u with slot := some slot }
        let (w, s) : Claim × State :=
          if !isT h then (.ok 0, s) else s.writeRecord (s.requester h .system) slot (s.trapRecord h u)
        match w with
        | .fail c => s.freeze h .record cause c u
        | .wait => s.mapHart h (fun x => { x with run := .delivering, undelivered := some u })
        | .ok rec =>
          match s.writeFrame h frame with
          | (some c, s) => s.freeze h .record cause c u
          | (none, s) =>
            s.mapHart h (fun x => { ((x.wx 1 rec).wx 2 frame).goto base 0 with run := .running, undelivered := some u })

/-- The transfer whose ID a CPYGO has taken before it was interrupted goes: its number counts as completed (log 121). -/
def State.dropUnhanded (s : State) (h : Nat) : State :=
  if (s.hart h).cpygo.isNone then s
  else
    let u := if isT h then tileOf h else 512 + gcoreOf h
    { s with chans := put s.chans u ((s.chanSet u).map (fun (c : Chan) =>
      { c with live := c.live.filter (fun x => x.hart != h || x.handed) })) }

/-- One strand or core takes an entry at its pc and word index (R321): the one operation behind every trap, late fault,
interrupt and STEP. A precise trap above USER with TSTATUS.RE = 0 freezes it (R324). -/
def State.enter (s : State) (h : Nat) (e : Entry) : State :=
  let s := (s.dropUnhanded h).drainFlight h
  let x := s.hart h
  let u := entryRegs x e s.dtime
  let s := s.setHart h { x with
    since := none, wake := none, wfe := none, wfeOver := false, qcfg := none, cpygo := none
    coupling := none, ereting := false, couple := if x.coupled then x.couple else none
    mtcPend := none, bubble := 0 }
  if x.priv ≠ .user ∧ tsRE x = false then s.freeze h .nested e.code cDOUBLE u
  else (s.mapHart h (·.writeEntry u)).deliver h u

/-- The cycles in which a follower issues nothing before the first word of its line, with what the leader still has to wait
when the line holds none (R265, R266); the leader waits what it waits. -/
def State.lineAhead (s : State) (t wait : Nat) : Nat :=
  let x := s.tile t
  let n := (x.line.takeWhile (·.isNone)).length
  if x.cpos = 0 then wait else if n = x.line.length then n + wait else n

/-- A consist at USER is about to stop: what each member has before it, beyond the bubbles that all are in, is kept with it
(R266). A consist that has stopped already keeps what it has. -/
def State.markRest (s : State) (t : Nat) : State :=
  let ms := (s.members t .consist).filter (fun m => (s.hart (4 * m)).run == .running)
  if (s.tile t).csize ≤ 1 ∨ ms.any (fun m => (s.hart (4 * m)).rest != 0 || (s.hart (4 * m)).priv != .user) = true then s
  else
    let low := ((ms.map (fun m => (s.hart (4 * m)).bubble)).min?).getD 0
    let wait := (s.hart (4 * (t - (s.tile t).cpos))).bubble - low
    ms.foldl (fun u m => u.mapHart (4 * m) (fun x => { x with bubble := low, rest := s.lineAhead m wait })) s

/-- Tile t has stopped its consist: every other member that runs records COUPLE subcode 8 with its position (R266, R330). A member
whose HALT has issued ends by itself (log 39). -/
def State.stopMates (s : State) (t : Nat) : State :=
  ((s.members t .consist).filter (· != t)).foldl (fun s u =>
    if (s.hart (4 * u)).run = .running ∧ (s.hart (4 * u)).priv = .user ∧ (s.tile u).presence = .present then
      s.enter (4 * u) { code := cCOUPLE, tval := BitVec.ofNat 64 (8 + 256 * (s.tile t).cpos) }
    else s) s

/-- The commands of strand i that a fault has kept, that of the command with an issue order, are held from the time the fault is
taken (R326). -/
def Tile.holdParked (x : Tile) (i : Fin 4) (order : Nat) : Tile :=
  if x.held.isEmpty then x
  else { x with held := x.held.map (fun c => if c.strand = i ∧ c.parked = some order then { c with parked := none } else c) }

/-- An entry is taken; on a strand of a consist it stops the consist (R266). -/
def State.takeEntry (s : State) (h : Nat) (e : Entry) : State :=
  let s := if isT h && e.replay then s.mapTile (tileOf h) (·.holdParked (strandOf h) e.order) else s
  if isT h ∧ 1 < (s.tile (tileOf h)).csize ∧ (s.hart h).priv = .user then
    ((s.markRest (tileOf h)).enter h e).stopMates (tileOf h)
  else s.enter h e

/-- A precise trap of the word at hand, with the port of a STREAMFAULT: TPC is its bundle and WORD its index. -/
def State.trapPort (s : State) (cause : Cause) (tval : Word) (port : Option PortNo) : State :=
  let s := s.mapMe (fun x => { x with w1 := s.issue.w1 && !s.issue.paired })
  { s with issue := { s.issue with ctl := .trapped cause tval port } }.takeEntry s.cur { code := cause, tval := tval, port := port }

/-- Trap of R49. -/
def State.trap (s : State) (cause : Cause) (tval : Word) : State := s.trapPort cause tval none

/-- TVAL of a decode trap: the word and its index (R29). -/
def State.wordTval (s : State) : Word := BitVec.ofNat 64 (s.issue.raw % 2 ^ 32 + (if s.issue.w1 then 2 ^ 32 else 0))

/-- ILLEGAL and PRIV of the word at hand (R29, R48, R53). -/
def State.illegal (s : State) : State := s.trap cILLEGAL s.wordTval
def State.privTrap (s : State) : State := s.trap cPRIV s.wordTval

/-! ## Availability of a word (R48) -/

/-- A word of profile T: ILLEGAL on profile G. -/
def onT (s : State) (k : State → Out) : Out := onCore s fun s => if isT s.cur then k s else .next s.illegal
/-- A word of profile G: ILLEGAL on profile T. -/
def onG (s : State) (k : State → Out) : Out := onCore s fun s => if isT s.cur then .next s.illegal else k s
/-- A word that needs HANDLER or KERNEL. -/
def above (s : State) (k : State → Out) : Out := if s.me.priv = .user then .next s.privTrap else k s

/-! ## Returning from an exception (R128, R325) -/

/-- Sequence number b is a or comes after it, within half the range (R171). -/
def seqFrom (a b : BitVec 16) : Bool := !(b - a).msb

/-- The held commands that re-enter the sequencer: with REPLAY, those numbered from TSEQ.SEQ up to TSEQ.LAST, in issue
order (R325, R326). -/
def replayed (x : Hart) (strand : Fin 4) (held : List Command) : List Command :=
  if tsReplay x then
    let first := x.tseq.setWidth 16
    let last : BitVec 16 := (x.tseq >>> 16).setWidth 16
    held.filter (fun c => c.strand == strand && c.parked.isNone && seqFrom first c.org.seq && seqFrom c.org.seq last)
  else []

/-- The push that an MDRAIN owes goes, and later pushes take its place (R326). -/
def PortCtx.dropOwed (q : PortCtx) (order : Nat) : PortCtx :=
  match q.pend.find? (·.owed == some order) with
  | none => q
  | some u => { q with
      pend := (q.pend.filter (·.owed != some order)).map (fun w => if u.t < w.t then { w with t := w.t - 1 } else w)
      pos := q.pos - 1 }

/-- What dropped commands owe a strand goes with them (R326): results in flight and pushes. -/
def Hart.dropOwed (x : Hart) (cs : List Command) : Hart :=
  cs.foldl (fun x c => { x with
    flight := x.flight.filter (fun f => f.org.order != c.org.order)
    ports := x.ports.map (·.dropOwed c.org.order) }) x

/-- The strand of a tile, or a core, returns to its program (R325): the sequencer first, then the place, the privilege,
the loop levels of the handler, and the pipe shadow, which lands again counted from the first resumed word, n advancing
cycles from now and what it kept before it in a consist (R62, R266). On a fixed-mode tile the handler's own results have
landed by then (log 85). A follower that has issued its HALT waits in it again (log 39); a COUPLE that has formed the consist is
finished if the strand returns to it. -/
def State.eretReturn (s : State) (h n : Nat) : State :=
  let t := tileOf h
  let s := if isT h && !(s.tile t).shared then s.landDue h (·.due.isSome) else s
  let x := s.hart h
  let held := (s.tile t).held.filter (fun c => c.strand == strandOf h && c.parked.isNone)
  let back := replayed x (strandOf h) held
  let x := x.dropOwed (held.filter (fun c => !back.any (·.org.order == c.org.order)))
  let s := if isT h then
      s.mapTile t (fun y => { y with
        cmds := y.cmds ++ back.map (fun c => { c with started := none, starved := none, issuedAt := s.dtime })
        held := y.held.filter (fun c => c.strand != strandOf h || c.parked.isSome) })
    else s
  let p := tsPriv x
  let y := s.tile t
  let e := y.adv + n + x.rest
  let again := if isT h ∧ y.shared = false ∧ p = .user then
      x.shadow.map (fun f => ({ due := some (e + f.rem), land := f.land, fl := f.fl, en := f.en, tern := f.tern, org := f.org, float := f.float } : InFlight))
    else []
  s.setHart h { x with
    bpskip := x.tstatus.getLsbD 12
    pc := x.tpc &&& 0x0000FFFFFFFFFFF8, w1 := tsWord x, priv := p, loopsH := [], undelivered := none
    bubble := if y.cpos = 0 then 2 + x.rest else 2
    rest := if p = .user then 0 else x.rest
    run := if x.halts ∧ p = .user then .halting else x.run, halts := x.halts && p != .user
    coupled := x.coupled && (p != .user || x.couple.map (·.1) == some (x.tpc &&& 0x0000FFFFFFFFFFF8))
    flight := x.flight ++ again
    shadow := if isT h ∧ y.shared = false ∧ p = .user then [] else x.shadow
    issued := x.issued + 1, ereting := false, since := none }

end Sys2Proof.Machine
end

