-- ==== Sys2Proof/Machine/Stream.lean ====
section
/-! DEFINITION. The stream engines behind the ports (R76, R80, R84, R192 to R202, R218) and the range locks they and
the copies hold (R216, R217). -/

namespace Sys2Proof.Machine

def State.port (s : State) (h : Nat) (p : PortNo) : PortCtx := (s.hart h).ports[p]
def State.setPort (s : State) (h : Nat) (p : PortNo) (q : PortCtx) : State :=
  s.mapHart h (fun x => { x with ports := x.ports.set p q })

/-! ## Patterns (R192 to R194) -/

namespace PortCtx

/-- E of R193. -/
def elems (q : PortCtx) : Nat := q.cnt[0] * q.cnt[1] * q.cnt[2] * q.cnt[3]
/-- The counters of element e. -/
def ctr0 (q : PortCtx) (e : Nat) : Nat := e % q.cnt[0]
def ctr1 (q : PortCtx) (e : Nat) : Nat := e / q.cnt[0] % q.cnt[1]
def ctr2 (q : PortCtx) (e : Nat) : Nat := e / (q.cnt[0] * q.cnt[1]) % q.cnt[2]
def ctr3 (q : PortCtx) (e : Nat) : Nat := e / (q.cnt[0] * q.cnt[1] * q.cnt[2])
/-- a(e) of R193. -/
def addr (q : PortCtx) (e : Nat) : Word :=
  q.base + BitVec.ofNat 64 (q.ctr0 e) * q.stride[0] + BitVec.ofNat 64 (q.ctr1 e) * q.stride[1]
    + BitVec.ofNat 64 (q.ctr2 e) * q.stride[2] + BitVec.ofNat 64 (q.ctr3 e) * q.stride[3]
/-- The address of an index of an INDEXED pattern: it wraps as the addresses of R193 do (R194; log 124). -/
def indexed (q : PortCtx) (i : Int) : Word := q.base + BitVec.ofInt 64 (i * q.stride[0].toInt)
/-- Transfers of the pattern. -/
def transfers (q : PortCtx) : Nat := (q.elems + q.l - 1) / q.l
/-- Byte j of a fill element (R192). -/
def fillByte (q : PortCtx) (j : Nat) : Byte := (q.fill >>> (8 * (j % 4))).setWidth 8
def fillElem (q : PortCtx) : List Byte := (List.range q.w).map q.fillByte
/-- The bounds of an INDEXED pattern. -/
def imin (q : PortCtx) : Int := q.stride[2].toInt
def imax (q : PortCtx) : Int := q.stride[3].toInt
/-- Transfer t lies wholly or partly beyond the last element (R80). -/
def beyond (q : PortCtx) (t : Nat) : Bool := decide (q.elems < (t + 1) * q.l)

/-- A pop can be made: the next transfer is staged, or lies beyond the pattern (R79, R80). -/
def ready (q : PortCtx) : Bool := !q.stage.isEmpty || decide (q.transfers ≤ q.pos)
/-- The bytes of the next pop, and its value (R76, R80). -/
def nextBytes (q : PortCtx) : List Byte := q.stage.headD ((List.range q.l).flatMap (fun _ => q.fillElem))
def next (q : PortCtx) : VWord := BitVec.ofNat 2048 (leNat q.nextBytes)
/-- The port after a pop. -/
def popped (q : PortCtx) : PortCtx :=
  { q with stage := q.stage.drop 1, pos := q.pos + 1, eos := q.eos || q.beyond q.pos }

/-- The signed elements of a string of bytes. -/
def signedElems (q : PortCtx) (b : List Byte) : List Int :=
  (List.range (b.length / q.w)).map (fun j => (BitVec.ofNat (8 * q.w) (leNat ((b.drop (j * q.w)).take q.w))).toInt)
/-- An index port still is what QCFG of the port that it serves has found (R194). -/
def indexes (q : PortCtx) : Bool := q.cfg && !q.write && q.mode == .affine

end PortCtx

/-- An unconfigured port, as QCLOSE leaves it (R198). -/
def PortCtx.closed : PortCtx := {}

/-! ## Range locks (R216, R217) -/

/-- The lowest and highest byte that steps of a stride can reach from an address, by count and stride. -/
def boxLow (base : Int) (cs : List (Nat × Word)) : Int :=
  cs.foldl (fun a c => a + min 0 (((c.1 : Int) - 1) * c.2.toInt)) base
def boxHigh (base : Int) (cs : List (Nat × Word)) : Int :=
  cs.foldl (fun a c => a + max 0 (((c.1 : Int) - 1) * c.2.toInt)) base

/-- A box clipped to the address range, in the local alias when it lies in the tile's own slice window (R216). -/
def boxOf (t : Nat) (lo hi : Int) : Nat × Nat :=
  let l := lo.toNat
  let h := hi.toNat
  if classify l = .slice t (l - windowBase - t * 0x100000) ∧ classify h = .slice t (h - windowBase - t * 0x100000) then
    (normVa t l, normVa t h)
  else (l, h)

/-- The box of a port's pattern on tile t. -/
def PortCtx.box (q : PortCtx) (t : Nat) : Nat × Nat :=
  let b : Int := q.base.toNat
  if q.mode = .indexed then
    let x := q.imin * q.stride[0].toInt
    let y := q.imax * q.stride[0].toInt
    boxOf t (b + min x y) (b + max x y + q.w - 1)
  else
    let cs := [(q.cnt[0], q.stride[0]), (q.cnt[1], q.stride[1]), (q.cnt[2], q.stride[2]), (q.cnt[3], q.stride[3])]
    boxOf t (boxLow b cs) (boxHigh b cs + q.w - 1)

/-- A box reaches the slice window of another tile that no open communication phase covers (R197, R206, R254). -/
def State.boxBarred (s : State) (t : Nat) (b : Nat × Nat) : Bool :=
  (List.range Config.tiles).any (fun u =>
    u != t && decide (b.1 < windowBase + u * 0x100000 + scratchSize) && decide (windowBase + u * 0x100000 ≤ b.2)
      && s.phaseBars t u)

/-- Locks of an owner go (R217). -/
def Tile.unlock (x : Tile) (u : EngineUnit) (id : Nat) : Tile :=
  { x with locks := x.locks.filter (fun l => !(l.owner == u && l.id == id)) }

/-! ## Engine faults (R84, R218, R328) -/

/-- UNIT of a fault record (R328); a profile G core's channel has the core's number as its tile (log 24). -/
def unitField (u : EngineUnit) (write : Bool) : Nat :=
  match u with
  | .port h p => tileOf h + 512 * (strandOf h).val + 2048 * p.val + (if write then 0x4000 else 0)
  | .chan o c => o % 512 + 2048 * c.val + (if write then 0x4000 else 0) + 0x8000

/-- The context whose fault ring takes an engine's records. -/
def State.engineCtx (s : State) (u : EngineUnit) : Option Nat :=
  match u with
  | .port h _ => s.ctxOf h
  | .chan o _ => if o < 512 then some (s.tile o).ctx else s.ctxOf (Config.strands + (o - 512))

/-- The engine record of a PAGE fault (R218, R328): none when it is posted, else the cause that refuses it. -/
def State.engineRecord (s : State) (u : EngineUnit) (write : Bool) (id index : Nat) (cnt : List Nat) (va : Word) :
    Option Cause × State :=
  match s.engineCtx u with
  | none => (some cPAGE, s)
  | some c =>
    s.postRecord c (faultRecord 2 (unitField u write) cPAGE cPAGE 0 (BitVec.ofNat 64 id) va 0 index cnt s.dtime) (some u)

/-- The port is faulted at an element (R84). -/
def State.faultPort (s : State) (h : Nat) (p : PortNo) (e : Nat) (va : Word) (c : Cause) : State :=
  s.setPort h p { s.port h p with fault := true, wait := false, fidx := e, fva := va, fsub := c }

/-- An engine access of a port has met a cause: PAGE posts its record and waits for the replay; a record that cannot be
written, and every other cause, faults the port (R84, R218, R329). -/
def State.portCause (s : State) (h : Nat) (p : PortNo) (e : Nat) (va : Word) (c : Cause) : State :=
  if c = cPAGE then
    let q := s.port h p
    match s.engineRecord (.port h p) q.write 0 e [q.ctr0 e, q.ctr1 e, q.ctr2 e, q.ctr3 e] va with
    | (some _, s) => s.faultPort h p e va cPAGE
    | (none, s) => s.setPort h p { s.port h p with wait := true, fidx := e, fva := va }
  else s.faultPort h p e va c

/-! ## Fetching elements (R193, R194, R201) -/

/-- The bytes an engine reads at an address, or the cause that stops it. -/
def State.engineRead (s : State) (u : EngineUnit) (sys : Bool) (since : Nat) (va : Word) (n : Nat) :
    Except Cause (List Byte) × State :=
  match s.enginePlace u sys since va n .load with
  | (.error c, s) => (.error c, s)
  | (.ok ls, s) =>
    if s.partsBad ls then (.error cDATAERR, s.foundParts ls)
    else
      let (b, s) := s.readParts ls
      (.ok b, s)

/-- What the fetch of an element gives: its bytes, or a cause with the address it names. -/
inductive Fetched where
  | bytes (b : List Byte)
  | cause (c : Cause) (va : Word)
  deriving DecidableEq, Repr

/-- Bytes at an address for the engine of a port. -/
def State.fetchAt (s : State) (h : Nat) (p : PortNo) (q : PortCtx) (va : Word) : Fetched × State :=
  match s.engineRead (.port h p) q.sys q.since va q.w with
  | (.error c, s) => (.cause c va, s)
  | (.ok b, s) => (.bytes b, s)

/-- Element e of an affine pattern. -/
def State.fetchAffine (s : State) (h : Nat) (p : PortNo) (q : PortCtx) (e : Nat) : Fetched × State :=
  if q.elems ≤ e then (.bytes q.fillElem, s) else s.fetchAt h p q (q.addr e)

/-- Element e of the port's pattern: for INDEXED at the index that its engine has taken for it (R194). -/
def State.fetchElem (s : State) (h : Nat) (p : PortNo) (e : Nat) : Fetched × State :=
  let q := s.port h p
  if q.mode ≠ .indexed then s.fetchAffine h p q e
  else if q.elems ≤ e then (.bytes q.fillElem, s)
  else
    let i := q.taken.getD (e - q.done * q.l) 0
    if i < q.imin ∨ q.imax < i then (.cause cPERM (q.indexed i), s) else s.fetchAt h p q (q.indexed i)

/-- n elements from element e on, or none where one met a cause. -/
def State.fetchElems (s : State) (h : Nat) (p : PortNo) : Nat → Nat → Option (List Byte) × State
  | 0, _ => (some [], s)
  | n + 1, e =>
    match s.fetchElem h p e with
    | (.cause c va, s) => (none, s.portCause h p e va c)
    | (.bytes b, s) =>
      match s.fetchElems h p n (e + 1) with
      | (none, s) => (none, s)
      | (some bs, s) => (some (b ++ bs), s)

/-! ## The engines' steps -/

/-- The engines of a tile run: the tile is there, and DBGCTL.FREEZE is 0 (R342). -/
def Tile.enginesOn (x : Tile) : Bool := x.presence == .present && !x.dbgctl.getLsbD 0

/-- Bytes of a tile's port staging (R15). -/
def stagingSize : Nat := 0x8000
/-- Transfers of a port in staging; a push that an MDRAIN still owes is not there yet (R186). -/
def PortCtx.staged (q : PortCtx) : Nat := q.stage.length + (q.pend.filter (·.owed.isNone)).length
/-- Bytes of staging that a port takes: a configured port keeps two transfers reserved (R197). -/
def PortCtx.stagingUse (q : PortCtx) : Nat := if q.cfg then q.w * q.l * Nat.max 2 q.staged else 0
/-- Bytes of staging that the ports of a tile take. -/
def State.stagingUse (s : State) (t : Nat) : Nat :=
  ((List.range 4).flatMap (fun i => (s.hart (4 * t + i)).ports.toList.map PortCtx.stagingUse)).sum
/-- Staging has room for one more transfer of a port of strand h: two are reserved for it, and up to DEPTH may stand there as
the pool allows (R79, R197). A port set up while the pool is full has its two all the same (log 113). -/
def State.stagingRoom (s : State) (h : Nat) (q : PortCtx) : Bool :=
  decide (q.staged < 2) || (decide (q.staged < q.depth) && decide (s.stagingUse (tileOf h) + q.w * q.l ≤ stagingSize))

/-- A read stream has a transfer to fetch. -/
def PortCtx.canFetch (q : PortCtx) : Bool :=
  q.cfg && !q.write && q.mode != .ring && !q.fault && !q.wait && decide (q.done < q.transfers)

/-- The elements that an index port gives next by a pop, or none where its engine has staged none; the place of the element of an
INDEXED port that waits for them, should the index port be faulted there (log 25). What it gives after it has been closed or set
up anew is its fill, or its new pattern (log 112). -/
def State.takeIndex (s : State) (h : Nat) (p : PortNo) : Bool × State :=
  let q := s.port h p
  let ip : PortNo := Fin.ofNat 8 q.aux
  let iq := s.port h ip
  let e := q.done * q.l + q.taken.length
  let give := fun (s : State) (b : List Byte) =>
    (true, s.setPort h p { s.port h p with taken := q.taken ++ iq.signedElems b })
  if !iq.indexes then give s iq.fillElem
  else if iq.ready then give (s.setPort h ip iq.popped) iq.nextBytes
  else if !iq.fault then (false, s)
  else if iq.fidx ≤ iq.pos * iq.l + iq.part then (false, s.faultPort h p e iq.fva iq.fsub)
  else match s.fetchAffine h ip iq (iq.pos * iq.l + iq.part) with
    | (.cause c va, s) => (false, s.faultPort h p e va c)
    | (.bytes b, s) => give (s.setPort h ip { iq with part := iq.part + 1 }) b

/-- n indices are taken for the next transfer of an INDEXED port, in at most k pops: true when they are there. -/
def State.takeIndices (s : State) (h : Nat) (p : PortNo) (n : Nat) : Nat → Bool × State
  | 0 => (decide (n ≤ (s.port h p).taken.length), s)
  | k + 1 =>
    if n ≤ (s.port h p).taken.length then (true, s)
    else match s.takeIndex h p with
      | (false, s) => (false, s)
      | (true, s) => s.takeIndices h p n k

/-- What a port needs for its next transfer is there: its indices, for an INDEXED one (R194). -/
def State.prepared (s : State) (h : Nat) (p : PortNo) : Bool × State :=
  let q := s.port h p
  let n := Nat.min q.l (q.elems - q.done * q.l)
  if q.mode = .indexed then s.takeIndices h p n n else (true, s)

/-- One transfer of a read stream is fetched into staging. -/
def State.fetchTransfer (s : State) (h : Nat) (p : PortNo) : State :=
  match s.prepared h p with
  | (false, s) => s
  | (true, s) =>
    let q := s.port h p
    match s.fetchElems h p q.l (q.done * q.l) with
    | (none, s) => s
    | (some b, s) =>
      let q := s.port h p
      s.setPort h p { q with stage := q.stage ++ [b], done := q.done + 1, taken := q.taken.drop q.l }

/-- STREAM_FETCH of a port. -/
def State.streamFetch (s : State) (h : Nat) (p : PortNo) : State :=
  if (s.tile (tileOf h)).enginesOn && (s.port h p).canFetch && s.stagingRoom h (s.port h p) then s.fetchTransfer h p else s

/-- Byte i of the places of an access. -/
def locAt : List (Loc × Nat) → Nat → Option Loc
  | [], _ => none
  | (l, n) :: ls, i =>
    if i < n then some (match l with
      | .scratch t off => .scratch t (off + i)
      | .phys pa => .phys (pa + i))
    else locAt ls (i - n)

/-- The runs of kept bytes of an element: offset and length, from byte i on. -/
def keptRuns (i : Nat) : List Bool → List (Nat × Nat)
  | [] => []
  | false :: ks => keptRuns (i + 1) ks
  | true :: ks => match keptRuns (i + 1) ks with
    | (o, n) :: rs => if o = i + 1 then (i, n + 1) :: rs else (i, 1) :: (o, n) :: rs
    | [] => [(i, 1)]

/-- The part of the places of an element from byte o on, n bytes of it. -/
def placesFrom (ls : List (Loc × Nat)) (o n : Nat) : List (Loc × Nat) :=
  match ls with
  | [] => []
  | (l, m) :: ls =>
    if m ≤ o then placesFrom ls (o - m) n
    else if n = 0 then []
    else
      let k := Nat.min n (m - o)
      ((match l with
        | .scratch t off => .scratch t (off + o)
        | .phys pa => .phys (pa + o)), k) :: placesFrom ls 0 (n - k)

/-- The kept bytes of a push written at the places of an element (R81). -/
def State.writeKept (s : State) (ls : List (Loc × Nat)) (bs : List Byte) (keep : List Bool) : State :=
  (keptRuns 0 keep).foldl (fun s r => s.writeParts ((bs.drop r.1).take r.2) (placesFrom ls r.1 r.2)) s

/-- The bad granules that the kept bytes of an element would merge into: the element writes a part of them only (R81, R380). -/
def State.keptBad (s : State) (ls : List (Loc × Nat)) (keep : List Bool) : List Loc :=
  let cells := (List.range keep.length).filterMap (fun i => if keep.getD i false then locAt ls i else none)
  (cells.filter (fun l =>
    let g := l.addr / 64
    s.badAt l g && decide ((cells.filter (fun m => m.addr / 64 == g && s.badAt m g)).length < 64))).map (fun l => l.granule (l.addr / 64))

/-- An element that has passed its checks is to be performed later: the bytes of different elements may be performed in any
order (R202, R399; log 53). -/
def State.deferElem (s : State) (h : Nat) (p : PortNo) (d : Deferred) : State :=
  let q := s.port h p
  s.setPort h p { q with later := q.later ++ [d] }

/-- The n-th of the elements that wait is performed, counted round. Where a granule that it writes in part has gone bad meanwhile, it
faults the port, and neither it nor a later element is written (R81, R84, R380). -/
def State.performLater (s : State) (h : Nat) (p : PortNo) (n : Nat) : State :=
  let q := s.port h p
  match q.later[n % q.later.length]? with
  | none => s
  | some d =>
    match s.keptBad d.places d.keep with
    | l :: ls =>
      let s := (s.report (l :: ls)).setPort h p { q with
        later := q.later.filter (fun x => decide (x.e < d.e)), done := Nat.min q.done d.t }
      if q.fault then s else s.faultPort h p d.e (q.addr d.e) cDATAERR
    | [] => (s.setPort h p { q with later := q.later.eraseIdx (n % q.later.length) }).writeKept d.places d.bytes d.keep

/-- All elements that wait are performed. -/
def State.performAll (s : State) (h : Nat) (p : PortNo) : State :=
  (s.port h p).later.foldl (fun s _ => s.performLater h p 0) s

/-- Some element of some port waits. -/
def State.elemsWait (s : State) : Bool := s.harts.any (fun e => e.2.ports.toList.any (fun q => !q.later.isEmpty))

/-- Every element of every port that waits is performed: no translation that one was checked under goes before it (R305, R313). -/
def State.performElems (s : State) : State :=
  if s.elemsWait then
    (s.harts.map (·.1)).eraseDups.foldl (fun s h =>
      ([0, 1, 2, 3, 4, 5, 6, 7] : List PortNo).foldl (fun s p => s.performAll h p) s) s
  else s

/-- The transfers that are written whole (R200). -/
def PortCtx.written (q : PortCtx) : Nat :=
  q.done - (((q.later.map (·.t)).eraseDups).filter (fun t => decide (t < q.done))).length

/-- The elements of a push from element j on: what is left of it after a cause, none once all are written or wait to be
performed, as an odd State.turn has it (R202). -/
def State.writeElems (s : State) (h : Nat) (p : PortNo) (u : Push) : Nat → Nat → Bool × State
  | 0, _ => (true, s)
  | n + 1, j =>
    let q := s.port h p
    let e := u.t * q.l + j
    let bs := (u.bytes.drop (j * q.w)).take q.w
    let keep := (u.keep.drop (j * q.w)).take q.w
    if q.elems ≤ e || !keep.any (·) then s.writeElems h p u n (j + 1)
    else match s.enginePlace (.port h p) q.sys q.since (q.addr e) q.w .store with
      | (.error c, s) =>
        let q := s.port h p
        let rest : Push := { u with keep := List.replicate (j * q.w) false ++ u.keep.drop (j * q.w) }
        let s := s.setPort h p { q with pend := rest :: q.pend.drop 1 }
        (false, s.portCause h p e (q.addr e) c)
      | (.ok ls, s) =>
        match s.keptBad ls keep with
        | l :: bad => (false, (s.report (l :: bad)).portCause h p e (q.addr e) cDATAERR)
        | [] =>
          (if s.turn % 2 = 1 then s.deferElem h p ⟨u.t, e, ls, bs, keep⟩ else s.writeKept ls bs keep).writeElems h p u n (j + 1)

/-- A write stream has a push that it can write: the oldest, once no MDRAIN owes it (R186). -/
def PortCtx.canWrite (q : PortCtx) : Bool :=
  q.cfg && q.write && !q.fault && !q.wait && (match q.pend with | u :: _ => u.owed.isNone | [] => false)

/-- The oldest push is written. -/
def State.writeTransfer (s : State) (h : Nat) (p : PortNo) : State :=
  match (s.port h p).pend with
  | [] => s
  | u :: _ =>
    match s.writeElems h p u (s.port h p).l 0 with
    | (false, s) => s
    | (true, s) =>
      let q := s.port h p
      s.setPort h p { q with pend := q.pend.drop 1, done := q.done + 1 }

/-- STREAM_WRITE of a port: a push, or an element that waits. -/
def State.streamWrite (s : State) (h : Nat) (p : PortNo) : State :=
  let q := s.port h p
  if !(s.tile (tileOf h)).enginesOn then s
  else if q.canWrite && (s.turn % 2 == 1 || q.later.isEmpty) then s.writeTransfer h p
  else s.performLater h p (s.turn / 2)

/-- All pushes that can be written are, in order, at most n of them, and with them what waits. -/
def State.writeAll (s : State) (h : Nat) (p : PortNo) : Nat → State
  | 0 => s.performAll h p
  | n + 1 => if (s.port h p).canWrite then (s.writeTransfer h p).writeAll h p n else s.performAll h p

/-! ## RING streams (R195) -/

/-- COUNT, BASE and TBYTES of a ring's configuration (R175). -/
def Ring.base (r : Ring) : Nat := r.cfg.toNat % 2 ^ 20
def Ring.count (r : Ring) : Nat := r.cfg.toNat / 2 ^ 28 % 2 ^ 8
def Ring.tbytes (r : Ring) : Nat := r.cfg.toNat / 2 ^ 36 % 2 ^ 16
def Ring.scale (r : Ring) : Bool := r.cfg.getLsbD 52
/-- Tiles in the ring. -/
def Ring.held (r : Ring) : Nat := (r.tail - r.head).toNat
/-- The scratchpad offset of a tile number. -/
def Ring.slot (r : Ring) (t : BitVec 32) : Nat := r.base + t.toNat % r.count * r.tbytes

/-- Bytes of the string of a RING pattern from position x on: its elements, then fill. -/
def State.ringBytes (s : State) (h : Nat) (p : PortNo) (x n : Nat) : Option (List Byte) × State :=
  let q := s.port h p
  let first := x / q.w
  let last := min (q.elems - 1) ((x + n - 1) / q.w)
  let fillFrom := q.elems * q.w
  if fillFrom ≤ x then (some ((List.range n).map (fun i => q.fillByte ((x + i) % q.w))), s)
  else
    match s.fetchElems h p (last + 1 - first) first with
    | (none, s) => (none, s)
    | (some b, s) =>
      let body := (b.drop (x - first * q.w)).take n
      (some (body ++ (List.range (n - body.length)).map (fun i => q.fillByte ((x + body.length + i) % q.w))), s)

/-- A RING stream can advance its ring by a tile. -/
def State.canAdvance (s : State) (h : Nat) (p : PortNo) : Bool :=
  let q := s.port h p
  let r := (s.tile (tileOf h)).rings[Fin.ofNat 8 q.aux]
  q.cfg && q.mode == .ring && !q.fault && !q.wait && !q.eos && r.cfg != 0 && decide (r.held < r.count)

/-- RING_TILE_ADVANCE of a port: the tile's bytes, then tail, then EOS after the last. -/
def State.ringAdvance (s : State) (h : Nat) (p : PortNo) : State :=
  let t := tileOf h
  if !((s.tile t).enginesOn && s.canAdvance h p) then s
  else
    let q := s.port h p
    let i : RingNo := Fin.ofNat 8 q.aux
    let r := (s.tile t).rings[i]
    match s.ringBytes h p (q.done * r.tbytes) r.tbytes with
    | (none, s) => s
    | (some b, s) =>
      let s := s.storeLoc b (.scratch t (r.slot r.tail))
      let s := s.mapTile t (fun x => { x with rings := x.rings.set i { x.rings[i] with tail := x.rings[i].tail + 1 } })
      let q := s.port h p
      s.setPort h p { q with done := q.done + 1, eos := decide (q.elems * q.w ≤ (q.done + 1) * r.tbytes) }

end Sys2Proof.Machine
end

