-- ==== Sys2Proof/Machine/Operands.lean ====
section
/-! DEFINITION. Operands: immediates, offsets and branch targets (R35, R39), vector elements and lane masks (R49, R150,
R151), ports named as registers (R76 to R81), and the issue of a class V word (R69, R152, R171). -/

namespace Sys2Proof.Machine

/-! ## Immediates and targets -/

/-- SignExt(imm13, 13), SignExt(imm18, 18). -/
def imm13 (i : BitVec 13) : Word := i.signExtend 64
def imm18 (i : BitVec 18) : Word := i.signExtend 64
/-- The S.B and S.J targets of the bundle at hand (R39). -/
def State.target13 (s : State) (o : BitVec 13) : Word := s.me.pc + imm13 o * 8
def State.target18 (s : State) (o : BitVec 18) : Word := s.me.pc + imm18 o * 8
/-- The address of an M.L operand (R134). -/
def State.base13 (s : State) (a : XReg) (o : BitVec 13) : Word := s.rx a + imm13 o

/-! ## Elements (R51, R87, R150) -/

/-- Element i of width ew of a vector value. -/
def elem (v : VWord) (ew i : Nat) : Nat := v.toNat / 2 ^ (ew * i) % 2 ^ ew
/-- The element as a signed integer. -/
def signedOf (ew x : Nat) : Int := if x < 2 ^ (ew - 1) then (x : Int) else (x : Int) - (2 ^ ew : Nat)
def elemS (v : VWord) (ew i : Nat) : Int := signedOf ew (elem v ew i)
/-- An integer modulo 2^ew. -/
def wrapTo (ew : Nat) (i : Int) : Nat := (i % (2 ^ ew : Nat)).toNat

/-- Elements packed upward from bit 0. -/
def packElems (ew : Nat) (l : List Nat) : VWord := BitVec.ofNat 2048 (l.foldr (fun x t => x % 2 ^ ew + t * 2 ^ ew) 0)

/-- Active of R49. -/
def active (m : Word) (ew i : Nat) : Bool := if ew = 64 then m.getLsbD (2 * i) else m.getLsbD (i % 64)

/-- The bits of the active ones of n elements. -/
def activeMask (m : Word) (ew n : Nat) : VWord :=
  packElems ew ((List.range n).map (fun i => if active m ew i then 2 ^ ew - 1 else 0))

/-- What a class V word computes for a vector destination: the value, the bits it writes, its flags, and TERNBAD. -/
structure Lanes where
  val : VWord
  mask : VWord
  fl : BitVec 5 := 0
  tern : Bool := false
  deriving DecidableEq, Repr

/-- Element by element under a mask, without flags (R151). -/
def laneMap (m : Word) (ew n : Nat) (f : Nat → Nat) : Lanes :=
  { val := packElems ew ((List.range n).map (fun i => if active m ew i then f i else 0)), mask := activeMask m ew n }

/-- Element by element under a mask, with the flags of the active elements (R151). -/
def laneMapF (m : Word) (ew n : Nat) (f : Nat → Nat × BitVec 5) : Lanes :=
  let r := (List.range n).map (fun i => if active m ew i then f i else (0, 0))
  { val := packElems ew (r.map (·.1)), mask := activeMask m ew n, fl := r.foldl (fun t x => t ||| x.2) 0 }

/-! ## Ports named as registers (R76 to R81) -/

/-- The port a vector field names, if it names one (R36). -/
def portOf (r : VReg) : Option PortNo := if r.val < 24 then none else some (Fin.ofNat 8 (r.val - 24))

/-- The port serves a configured INDEXED port of the strand as its index stream. -/
def Hart.isIndex (x : Hart) (p : PortNo) : Bool :=
  x.ports.toList.any (fun q => q.cfg && q.mode == .indexed && q.aux == p.val)

/-- Why a port may not be read, written (R77): the subcode of R196. -/
def Hart.badRead (x : Hart) (p : PortNo) : Option Nat :=
  let q := x.ports[p]
  if !q.cfg then some 1 else if q.write then some 2 else if q.mode = .ring then some 3
  else if x.isIndex p then some 4 else none
def Hart.badWrite (x : Hart) (p : PortNo) : Option Nat :=
  let q := x.ports[p]
  if !q.cfg then some 1 else if !q.write then some 2 else none

/-- STREAMCFG with its subcode and port or channel (R196). -/
def State.streamCfg (s : State) (sub n : Nat) : State := s.trap cSTREAMCFG (BitVec.ofNat 64 (sub + 256 * n))

/-- A push to a port of strand h can be made: staging has room, or the push lies beyond the pattern (R79, R80); and no drain
owes the port a push, unless the push is a drain's own, which takes its place and no staging yet (R186, log 88). -/
def State.room (s : State) (h : Nat) (q : PortCtx) (drain : Bool) : Bool :=
  drain || (q.pend.all (·.owed.isNone) && (s.stagingRoom h q || decide (q.transfers ≤ q.pos)))

/-- The port after a push of a value whose mask bits are kept (R76, R80, R81); an MDRAIN's push is owed to it (R186). -/
def PortCtx.pushed (q : PortCtx) (v mask : VWord) (owed : Option Nat) : PortCtx :=
  let n := q.w * q.l
  let u : Push :=
    { t := q.pos, bytes := leBytes n v.toNat, keep := (leBytes n mask.toNat).map (· != 0), owed := owed }
  { q with
    pend := if q.transfers ≤ q.pos then q.pend else q.pend ++ [u]
    pos := q.pos + 1, eos := q.eos || q.beyond q.pos }

/-- A word reads ports, each of which it pops once, and may push one: the checks, faults and holds of R77, R79 and R84,
then the pops; k gets the value of each vector field. busy is what else holds the word; drain says that it is an MDRAIN. -/
def State.withPorts (s : State) (reads : List VReg) (dst : Option VReg) (busy drain : Bool)
    (k : State → (VReg → VWord) → Out) : Out :=
  let x := s.me
  let rs := (reads.filterMap portOf).eraseDups
  let w := dst.bind portOf
  match rs.findSome? (fun p => (x.badRead p).map (fun c => (c, p))) with
  | some (c, p) => .next (s.streamCfg c p.val)
  | none =>
    match w.bind (fun p => (x.badWrite p).map (fun c => (c, p))) with
    | some (c, p) => .next (s.streamCfg c p.val)
    | none =>
      match rs.find? (fun p => x.ports[p].fault && !x.ports[p].ready) with
      | some p => .next (s.trapPort cSTREAMFAULT x.ports[p].fva (some p))
      | none =>
        match w.filter (fun p => x.ports[p].fault) with
        | some p => .next (s.trapPort cSTREAMFAULT x.ports[p].fva (some p))
        | none =>
          if busy || rs.any (fun p => !x.ports[p].ready) || w.any (fun p => !s.room s.cur x.ports[p] drain) then .next s.hold
          else
            let vals := rs.map (fun p => (p.val, x.ports[p].next))
            let s := rs.foldl (fun s p => s.setPort s.cur p (s.port s.cur p).popped) s
            k s (fun r => match portOf r with
              | some p => look 0 vals p.val
              | none => x.rv r)

/-- A push of the moving strand. -/
def State.push (s : State) (p : PortNo) (v mask : VWord) (owed : Option Nat) : State :=
  s.setPort s.cur p ((s.port s.cur p).pushed v mask owed)

/-! ## Issue of V and X words (R69, R171) -/

/-- The entry of the dispatch ring that the next V or X word takes still belongs to an instruction that has neither
retired nor completed (R171). -/
def State.dispatchBusy (s : State) : Bool :=
  let x := s.me
  match x.ring.find? (fun d => d.seq.toNat % 64 == x.seq.toNat % 64) with
  | none => false
  | some d =>
    x.flight.any (·.org.order == d.order) || x.shadow.any (·.org.order == d.order)
      || (s.myTile.cmds ++ s.myTile.held).any (fun c => c.strand == strandOf s.cur && c.org.order == d.order)

/-- The word takes the next sequence number and its ring entry (R171). -/
def State.dispatch (s : State) : State :=
  s.mapMe (fun x => { x with
    seq := x.seq + 1
    ring := ⟨x.seq, x.pc, s.issue.w1, x.issued⟩ :: x.ring.filter (fun d => d.seq.toNat % 64 != x.seq.toNat % 64) })

/-- The origin of a V or X word that has been dispatched. -/
def State.originV (s : State) : Origin := { s.origin with seq := s.me.seq - 1, vx := true }

/-- The result of a class V word, which may be a floating one. In shared mode it lands the latency after its last part is bound (R73). -/
def State.resultV (s : State) (l : Landing) (fl : BitVec 5) (tern whole : Bool) (lat : Nat) (float : Bool) : State :=
  let org := s.originV
  let en := fl &&& s.me.ftrap
  let t := s.myTile
  let f : InFlight :=
    { due := if t.shared then none else some (t.adv + lat), land := l, fl := fl, en := en, tern := tern, lat := lat, org := org, float := float }
  s.mapMe (fun x => { x with
    flight := x.flight ++ [f]
    vq := if t.shared then x.vq ++ [⟨org.order, 0, whole⟩] else x.vq })

/-- A class V word: ports, the vector queue (R69), the dispatch ring (R171), then its result with flags and TERNBAD. The
value and mask of a vector destination that names a port are pushed (R76). float says that it is a floating instruction (R101;
log 123). -/
def vectorWord (s : State) (reads : List VReg) (dst : Option VReg) (whole : Bool) (lat : Nat)
    (f : Hart → (VReg → VWord) → Landing × Lanes) (float : Bool := false) : Out :=
  onT s fun s => s.withPorts reads dst (decide (4 ≤ s.me.vq.length) || s.dispatchBusy) false fun s v =>
    let (l, r) := f s.me v
    let s := s.dispatch
    let s : State := match dst.bind portOf with
      | some p => s.push p r.val r.mask none
      | none => s
    .next (s.resultV l r.fl r.tern whole lat float).advance

/-- A class V word with a vector destination. -/
def vecToVec (s : State) (d : VReg) (reads : List VReg) (whole : Bool) (lat : Nat)
    (f : Hart → (VReg → VWord) → Lanes) (float : Bool := false) : Out :=
  vectorWord s reads (some d) whole lat (fun x v =>
    let r := f x v
    (if d.val < 24 then .v d r.val r.mask else .none, r)) float

/-- A class V word with a mask destination; it has no flags. -/
def vecToMask (s : State) (d : KReg) (reads : List VReg) (lat : Nat) (f : Hart → (VReg → VWord) → Word) (float : Bool := false) : Out :=
  vectorWord s reads none false lat (fun x v => (.k d (f x v), ⟨0, 0, 0, false⟩)) float

/-- A class V word with an x destination; it has no flags. -/
def vecToX (s : State) (d : XReg) (reads : List VReg) (whole : Bool) (lat : Nat) (f : Hart → (VReg → VWord) → Word) : Out :=
  vectorWord s reads none whole lat fun x v => (.x d (f x v), ⟨0, 0, 0, false⟩)

end Sys2Proof.Machine
end

