-- ==== Sys2Proof/Machine/ScalarInt.lean ====
section
/-! DEFINITION. Class S integer instructions (R114 to R118). -/

namespace Sys2Proof.Machine

/-- A scalar result at a latency, and the next word. -/
def scalar (s : State) (d : XReg) (v : Word) (lat : Nat) : Out := .next (s.result (.x d v) lat).advance

/-- Count of leading zero bits. -/
def clz64 (v : Word) : Nat := if v = 0 then 64 else 63 - Nat.log2 v.toNat
/-- Count of trailing zero bits. -/
def ctz64 (v : Word) : Nat := ((List.range 64).find? (fun i => v.getLsbD i)).getD 64
/-- Count of one bits. -/
def popc64 (v : Word) : Nat := ((List.range 64).filter (fun i => v.getLsbD i)).length
/-- The low six bits, as a shift amount. -/
def amount (v : Word) : Nat := v.toNat % 64
/-- 1 or 0. -/
def bit (b : Bool) : Word := if b then 1 else 0

/-- ADD (R114). -/
def execAdd (d a b : XReg) (s : State) : Out :=
  onCore s fun s => scalar s d (s.rx a + s.rx b) 1

/-- SUB (R114). -/
def execSub (d a b : XReg) (s : State) : Out :=
  onCore s fun s => scalar s d (s.rx a - s.rx b) 1

/-- AND (R114). -/
def execAnd (d a b : XReg) (s : State) : Out :=
  onCore s fun s => scalar s d (s.rx a &&& s.rx b) 1

/-- OR (R114). -/
def execOr (d a b : XReg) (s : State) : Out :=
  onCore s fun s => scalar s d (s.rx a ||| s.rx b) 1

/-- XOR (R114). -/
def execXor (d a b : XReg) (s : State) : Out :=
  onCore s fun s => scalar s d (s.rx a ^^^ s.rx b) 1

/-- ANDN (R114). -/
def execAndn (d a b : XReg) (s : State) : Out :=
  onCore s fun s => scalar s d (s.rx a &&& ~~~s.rx b) 1

/-- SLL (R114). -/
def execSll (d a b : XReg) (s : State) : Out :=
  onCore s fun s => scalar s d (s.rx a <<< amount (s.rx b)) 1

/-- SRL (R114). -/
def execSrl (d a b : XReg) (s : State) : Out :=
  onCore s fun s => scalar s d (s.rx a >>> amount (s.rx b)) 1

/-- SRA (R114). -/
def execSra (d a b : XReg) (s : State) : Out :=
  onCore s fun s => scalar s d ((s.rx a).sshiftRight (amount (s.rx b))) 1

/-- ROL (R114). -/
def execRol (d a b : XReg) (s : State) : Out :=
  onCore s fun s => scalar s d ((s.rx a).rotateLeft (amount (s.rx b))) 1

/-- SLT (R114). -/
def execSlt (d a b : XReg) (s : State) : Out :=
  onCore s fun s => scalar s d (bit ((s.rx a).slt (s.rx b))) 1

/-- SLTU (R114). -/
def execSltu (d a b : XReg) (s : State) : Out :=
  onCore s fun s => scalar s d (bit ((s.rx a).ult (s.rx b))) 1

/-- MIN (R114). -/
def execMin (d a b : XReg) (s : State) : Out :=
  onCore s fun s => scalar s d (if (s.rx a).slt (s.rx b) then s.rx a else s.rx b) 1

/-- MAX (R114). -/
def execMax (d a b : XReg) (s : State) : Out :=
  onCore s fun s => scalar s d (if (s.rx a).slt (s.rx b) then s.rx b else s.rx a) 1

/-- MINU (R114). -/
def execMinu (d a b : XReg) (s : State) : Out :=
  onCore s fun s => scalar s d (if (s.rx a).ult (s.rx b) then s.rx a else s.rx b) 1

/-- MAXU (R114). -/
def execMaxu (d a b : XReg) (s : State) : Out :=
  onCore s fun s => scalar s d (if (s.rx a).ult (s.rx b) then s.rx b else s.rx a) 1

/-- CLZ (R114). -/
def execClz (d a : XReg) (s : State) : Out :=
  onCore s fun s => scalar s d (BitVec.ofNat 64 (clz64 (s.rx a))) 1

/-- CTZ (R114). -/
def execCtz (d a : XReg) (s : State) : Out :=
  onCore s fun s => scalar s d (BitVec.ofNat 64 (ctz64 (s.rx a))) 1

/-- POPC (R114). -/
def execPopc (d a : XReg) (s : State) : Out :=
  onCore s fun s => scalar s d (BitVec.ofNat 64 (popc64 (s.rx a))) 1

/-- SEL (R114). -/
def execSel (d a b : XReg) (s : State) : Out :=
  onCore s fun s => scalar s d (if s.rx d ≠ 0 then s.rx a else s.rx b) 1

/-- MUL (R115). -/
def execMul (d a b : XReg) (s : State) : Out :=
  onCore s fun s => scalar s d (s.rx a * s.rx b) 3

/-- MULH (R115). -/
def execMulh (d a b : XReg) (s : State) : Out :=
  onCore s fun s => scalar s d (BitVec.ofInt 64 ((s.rx a).toInt * (s.rx b).toInt / 2 ^ 64)) 3

/-- MULHU (R115). -/
def execMulhu (d a b : XReg) (s : State) : Out :=
  onCore s fun s => scalar s d (BitVec.ofNat 64 ((s.rx a).toNat * (s.rx b).toNat / 2 ^ 64)) 3

/-- DIV (R115). -/
def execDiv (d a b : XReg) (s : State) : Out :=
  onCore s fun s => scalar s d (if s.rx b = 0 then BitVec.allOnes 64 else (s.rx a).sdiv (s.rx b)) 3

/-- DIVU (R115). -/
def execDivu (d a b : XReg) (s : State) : Out :=
  onCore s fun s => scalar s d (if s.rx b = 0 then BitVec.allOnes 64 else s.rx a / s.rx b) 3

/-- REM (R115). -/
def execRem (d a b : XReg) (s : State) : Out :=
  onCore s fun s => scalar s d (if s.rx b = 0 then s.rx a else (s.rx a).srem (s.rx b)) 3

/-- REMU (R115). -/
def execRemu (d a b : XReg) (s : State) : Out :=
  onCore s fun s => scalar s d (if s.rx b = 0 then s.rx a else s.rx a % s.rx b) 3

/-- LEA (R116). -/
def execLea (d a b : XReg) (sh : Fin 8) (s : State) : Out :=
  onCore s fun s => scalar s d (s.rx a + s.rx b <<< sh.val) 1

/-- BFX (R116, n is the length − 1 and p the position). -/
def execBfx (d a : XReg) (n p : Fin 64) (s : State) : Out :=
  onCore s fun s => scalar s d ((s.rx a >>> p.val) &&& (BitVec.allOnes 64 >>> (63 - n.val))) 1

/-- BFI (R116): n is the length − 1 and p the position. -/
def execBfi (d a : XReg) (n p : Fin 64) (s : State) : Out :=
  onCore s fun s =>
    let m : Word := (BitVec.allOnes 64 >>> (63 - n.val)) <<< p.val
    scalar s d ((s.rx d &&& ~~~m) ||| ((s.rx a <<< p.val) &&& m)) 1

/-- ADDI (R117). -/
def execAddi (d a : XReg) (i : BitVec 13) (s : State) : Out :=
  onCore s fun s => scalar s d (s.rx a + imm13 i) 1

/-- ANDI (R117). -/
def execAndi (d a : XReg) (i : BitVec 13) (s : State) : Out :=
  onCore s fun s => scalar s d (s.rx a &&& imm13 i) 1

/-- ORI (R117). -/
def execOri (d a : XReg) (i : BitVec 13) (s : State) : Out :=
  onCore s fun s => scalar s d (s.rx a ||| imm13 i) 1

/-- XORI (R117). -/
def execXori (d a : XReg) (i : BitVec 13) (s : State) : Out :=
  onCore s fun s => scalar s d (s.rx a ^^^ imm13 i) 1

/-- SLTI (R117). -/
def execSlti (d a : XReg) (i : BitVec 13) (s : State) : Out :=
  onCore s fun s => scalar s d (bit ((s.rx a).slt (imm13 i))) 1

/-- SLLI (R117). -/
def execSlli (d a : XReg) (n : Fin 64) (s : State) : Out :=
  onCore s fun s => scalar s d (s.rx a <<< n.val) 1

/-- SRLI (R117). -/
def execSrli (d a : XReg) (n : Fin 64) (s : State) : Out :=
  onCore s fun s => scalar s d (s.rx a >>> n.val) 1

/-- SRAI (R117). -/
def execSrai (d a : XReg) (n : Fin 64) (s : State) : Out :=
  onCore s fun s => scalar s d ((s.rx a).sshiftRight n.val) 1

/-- LUI (R118). -/
def execLui (d : XReg) (i : BitVec 18) (s : State) : Out :=
  onCore s fun s => scalar s d (imm18 i <<< 13) 1

/-- LUIH (R118). -/
def execLuih (d : XReg) (i : BitVec 18) (s : State) : Out :=
  onCore s fun s => scalar s d (s.rx d + imm18 i <<< 31) 1

end Sys2Proof.Machine
end

