-- ==== Sys2Proof/Machine/ScalarFloat.lean ====
section
/-! DEFINITION. Class S floating instructions, in FP32 (R119). -/

namespace Sys2Proof.Machine

/-- The FP32 operand of a register: bits [31:0]. -/
def State.fp (s : State) (n : XReg) : Nat := (s.rx n).toNat % 2 ^ 32
/-- The dynamic rounding mode (R99). -/
def Hart.rm (x : Hart) : Rm := Rm.ofCode x.frm.toNat

/-- A floating result with its flags, at latency 4 (R101, R119). -/
def scalarF (s : State) (d : XReg) (r : Nat × FlagSet) : Out :=
  .next (s.resultF (.x d (BitVec.ofNat 64 r.1)) 4 r.2).advance

/-- FP32 to INT32, saturated (R103): the sign-extended result and its flags. -/
def toInt32 (rm : Rm) (x : Num) : Word × FlagSet :=
  match x with
  | .nan => (0, flagNV)
  | .inf neg => (if neg then BitVec.ofInt 64 (-(2 ^ 31)) else 0x7FFFFFFF, flagNV)
  | .fin neg m e st =>
    let (i, inexact) := roundInt rm neg m e st
    if i < -(2 ^ 31) then (BitVec.ofInt 64 (-(2 ^ 31)), flagNV)
    else if 2 ^ 31 ≤ i then (0x7FFFFFFF, flagNV)
    else (BitVec.ofInt 64 i, if inexact then flagNX else 0)

/-- FADD.S (R119). -/
def execFaddS (d a b : XReg) (s : State) : Out :=
  onCore s fun s => scalarF s d (fAdd .fp32 s.me.rm (s.fp a) (s.fp b))

/-- FSUB.S (R119). -/
def execFsubS (d a b : XReg) (s : State) : Out :=
  onCore s fun s => scalarF s d (fSub .fp32 s.me.rm (s.fp a) (s.fp b))

/-- FMUL.S (R119). -/
def execFmulS (d a b : XReg) (s : State) : Out :=
  onCore s fun s => scalarF s d (fMul .fp32 s.me.rm (s.fp a) (s.fp b))

/-- FMIN.S (R119). -/
def execFminS (d a b : XReg) (s : State) : Out :=
  onCore s fun s => scalarF s d ((fMin .fp32 (s.fp a) (s.fp b), 0))

/-- FMAX.S (R119). -/
def execFmaxS (d a b : XReg) (s : State) : Out :=
  onCore s fun s => scalarF s d ((fMax .fp32 (s.fp a) (s.fp b), 0))

/-- FCVT.S.W (R119). -/
def execFcvtSW (d a : XReg) (s : State) : Out :=
  onCore s fun s => scalarF s d (roundNum .fp32 s.me.rm false (ofInt ((s.rx a).setWidth 32).toInt))

/-- FCVT.W.S (R119). -/
def execFcvtWS (d a : XReg) (s : State) : Out :=
  onCore s fun s =>
    let r := toInt32 s.me.rm (FloatFmt.fp32.value (s.fp a))
    .next (s.resultF (.x d r.1) 4 r.2).advance

/-- FEQ.S (R119). -/
def execFeqS (d a b : XReg) (s : State) : Out :=
  onCore s fun s => scalarF s d (((fEq .fp32 (s.fp a) (s.fp b)).toNat, 0))

/-- FLT.S (R119). -/
def execFltS (d a b : XReg) (s : State) : Out :=
  onCore s fun s => scalarF s d (((fLt .fp32 (s.fp a) (s.fp b)).toNat, 0))

/-- FLE.S (R119). -/
def execFleS (d a b : XReg) (s : State) : Out :=
  onCore s fun s => scalarF s d (((fLe .fp32 (s.fp a) (s.fp b)).toNat, 0))

/-- FMA.S (R119). -/
def execFmaS (d a b : XReg) (s : State) : Out :=
  onCore s fun s => scalarF s d (fFma .fp32 s.me.rm false false (s.fp a) (s.fp b) (s.fp d))

/-- FCVT.S.BF (R119). -/
def execFcvtSBf (d a : XReg) (s : State) : Out :=
  onCore s fun s => scalarF s d (floatToFloat .fp32 .rne false (FloatFmt.bf16.value (s.fp a % 2 ^ 16)))

/-- FCVT.BF.S (R119). -/
def execFcvtBfS (d a : XReg) (s : State) : Out :=
  onCore s fun s => scalarF s d (floatToFloat .bf16 s.me.rm false (FloatFmt.fp32.value (s.fp a)))

end Sys2Proof.Machine
end

