-- ==== Sys2Proof/Machine/Control.lean ====
section
/-! DEFINITION. Control transfer and the system instructions of class S that stay in the program: branches, jumps, loops
(R120 to R126), TRAP, WFE, YIELD, HALT, BRK (R127 to R130, R68). -/

namespace Sys2Proof.Machine

/-! ## Branches and jumps -/

/-- The word is forwarded to a follower of a consist, whose transfer decisions are the leader's (R265). -/
def State.follows (s : State) : Bool := s.issue.fwd.isSome

/-- A branch to a target. -/
def branchTo (s : State) (take : Bool) (t : Word) : Out :=
  if take && !s.follows then .next (s.transfer t) else .next s.advance

/-- BEQ (R120). -/
def execBeq (a b : XReg) (o : BitVec 13) (s : State) : Out :=
  onCore s fun s => branchTo s (s.rx a == s.rx b) (s.target13 o)
/-- BNE (R120). -/
def execBne (a b : XReg) (o : BitVec 13) (s : State) : Out :=
  onCore s fun s => branchTo s (s.rx a != s.rx b) (s.target13 o)
/-- BLT (R120). -/
def execBlt (a b : XReg) (o : BitVec 13) (s : State) : Out :=
  onCore s fun s => branchTo s ((s.rx a).slt (s.rx b)) (s.target13 o)
/-- BGE (R120). -/
def execBge (a b : XReg) (o : BitVec 13) (s : State) : Out :=
  onCore s fun s => branchTo s (!(s.rx a).slt (s.rx b)) (s.target13 o)
/-- BLTU (R120). -/
def execBltu (a b : XReg) (o : BitVec 13) (s : State) : Out :=
  onCore s fun s => branchTo s ((s.rx a).ult (s.rx b)) (s.target13 o)
/-- BGEU (R120). -/
def execBgeu (a b : XReg) (o : BitVec 13) (s : State) : Out :=
  onCore s fun s => branchTo s (!(s.rx a).ult (s.rx b)) (s.target13 o)

/-- The link value: the address of the next bundle (R33). -/
def State.link8 (s : State) : Word := s.me.pc + 8

/-- JAL (R121). -/
def execJal (d : XReg) (o : BitVec 18) (s : State) : Out :=
  onCore s fun s => branchTo (s.result (.x d s.link8) 1) true (s.target18 o)

/-- JALR (R121): a target that is not 8-aligned traps ALIGN, and no link is written. -/
def execJalr (d a : XReg) (i : BitVec 13) (s : State) : Out :=
  onCore s fun s =>
    let t := s.rx a + imm13 i
    if t % 8 ≠ 0 ∧ s.follows = false then .next (s.trap cALIGN t)
    else branchTo (s.result (.x d s.link8) 1) true t

/-- LOOP (R123). -/
def execLoop (a : XReg) (o : BitVec 13) (s : State) : Out :=
  onCore s fun s =>
    let n := s.rx a
    let last := s.target13 o
    let ls := s.me.loops
    if s.follows then .next s.advance
    else if n >>> 28 ≠ 0 then .next (s.trap cILLEGAL n)
    else if n = 0 then
      let r : List LoopLevel × Option Word := match ls with
        | l :: _ => if l.last = last then loopTest last ls else (ls, none)
        | [] => ([], none)
      .next ((s.mapMe (·.setLoops r.1)).transferKeep (r.2.getD (last + 8)) true)
    else if 2 ≤ ls.length then .next s.illegal
    else if ls.any (fun l => decide (l.last.toNat < last.toNat)) then .next s.illegal
    else .next (s.mapMe (·.setLoops (⟨s.me.pc + 8, last, n.setWidth 28⟩ :: ls))).advance

/-- BEOS (R126). -/
def execBeos (p : PortNo) (o : BitVec 13) (s : State) : Out :=
  onT s fun s => branchTo s (s.me.ports[p].cfg && s.me.ports[p].eos) (s.target13 o)

/-! ## Traps (R127) -/

/-- TRAP. -/
def execTrap (a : XReg) (s : State) : Out := onCore s fun s => .next (s.trap cTRAPINS (s.rx a))
/-- BRK. -/
def execBrk (s : State) : Out := onCore s fun s => .next (s.trap cBREAK 0)

/-! ## Waiting for an event (R129) -/

/-- WFE: the latch ends it and is cleared; a deadline ends it and leaves the latch. -/
def execWfe (a : XReg) (s : State) : Out :=
  onCore s fun s =>
    let x := s.me
    let t := x.rx a
    if x.latch then .next (s.setMe { x with latch := false }).advance
    else if a.val ≠ 0 ∧ (x.wfeOver ∨ t.toNat ≤ s.dtime) then .next s.advance
    else .next (s.mapMe (fun x => { x with wfe := if a.val = 0 then none else some t })).hold

/-- WFE_DEADLINE of a strand or core: DTIME has reached the deadline that its WFE waits for. -/
def execWfeDeadline (h : Nat) (s : State) : Out :=
  onPackage s fun s =>
    match (s.hart h).wfe with
    | some t => if t.toNat ≤ s.dtime then .next (s.mapHart h (fun x => { x with wfeOver := true })) else .next s
    | none => .next s

/-! ## Arbitration (R68) -/

/-- YIELD. Under WEIGHTED its cycle has charged the counters already (R67, step 3), and what is still positive becomes 0 (log 125). -/
def execYield (s : State) : Out :=
  onCore s fun s =>
    let t := s.myTile
    let i := strandOf s.cur
    if isT s.cur && t.shared then
      if t.arb.toNat % 4 = 0 then
        .next (s.setMyTile { t with age := t.age.filter (· != i) ++ [i], yielded := true }).advance
      else if t.arb.toNat % 4 = 2 ∧ 0 < t.arbCtr[i] then
        .next (s.setMyTile { t with arbCtr := t.arbCtr.set i 0 }).advance
      else .next s.advance
    else .next s.advance

/-! ## Arrivals (R255, R256) -/

/-- Reached of R261. -/
def reached (g t : BitVec 32) : Bool := decide ((g - t).toNat < 2 ^ 31)

/-- Tile t has arrived for a generation of a level: all its strands have halted since its launch began, or every running
strand has arrived for it. -/
def State.tileArrived (s : State) (t : Nat) (l : Fin 4) (n : BitVec 32) : Bool :=
  let x := s.tile t
  if x.allHalted then true
  else if x.runs 0 || x.runs 1 || x.runs 2 || x.runs 3 then
    [0, 1, 2, 3].all (fun (i : Fin 4) => !x.runs i || reached (s.hart (4 * t + i.val)).arrivals[l] n)
  else false

/-- Member u of a level of tile t has arrived for a generation: one whose part of the launch has ended has arrived for
every later one (R256), and one that a gang switch has stopped or saved arrives when it has resumed. -/
def State.memberArrived (s : State) (t u : Nat) (l : Fin 4) (n : BitVec 32) : Bool :=
  !s.partRuns t u || (s.partHere (s.tile t).launch u && s.tileArrived u l n)

/-- A pending arrival of the tile ends its communication phases (R255; log 23). -/
def State.closePhases (s : State) (t : Nat) : State :=
  [0, 1, 2, 3].foldl (fun s (l : Fin 4) =>
    let x := s.tile t
    if domField x.dommem (53 + l.val) 1 = 1 ∧ s.tileArrived t l (x.gen[l] + 1) = true then
      s.setTile t { x with dommem := setField x.dommem (53 + l.val) 1 0 }
    else s) s

/-! ## Ending a strand (R130, R267) -/

/-- A tile leaves its consist (R267): position, size, the phase and the count of level 1. -/
def State.uncoupleTile (s : State) (t : Nat) : State :=
  let s := s.mapTile t (fun x => { x with
    dommem := setField (setField (setField x.dommem 0 4 0) 4 5 1) 54 1 0
    gen := x.gen.set 1 0, marks := x.marks.set 1 [], line := [] })
  [0, 1, 2, 3].foldl (fun s i => s.mapHart (4 * t + i) (fun x => { x with arrivals := x.arrivals.set 1 0, rest := 0 })) s

/-- HALT. A strand waits for its results at the HALT, which stays its place; a profile G core waits for its event
latch, without entering a handler, and clears it. -/
def execHalt (s : State) : Out :=
  onCore s fun s =>
    if isT s.cur then
      let s := s.mapMe (fun x => { x with run := .halting })
      if s.issue.paired then .next (s.transferKeep s.me.pc true) else .next (s.mapMe Hart.didIssue)
    else above s fun s =>
      if s.me.latch then .next (s.mapMe (fun x => { x with latch := false })).advance else .next s.hold

/-- A strand that waits in HALT ends: every result has landed and its vector queue is empty. -/
def State.haltRetire (s : State) (h : Nat) : State :=
  let x := s.hart h
  let t := tileOf h
  if isT h ∧ x.run = .halting ∧ x.flight = [] ∧ x.vq = [] ∧ x.late = [] then
    let s := s.setHart h { x with run := .inactive }
    let s := s.mapTile t (fun y =>
      let m := y.mode &&& ~~~(1#64 <<< (1 + (strandOf h).val))
      { y with mode := m, age := y.age.filter (· != strandOf h), allHalted := y.allHalted || (m >>> 1) % 16 == 0 })
    (if 1 < (s.tile t).csize then s.uncoupleTile t else s).closePhases t
  else s

/-- HALT_RETIRE. -/
def execHaltRetire (h : Nat) (s : State) : Out := onPackage s fun s => .next (s.haltRetire h)

end Sys2Proof.Machine
end

