-- ==== Sys2Proof/Machine/Creg.lean ====
section
/-! DEFINITION. MFC, MTC and the control registers (R45, R52, R53, R65, R70, R74, R75, R85, R125, R132, R185, R257, R318,
R319, R339, R340, R342). -/

namespace Sys2Proof.Machine

/-! ## Which registers there are (R52, R53, R400) -/

/-- The register is listed and can be named on the profile. -/
def cregListed (g : Bool) (n : Nat) : Bool :=
  [0x000, 0x003, 0x200, 0x201, 0x202, 0x300, 0x301, 0x302, 0x400, 0x401, 0x402, 0x403, 0x405, 0x601, 0x700, 0x701,
    0x702, 0x703, 0x704].contains n
  || (!g && [0x001, 0x002, 0x100, 0x101, 0x102, 0x103, 0x404, 0x406, 0x500, 0x501, 0x502, 0x503, 0x600, 0x705, 0x800,
    0x801, 0xF00].contains n)

/-- A read below HANDLER or KERNEL traps PRIV. -/
def cregReadH (n : Nat) : Bool := decide (0x400 ≤ n ∧ n ≤ 0x406) || n == 0xF00
/-- A write below HANDLER or KERNEL traps PRIV. -/
def cregWriteH (n : Nat) : Bool := cregReadH n || n == 0x100 || n == 0x101 || n == 0x800
/-- The register can be written by some privilege. -/
def cregWritable (n : Nat) : Bool :=
  cregWriteH n || [0x102, 0x103, 0x300, 0x301, 0x302, 0x601, 0x801].contains n

/-! ## Reading -/

/-- The byte of QSTATE of a port (R85). -/
def PortCtx.status (q : PortCtx) : Nat :=
  q.cfg.toNat + 2 * q.write.toNat + 4 * q.eos.toNat + 8 * q.fault.toNat + 16 * q.wait.toNat + 32 * q.close.toNat
    + 64 * (match q.mode with | .affine => 0 | .indexed => 1 | .ring => 2)

/-- LOOPC (R125): the innermost level first. -/
def loopWord : List LoopLevel → Nat
  | [] => 0
  | [l] => l.count.toNat * 2 ^ 28 + 2 ^ 56
  | l :: m :: _ => l.count.toNat + m.count.toNat * 2 ^ 28 + 2 ^ 57

/-- The tile has arrived for a generation of a level, and one of its strands has made the arrival: halting alone is none
(log 28). -/
def State.arrivalMade (s : State) (t : Nat) (l : Fin 4) (n : BitVec 32) : Bool :=
  s.tileArrived t l n && [0, 1, 2, 3].any (fun i => reached (s.hart (4 * t + i)).arrivals[l] n)

/-- BARGENL of a tile: PEND counts the pending generations that the tile has arrived for (R257; log 28). -/
def State.bargen (s : State) (t : Nat) (l : Fin 4) : Nat :=
  let g := (s.tile t).gen[l]
  let past := [0, 1, 2, 3].map (fun i => ((s.hart (4 * t + i)).arrivals[l] - g).toNat)
  g.toNat + (if s.arrivalMade t l (g + 2) then 2 else if s.arrivalMade t l (g + 1) then 1 else 0) * 2 ^ 32
    + ((List.range 4).map (fun i => if 0 < past.getD i 0 ∧ past.getD i 0 < 2 ^ 31 then 2 ^ (34 + i) else 0)).sum

/-- The matrix unit's sequencer holds unretired commands (R74): those that a fault keeps are none (log 127). -/
def Tile.busy (x : Tile) : Bool := !x.cmds.isEmpty

/-- Active tiles of the die of a tile (R12, R19). -/
def State.active (s : State) (t : Nat) : Nat :=
  ((List.range 128).filter (fun i => !s.lost (128 * dieOf t + i))).length

/-- PKGNUM (R400). -/
def State.pkgnum (s : State) : Nat := s.ioRead 0x08F400000008 2 % 2 ^ 13

/-- The value of a listed control register for a strand or core (R52). MSTAT.DEPTH counts the live commands (log 98). -/
def State.readCreg (s : State) (h n : Nat) : Word :=
  let x := s.hart h
  let t := s.tile (tileOf h)
  let g := !isT h
  match n with
  | 0x000 => BitVec.ofNat 64 (if g then gcoreOf h else (strandOf h).val)
  | 0x001 => BitVec.ofNat 64 (tileOf h)
  | 0x002 => t.dommem
  | 0x003 => BitVec.ofNat 64 s.pkgnum
  | 0x100 => t.mode
  | 0x101 => t.arb
  | 0x102 => t.vshare
  | 0x103 => BitVec.ofNat 64 (t.owner.toNat + 4 * t.busy.toNat)
  | 0x200 => BitVec.ofNat 64 (if g then s.clk else s.dtime - t.born)
  | 0x201 => BitVec.ofNat 64 s.dtime
  | 0x202 => Config.sysTime s.clk
  | 0x300 => x.fflags.setWidth 64
  | 0x301 => x.frm.setWidth 64
  | 0x302 => x.ftrap.setWidth 64
  | 0x400 => s.tvecOf h
  | 0x401 => x.tcause
  | 0x402 => x.tpc
  | 0x403 => x.tval
  | 0x404 => x.tseq
  | 0x405 => x.tstatus
  | 0x406 => (s.ctx t.ctx).fring
  | 0x500 => BitVec.ofNat 64 (s.bargen (tileOf h) 0)
  | 0x501 => BitVec.ofNat 64 (s.bargen (tileOf h) 1)
  | 0x502 => BitVec.ofNat 64 (s.bargen (tileOf h) 2)
  | 0x503 => BitVec.ofNat 64 (s.bargen (tileOf h) 3)
  | 0x600 => BitVec.ofNat 64 ((List.range 8).map (fun p => x.ports[Fin.ofNat 8 p].status * 2 ^ (8 * p))).sum
  | 0x601 => BitVec.ofNat 64 (loopWord x.loops)
  -- FEAT0 to FEAT3 (R45)
  | 0x700 | 0x701 | 0x702 | 0x703 => 0
  -- NETCAP (R20)
  | 0x704 => BitVec.ofNat 64 (6 + 6 * 2 ^ 4 + 6 * 2 ^ 8 + 5 * 2 ^ 12 + 6 * 2 ^ 16 + 5 * 2 ^ 20 + 16 * 2 ^ 23)
  -- TILECAP (R19)
  | 0x705 => BitVec.ofNat 64 (4 + 4 * 2 ^ 4 + 8 * 2 ^ 8 + 16 * 2 ^ 12 + 4 * 2 ^ 17 + 16 * 2 ^ 20 + 8 * 2 ^ 25 + 96 * 2 ^ 29
      + 24 * 2 ^ 36 + s.active (tileOf h) * 2 ^ 44)
  | 0x800 => t.scrbase
  | 0x801 => BitVec.ofNat 64 (t.mstat.toNat + t.cmds.length * 2 ^ 20)
  | 0xF00 => BitVec.ofNat 64 (t.dbgctl.toNat + (if t.frozen then 2 ^ 25 else 0))
  | _ => 0

/-- The command is a drain, which raises flags (R100). -/
def isDrain : Instr → Bool
  | .mdrain .. | .mdrains .. => true
  | _ => false

/-- An MFC of FFLAGS waits, where readers wait for results, for every floating instruction on its way (R62, R63, R101; log 123). -/
def State.flagsPending (s : State) : Bool :=
  (!isT s.cur || s.myTile.shared || s.me.priv != .user)
    && (s.me.flight.any (·.float)
      || (isT s.cur && s.myTile.cmds.any (fun c => c.strand == strandOf s.cur && isDrain c.instr)))

/-- MFC (R132). -/
def execMfc (d : XReg) (r : BitVec 12) (s : State) : Out :=
  onCore s fun s =>
    let n := r.toNat
    if cregListed (!isT s.cur) n = false then .next s.illegal
    else if cregReadH n ∧ s.me.priv = .user then .next s.privTrap
    else if n = 0x300 ∧ s.flagsPending then .next s.hold
    else scalar s d (s.readCreg s.cur n) 1

/-! ## Writing -/

/-- A write that waits for the end of a paired bundle, whose V or X word reads the old value (R132); else at once, so that word 1
of a split bundle meets what its word 0 has written to MOWNER or MODE (log 108). -/
def State.writeLater (s : State) (n : Nat) (v : Word) (now : State → State) : State :=
  if s.issue.paired then s.mapMe (fun x => { x with mtcPend := some (n, v) }) else now s

/-- The breakpoint table is copied into the comparators of the tile's strands (R340). -/
def State.loadBreakpoints (s : State) (t : Nat) : State :=
  let base := (s.tile t).dbgctl.toNat / 2 ^ 12 % 2 ^ 13 * 128
  let entry (i b : Nat) : Word := BitVec.ofNat 64 (leRead (s.tile t).scratch (base + 32 * i + 8 * b) 8)
  [0, 1, 2, 3].foldl (fun s i => s.mapHart (4 * t + i) (fun x => { x with bp := Vector.ofFn (fun b => entry i b.val) })) s

/-- DBGCTL.FREEZE is set: the engines of the tile start no work (R342). -/
def State.freezeEngines (s : State) (t : Nat) : State :=
  s.mapTile t (fun x => if x.dbgctl.getLsbD 0 then x else { x with dbgctl := x.dbgctl ||| 1, frozenAt := s.dtime })
/-- DBGCTL.FREEZE is cleared: every unit resumes, and RINGTIME has not counted meanwhile (R342). -/
def State.unfreezeEngines (s : State) (t : Nat) : State :=
  s.mapTile t (fun x =>
    if x.dbgctl.getLsbD 0 then
      { x with
        dbgctl := x.dbgctl &&& ~~~1#64, frozen := false
        cmds := x.cmds.map (fun c => { c with starved := c.starved.map (fun d => d + (s.dtime - Nat.max d x.frozenAt)) }) }
    else x)

/-- The writable bits of TSTATUS (R319): PPRIV, WORD, REPLAY, RE, BPSKIP, START. -/
def tstatusRW : Word := 0x3037

/-- The fields of a control register take a value (R52 and the field maps). -/
def State.setCreg (s : State) (h n : Nat) (v : Word) : State :=
  let t := tileOf h
  match n with
  | 0x100 =>
    let s := s.mapTile t (fun x => { x with mode := (x.mode &&& 0x1E) ||| (v &&& 0x21) })
    -- fixed mode binds every queued instruction whole (R72)
    if v.getLsbD 0 then s
    else
      let c := (s.tile t).adv
      s.mapHart h (fun x => { x with
        vq := [], flight := x.flight.map (fun f => if f.due.isNone ∧ f.lat ≠ 0 then { f with due := some (c + f.lat) } else f) })
  | 0x101 => s.mapTile t (fun x => { x with arb := v &&& 0xFFFF3, arbCtr := Vector.replicate 4 0 })
  | 0x102 => s.mapTile t (fun x => { x with vshare := v &&& 0xFFFF, vCtr := Vector.replicate 4 0 })
  | 0x103 => s.mapTile t (fun x => { x with owner := v.setWidth 2 })
  | 0x300 => s.mapHart h (fun x => { x with fflags := v.setWidth 5 ||| x.landed ||| x.landedNow })
  | 0x301 => s.mapHart h (fun x => { x with frm := v.setWidth 2 })
  | 0x302 => s.mapHart h (fun x => { x with ftrap := v.setWidth 5 })
  | 0x400 =>
    let b := v &&& 0x0000FFFFFFFFFFF8
    if isT h then
      let c := (s.tile t).ctx
      s.setCtx c { s.ctx c with tvec := b }
    else s.mapHart h (fun x => { x with tvec := b })
  | 0x401 => s.mapHart h (fun x => { x with tcause := v &&& 0x80000000000000FF })
  | 0x402 => s.mapHart h (fun x => { x with tpc := v &&& 0x0000FFFFFFFFFFF8 })
  | 0x403 => s.mapHart h (fun x => { x with tval := v })
  | 0x404 => s.mapHart h (fun x => { x with tseq := (x.tseq &&& ~~~0xFFFF#64) ||| (v &&& 0xFFFF) })
  | 0x405 => s.mapHart h (fun x => { x with tstatus := (x.tstatus &&& ~~~tstatusRW) ||| (v &&& tstatusRW) })
  | 0x406 =>
    let c := (s.tile t).ctx
    s.setCtx c { s.ctx c with fring := v &&& ~~~63#64 }
  | 0x601 =>
    s.mapHart h (fun x => x.setLoops (match x.loops with
      | [] => []
      | [l] => [{ l with count := (v >>> 28).setWidth 28 }]
      | l :: m :: r => { l with count := v.setWidth 28 } :: { m with count := (v >>> 28).setWidth 28 } :: r))
  | 0x800 => s.mapTile t (fun x => { x with scrbase := v })
  | 0x801 => s.mapTile t (fun x => { x with
      mstat := (x.mstat &&& v &&& 3) ||| x.fresh.setWidth 64 ||| (if x.ternLanded then 2 else 0) ||| (v &&& 0xF1F00) })
  | 0xF00 =>
    let s := s.mapTile t (fun x => { x with dbgctl := (x.dbgctl &&& 1) ||| (v &&& 0x1FFF1FE) })
    let s := if v.getLsbD 0 then s.freezeEngines t else s.unfreezeEngines t
    s.loadBreakpoints t
  | _ => s

/-- What an MTC does before it writes. -/
inductive MtcCheck where | write | ignored | illegal | priv | matown | wait
  deriving DecidableEq, Repr

/-- The checks of an MTC (R53, R55, R65, R75, R185, R319). On profile G one to FFLAGS follows the cycle in which the last flags on
their way have landed, so that no timing changes what it leaves (R101, R403; log 87). -/
def State.mtcCheck (s : State) (n : Nat) (v : Word) : MtcCheck :=
  let user := s.me.priv == .user
  let t := s.myTile
  if cregListed (!isT s.cur) n = false then .illegal
  else if !cregWritable n then .ignored
  else if cregWriteH n && user then .priv
  else match n with
    | 0x100 =>
      let fix := v.getLsbD 5
      if (v.getLsbD 0 = false ∧ (t.mode >>> 2) % 8 ≠ 0) ∨ (v.getLsbD 0 = true ∧ t.shared = false ∧ (t.fixcode ∨ fix)) then
        .illegal
      else .write
    | 0x101 => if v.toNat % 4 = 3 then .illegal else .write
    | 0x103 =>
      if user && t.owner.toNat != (strandOf s.cur).val then .matown
      else if !t.shared && v.toNat % 4 != 0 then .illegal
      else if t.busy then .wait else .write
    | 0x300 => if !isT s.cur && (s.flagsPending || s.me.landed ||| s.me.landedNow != 0) then .wait else .write
    | 0x405 =>
      let p := v.toNat % 4
      if p = 3 ∨ (p = 2 ∧ isT s.cur = true) then .illegal else .write
    | 0x801 => if 10 ≤ v.toNat / 2 ^ 8 % 32 ∧ v.toNat / 2 ^ 8 % 32 ≤ 30 then .write else .illegal
    | _ => .write

/-- MTC of a value to a register (R132). The manual states no TVAL for MATOWN: it is a free value. -/
def mtc (s : State) (n : Nat) (v : Word) : Out :=
  match s.mtcCheck n v with
  | .write => .next (s.writeLater n v (fun s => s.setCreg s.cur n v)).advance
  | .ignored => .next s.advance
  | .illegal => .next s.illegal
  | .priv => .next s.privTrap
  | .matown =>
    let (u, s) := s.draw 64
    .next (s.trap cMATOWN u)
  | .wait => .next s.hold

/-- MTC (R132). -/
def execMtc (a : XReg) (r : BitVec 12) (s : State) : Out := onCore s fun s => mtc s r.toNat (s.rx a)
/-- MODE_WRITE: an MTC of the moving strand to MODE (R54, R55). -/
def execModeWrite (v : Word) (s : State) : Out := onT s fun s => mtc s 0x100 v
/-- ARB_WRITE: an MTC to ARB (R65). -/
def execArbWrite (v : Word) (s : State) : Out := onT s fun s => mtc s 0x101 v
/-- VSHARE_WRITE: an MTC to VSHARE (R70, R71). -/
def execVshareWrite (v : Word) (s : State) : Out := onT s fun s => mtc s 0x102 v
/-- MOWNER_WRITE: an MTC to MOWNER (R74, R75). -/
def execMownerWrite (v : Word) (s : State) : Out := onT s fun s => mtc s 0x103 v
/-- FFLAGS_WRITE: an MTC to FFLAGS (R98, R101). -/
def execFflagsWrite (v : Word) (s : State) : Out := onCore s fun s => mtc s 0x300 v
/-- MSTAT_WRITE: an MTC to MSTAT (R185). -/
def execMstatWrite (v : Word) (s : State) : Out := onT s fun s => mtc s 0x801 v
/-- LOOPC_WRITE: an MTC to LOOPC (R125). -/
def execLoopcWrite (v : Word) (s : State) : Out := onCore s fun s => mtc s 0x601 v

/-! ## The steps of an MTC to DBGCTL on a tile (R340, R342) -/

/-- BREAKPOINT_TABLE_LOAD. -/
def execBreakpointTableLoad (t : Nat) (s : State) : Out := onPackage s fun s => .next (s.loadBreakpoints t)
/-- ENGINE_FREEZE. -/
def execEngineFreeze (t : Nat) (s : State) : Out := onPackage s fun s => .next (s.freezeEngines t)
/-- ENGINE_UNFREEZE. -/
def execEngineUnfreeze (t : Nat) (s : State) : Out := onPackage s fun s => .next (s.unfreezeEngines t)

end Sys2Proof.Machine
end

