-- ==== Sys2Proof/Machine/LoadStore.lean ====
section
/-! DEFINITION. Direct accesses of class M: scalar loads and stores (R134), vector accesses (R138 to R141), ordered
accesses, atomics and fences (R143 to R147). In the order of memory operations of this model every access is
performed at once (log 2). -/

namespace Sys2Proof.Machine

/-! ## Shared operations -/

/-- The direct-access path of the tile is occupied (R141). -/
def State.pathBusy (s : State) : Bool := isT s.cur && decide (s.dtime < s.myTile.pathFree)

/-- A direct access of n bytes: it holds while the path is occupied, traps on the first check that fails (R135), and
otherwise goes on with the places of its bytes. -/
def accessing (s : State) (va : Word) (n align : Nat) (k : AccKind) (scalar : Bool)
    (go : State → List (Loc × Nat) → Out) : Out :=
  if s.pathBusy then .next s.hold
  else match s.direct va n align k scalar with
    | (.error c, s) => .next (s.trap c va)
    | (.ok ls, s) => go s ls

/-- The late DATAERR of a direct load (R136): its destination is not written. -/
def State.lateDataErr (s : State) (va : Word) : State :=
  s.mapMe (·.addLate ⟨cDATAERR, va, va.setWidth 48, false, s.origin⟩)

/-- The result of a load: the fixed latency of the local alias, or variable (R133). -/
def State.loaded (s : State) (va : Word) (l : Landing) (lat : Nat) : State :=
  match isT s.cur, classify va.toNat with
  | true, .own _ => s.result l lat
  | _, _ => s.resultV1 l

/-- A scalar load of n bytes (R134). -/
def load (s : State) (d : XReg) (va : Word) (n : Nat) (ext : Nat → Word) : Out :=
  accessing s va n n .load true fun s ls =>
    if s.partsBad ls then .next ((s.foundParts ls).lateDataErr va).advance
    else
      let (b, s) := s.readParts ls
      .next (s.loaded va (.x d (ext (leNat b))) 4).advance

/-- A scalar store of n bytes (R134). -/
def store (s : State) (va : Word) (n : Nat) (v : Word) : Out :=
  accessing s va n n .store true fun s ls => .next (s.storeParts (leBytes n v.toNat) ls).advance

/-- Extension of n bits to a register. -/
def sext (n : Nat) (v : Nat) : Word := (BitVec.ofNat n v).signExtend 64
def zext (v : Nat) : Word := BitVec.ofNat 64 v

/-! ## Scalar loads and stores (R134) -/

/-- LB. -/
def execLb (d a : XReg) (o : BitVec 13) (s : State) : Out :=
  onCore s fun s => load s d (s.base13 a o) 1 (sext 8)
/-- LBU. -/
def execLbu (d a : XReg) (o : BitVec 13) (s : State) : Out :=
  onCore s fun s => load s d (s.base13 a o) 1 (zext)
/-- LH. -/
def execLh (d a : XReg) (o : BitVec 13) (s : State) : Out :=
  onCore s fun s => load s d (s.base13 a o) 2 (sext 16)
/-- LHU. -/
def execLhu (d a : XReg) (o : BitVec 13) (s : State) : Out :=
  onCore s fun s => load s d (s.base13 a o) 2 (zext)
/-- LW. -/
def execLw (d a : XReg) (o : BitVec 13) (s : State) : Out :=
  onCore s fun s => load s d (s.base13 a o) 4 (sext 32)
/-- LWU. -/
def execLwu (d a : XReg) (o : BitVec 13) (s : State) : Out :=
  onCore s fun s => load s d (s.base13 a o) 4 (zext)
/-- LD. -/
def execLd (d a : XReg) (o : BitVec 13) (s : State) : Out :=
  onCore s fun s => load s d (s.base13 a o) 8 (zext)
/-- SB. -/
def execSb (r a : XReg) (o : BitVec 13) (s : State) : Out :=
  onCore s fun s => store s (s.base13 a o) 1 (s.rx r)
/-- SH. -/
def execSh (r a : XReg) (o : BitVec 13) (s : State) : Out :=
  onCore s fun s => store s (s.base13 a o) 2 (s.rx r)
/-- SW. -/
def execSw (r a : XReg) (o : BitVec 13) (s : State) : Out :=
  onCore s fun s => store s (s.base13 a o) 4 (s.rx r)
/-- SD. -/
def execSd (r a : XReg) (o : BitVec 13) (s : State) : Out :=
  onCore s fun s => store s (s.base13 a o) 8 (s.rx r)

/-! ## Vector accesses (R138 to R141) -/

/-- The result of a vector load: into a register, or pushed to the write port that the field names (R77). -/
def State.vecLoaded (s : State) (va : Word) (r : VReg) (v mask : VWord) (lat : Nat) : State :=
  match portOf r with
  | some p => s.push p v mask none
  | none => s.loaded va (.v r v mask) lat

/-- A vector load that has met an uncorrectable error: no register is written (R136), and a push, which takes effect at issue
(R79), delivers a free value (log 89). -/
def State.vecDataErr (s : State) (va : Word) (r : VReg) (mask : VWord) : State :=
  match portOf r with
  | some p =>
    let (v, s) : VWord × State := s.draw 2048
    (s.push p v mask none).lateDataErr va
  | none => s.lateDataErr va

/-- VLD (R138). -/
def execVld (v : VReg) (a : XReg) (o : BitVec 13) (s : State) : Out :=
  onT s fun s =>
    let va := s.base13 a o
    s.withPorts [] (some v) s.pathBusy false fun s _ =>
      accessing s va 256 32 .load false fun s ls =>
        if s.partsBad ls then .next ((s.foundParts ls).vecDataErr va v (BitVec.allOnes 2048)).advance
        else
          let (b, s) := s.readParts ls
          .next (s.vecLoaded va v (BitVec.ofNat 2048 (leNat b)) (BitVec.allOnes 2048) 4).advance

/-- VST (R138): the access is checked before the port is popped. -/
def execVst (v : VReg) (a : XReg) (o : BitVec 13) (s : State) : Out :=
  onT s fun s =>
    let va := s.base13 a o
    s.withPorts [v] none s.pathBusy false fun s' val =>
      match s.direct va 256 32 .store false with
      | (.error c, s) => .next (s.trap c va)
      | (.ok _, _) =>
        accessing s' va 256 32 .store false fun s ls => .next (s.storeParts (leBytes 256 (val v).toNat) ls).advance

/-- An element of a strided or indexed access: its number, address, and places or cause. -/
abbrev Reached := Nat × Word × Except Cause (List (Loc × Nat))

/-- The places of the active elements. -/
def State.reach (s : State) (n : Nat) (k : AccKind) : List (Nat × Word) → List Reached × State
  | [] => ([], s)
  | (i, va) :: es =>
    let (r, s) := s.direct va n n k false
    let (rs, s) := s.reach n k es
    ((i, va, r) :: rs, s)

/-- The failure to report: that of the lowest-numbered active element that fails a check of R135 (log 83). -/
def firstBad (rs : List Reached) : Option (Cause × Word) :=
  rs.findSome? (fun r => match r.2.2 with | .error c => some (c, r.2.1) | .ok _ => none)

/-- Places of an element that passed its checks. -/
def placesOf (r : Reached) : List (Loc × Nat) :=
  match r.2.2 with
  | .ok ls => ls
  | .error _ => []

/-- Every active element lies in the local alias (R141). -/
def allOwn (es : List (Nat × Word)) : Bool :=
  es.all (fun e => match classify e.2.toNat with | .own _ => true | _ => false)

/-- The path is occupied for 64 cycles when all elements use the local alias (R141). -/
def State.occupy (s : State) (own : Bool) : State :=
  if own then s.mapTile (tileOf s.cur) (fun t => { t with pathFree := s.dtime + 64 }) else s

/-- The active elements of an access with their addresses (R139 to R141). -/
def activeAddrs (m : Word) (ew : Nat) (addr : Nat → Word) : List (Nat × Word) :=
  ((List.range (2048 / ew)).filter (active m ew)).map (fun i => (i, addr i))

/-- The bytes of the elements that have been reached. -/
def State.gather (s : State) : List Reached → List (Nat × Nat) × State
  | [] => ([], s)
  | r :: rs =>
    let (b, s) := s.readParts (placesOf r)
    let (l, s) := s.gather rs
    ((r.1, leNat b) :: l, s)

/-- A strided or indexed load (R139 to R141): nothing changes when an element fails a check. Uncorrectable errors of several elements
are all reported, and TVAL is the address of the lowest-numbered of them (R380; log 126). -/
def gatherWord (s : State) (v : VReg) (reads : List VReg) (k : KReg) (d64 : Bool) (addr : (VReg → VWord) → Nat → Word) : Out :=
  onT s fun s =>
    let ew := if d64 then 64 else 32
    s.withPorts reads (some v) s.pathBusy false fun s' val =>
      let es := activeAddrs (s.rk k) ew (addr val)
      let (rs, t) := s.reach (ew / 8) .load es
      match firstBad rs with
      | some (c, va) => .next (t.trap c va)
      | none =>
        let own := allOwn es
        let (rs, s) := s'.reach (ew / 8) .load es
        let s := s.occupy own
        let mask := activeMask (s.rk k) ew (2048 / ew)
        match rs.find? (fun r => s.partsBad (placesOf r)) with
        | some r => .next ((s.foundParts (rs.flatMap placesOf)).vecDataErr r.2.1 v mask).advance
        | none =>
          let (l, s) := s.gather rs
          let data := packElems ew ((List.range (2048 / ew)).map (look 0 l))
          .next ((match portOf v with
            | some p => s.push p data mask none
            | none => if own then s.result (.v v data mask) 68 else s.resultV1 (.v v data mask))).advance

/-- A strided or indexed store: of several elements at one address the highest remains (R141). -/
def scatterWord (s : State) (v : VReg) (reads : List VReg) (k : KReg) (d64 : Bool) (addr : (VReg → VWord) → Nat → Word) : Out :=
  onT s fun s =>
    let ew := if d64 then 64 else 32
    s.withPorts (v :: reads) none s.pathBusy false fun s' val =>
      let es := activeAddrs (s.rk k) ew (addr val)
      let (rs, t) := s.reach (ew / 8) .store es
      match firstBad rs with
      | some (c, va) => .next (t.trap c va)
      | none =>
        let (rs, s) := s'.reach (ew / 8) .store es
        let s := s.occupy (allOwn es)
        .next (rs.foldl (fun s r => s.writeParts (leBytes (ew / 8) (elem (val v) ew r.1)) (placesOf r)) s).advance

/-- va_i of a strided access (R139). -/
def strideAddr (s : State) (a b : XReg) (i : Nat) : Word := s.rx a + BitVec.ofNat 64 i * s.rx b
/-- va_i of an indexed access (R140). -/
def indexAddr (s : State) (a : XReg) (d64 : Bool) (v : VWord) (i : Nat) : Word :=
  s.rx a + sext 32 (elem v 32 i) * (if d64 then 8 else 4)

/-- VLDS (R139). -/
def execVlds (v : VReg) (a b : XReg) (k : KReg) (d64 : Bool) (s : State) : Out :=
  gatherWord s v [] k d64 (fun _ => strideAddr s a b)
/-- VSTS (R139). -/
def execVsts (v : VReg) (a b : XReg) (k : KReg) (d64 : Bool) (s : State) : Out :=
  scatterWord s v [] k d64 (fun _ => strideAddr s a b)
/-- VGTH (R140). -/
def execVgth (v : VReg) (a : XReg) (i : VReg) (k : KReg) (d64 : Bool) (s : State) : Out :=
  gatherWord s v [i] k d64 (fun val => indexAddr s a d64 (val i))
/-- VSCT (R140). -/
def execVsct (v : VReg) (a : XReg) (i : VReg) (k : KReg) (d64 : Bool) (s : State) : Out :=
  scatterWord s v [i] k d64 (fun val => indexAddr s a d64 (val i))

/-! ## Ordered accesses, atomics and fences (R143 to R147) -/

/-- The size of an M.A access in bytes (R36). -/
def dblSize (dbl : Bool) : Nat := if dbl then 8 else 4

/-- LDA (R143). -/
def execLda (d a : XReg) (_ord : Ord) (_scope : Scope) (dbl : Bool) (s : State) : Out :=
  onCore s fun s =>
    let va := s.rx a
    accessing s va (dblSize dbl) (dblSize dbl) .load true fun s ls =>
      if s.partsBad ls then .next ((s.foundParts ls).lateDataErr va).advance
      else
        let (b, s) := s.readParts ls
        .next (s.resultV1 (.x d (zext (leNat b)))).advance

/-- STL (R143). -/
def execStl (a b : XReg) (_ord : Ord) (_scope : Scope) (dbl : Bool) (s : State) : Out :=
  onCore s fun s => store s (s.rx a) (dblSize dbl) (s.rx b)

/-- An atomic (R145): f gives the new value of n bits, or none for a failed AMOCAS. At FABRIC scope it is performed at the root
port (R251). -/
def amo (s : State) (d a : XReg) (scope : Scope) (dbl : Bool) (f : (n : Nat) → BitVec n → Option (BitVec n)) : Out :=
  onCore s fun s =>
    let va := s.rx a
    let n := dblSize dbl
    accessing s va n n .atomic false fun s ls =>
      if s.partsBad ls then .next ((s.foundParts ls).lateDataErr va).advance
      else
        let s := if scope = .fabric then s.fetchParts ls else s
        let (b, s) := s.readParts ls
        let old := BitVec.ofNat (8 * n) (leNat b)
        let s : State := match f (8 * n) old with
          | some v => s.writeParts (leBytes n v.toNat) ls
          | none => s
        .next (s.resultV1 (.x d (old.signExtend 64))).advance

/-- AMOADD (R145). -/
def execAmoadd (d a b : XReg) (_ord : Ord) (scope : Scope) (dbl : Bool) (s : State) : Out :=
  amo s d a scope dbl fun n old => some (old + (s.rx b).setWidth n)
/-- AMOAND (R145). -/
def execAmoand (d a b : XReg) (_ord : Ord) (scope : Scope) (dbl : Bool) (s : State) : Out :=
  amo s d a scope dbl fun n old => some (old &&& (s.rx b).setWidth n)
/-- AMOOR (R145). -/
def execAmoor (d a b : XReg) (_ord : Ord) (scope : Scope) (dbl : Bool) (s : State) : Out :=
  amo s d a scope dbl fun n old => some (old ||| (s.rx b).setWidth n)
/-- AMOXOR (R145). -/
def execAmoxor (d a b : XReg) (_ord : Ord) (scope : Scope) (dbl : Bool) (s : State) : Out :=
  amo s d a scope dbl fun n old => some (old ^^^ (s.rx b).setWidth n)
/-- AMOMIN (R145). -/
def execAmomin (d a b : XReg) (_ord : Ord) (scope : Scope) (dbl : Bool) (s : State) : Out :=
  amo s d a scope dbl fun n old => some (if old.slt ((s.rx b).setWidth n) then old else (s.rx b).setWidth n)
/-- AMOMAX (R145). -/
def execAmomax (d a b : XReg) (_ord : Ord) (scope : Scope) (dbl : Bool) (s : State) : Out :=
  amo s d a scope dbl fun n old => some (if old.slt ((s.rx b).setWidth n) then (s.rx b).setWidth n else old)
/-- AMOMINU (R145). -/
def execAmominu (d a b : XReg) (_ord : Ord) (scope : Scope) (dbl : Bool) (s : State) : Out :=
  amo s d a scope dbl fun n old => some (if old.ult ((s.rx b).setWidth n) then old else (s.rx b).setWidth n)
/-- AMOMAXU (R145). -/
def execAmomaxu (d a b : XReg) (_ord : Ord) (scope : Scope) (dbl : Bool) (s : State) : Out :=
  amo s d a scope dbl fun n old => some (if old.ult ((s.rx b).setWidth n) then (s.rx b).setWidth n else old)
/-- AMOSWAP (R145). -/
def execAmoswap (d a b : XReg) (_ord : Ord) (scope : Scope) (dbl : Bool) (s : State) : Out :=
  amo s d a scope dbl fun n _ => some ((s.rx b).setWidth n)
/-- AMOCAS (R145): xd holds the expected value. -/
def execAmocas (d a b : XReg) (_ord : Ord) (scope : Scope) (dbl : Bool) (s : State) : Out :=
  amo s d a scope dbl fun n old => if old = (s.rx d).setWidth n then some ((s.rx b).setWidth n) else none

/-- FENCE (R146): every earlier access of the strand is performed, so it holds nothing back (log 2). -/
def execFence (_ord : Ord) (_scope : Scope) (s : State) : Out := onCore s fun s => .next s.advance

end Sys2Proof.Machine
end

