-- ==== Sys2Proof/Machine/VectorInt.lean ====
section
/-! DEFINITION. Class V integer arithmetic, compares, masks, select, move and immediates (R155, R158 to R161). -/

namespace Sys2Proof.Machine

/-! ## Integer arithmetic (R155): functions of the width and the element patterns -/

/-- A signed value clamped to a width. -/
def clampTo (ew : Nat) (i : Int) : Nat :=
  wrapTo ew (max (-((2 ^ (ew - 1) : Nat) : Int)) (min i (((2 ^ (ew - 1) : Nat) : Int) - 1)))
def vAdd (ew a b : Nat) : Nat := (a + b) % 2 ^ ew
def vSub (ew a b : Nat) : Nat := (a + 2 ^ ew - b) % 2 ^ ew
def vMul (ew a b : Nat) : Nat := a * b % 2 ^ ew
def vMulh (ew a b : Nat) : Nat := wrapTo ew (signedOf ew a * signedOf ew b / (2 ^ ew : Nat))
def vMin (ew a b : Nat) : Nat := if signedOf ew a ≤ signedOf ew b then a else b
def vMax (ew a b : Nat) : Nat := if signedOf ew a ≤ signedOf ew b then b else a
def vSll (ew a b : Nat) : Nat := a * 2 ^ (b % ew) % 2 ^ ew
def vSrl (ew a b : Nat) : Nat := a / 2 ^ (b % ew)
def vSra (ew a b : Nat) : Nat := wrapTo ew (signedOf ew a / (2 ^ (b % ew) : Nat))
def vRol (ew a b : Nat) : Nat := (a * 2 ^ (b % ew) + a / 2 ^ (ew - b % ew)) % 2 ^ ew
def vSadd (ew a b : Nat) : Nat := clampTo ew (signedOf ew a + signedOf ew b)
def vSsub (ew a b : Nat) : Nat := clampTo ew (signedOf ew a - signedOf ew b)
def vAvg (ew a b : Nat) : Nat := wrapTo ew ((signedOf ew a + signedOf ew b + 1) / 2)
def vAbs (ew a : Nat) : Nat := clampTo ew (max (signedOf ew a) (-(signedOf ew a)))

/-- An integer word of two vector sources: f of the width and the elements. -/
def intOp (s : State) (d a b : VReg) (k : KReg) (e : Ew) (lat : Nat) (f : Nat → Nat → Nat → Nat) : Out :=
  vecToVec s d [a, b] false lat fun x v =>
    laneMap (x.rk k) e.bits e.count fun i => f e.bits (elem (v a) e.bits i) (elem (v b) e.bits i)

/-- An integer word of one vector source. -/
def intOp1 (s : State) (d a : VReg) (k : KReg) (e : Ew) (f : Nat → Nat → Nat) : Out :=
  vecToVec s d [a] false 2 fun x v => laneMap (x.rk k) e.bits e.count fun i => f e.bits (elem (v a) e.bits i)

/-- VADD (R155). -/
def execVadd (d a b : VReg) (k : KReg) (e : Ew) (_keep : Bool) (s : State) : Out :=
  intOp s d a b k e 2 vAdd

/-- VSUB (R155). -/
def execVsub (d a b : VReg) (k : KReg) (e : Ew) (_keep : Bool) (s : State) : Out :=
  intOp s d a b k e 2 vSub

/-- VMUL (R155). -/
def execVmul (d a b : VReg) (k : KReg) (e : Ew) (_keep : Bool) (s : State) : Out :=
  intOp s d a b k e 4 vMul

/-- VMULH (R155). -/
def execVmulh (d a b : VReg) (k : KReg) (e : Ew) (_keep : Bool) (s : State) : Out :=
  intOp s d a b k e 4 vMulh

/-- VMIN (R155). -/
def execVmin (d a b : VReg) (k : KReg) (e : Ew) (_keep : Bool) (s : State) : Out :=
  intOp s d a b k e 2 vMin

/-- VMAX (R155). -/
def execVmax (d a b : VReg) (k : KReg) (e : Ew) (_keep : Bool) (s : State) : Out :=
  intOp s d a b k e 2 vMax

/-- VMINU (R155). -/
def execVminu (d a b : VReg) (k : KReg) (e : Ew) (_keep : Bool) (s : State) : Out :=
  intOp s d a b k e 2 (fun _ a b => Nat.min a b)

/-- VMAXU (R155). -/
def execVmaxu (d a b : VReg) (k : KReg) (e : Ew) (_keep : Bool) (s : State) : Out :=
  intOp s d a b k e 2 (fun _ a b => Nat.max a b)

/-- VAND (R155). -/
def execVand (d a b : VReg) (k : KReg) (e : Ew) (_keep : Bool) (s : State) : Out :=
  intOp s d a b k e 2 (fun _ a b => a &&& b)

/-- VOR (R155). -/
def execVor (d a b : VReg) (k : KReg) (e : Ew) (_keep : Bool) (s : State) : Out :=
  intOp s d a b k e 2 (fun _ a b => a ||| b)

/-- VXOR (R155). -/
def execVxor (d a b : VReg) (k : KReg) (e : Ew) (_keep : Bool) (s : State) : Out :=
  intOp s d a b k e 2 (fun _ a b => a ^^^ b)

/-- VANDN (R155). -/
def execVandn (d a b : VReg) (k : KReg) (e : Ew) (_keep : Bool) (s : State) : Out :=
  intOp s d a b k e 2 (fun ew a b => a &&& (2 ^ ew - 1 - b))

/-- VSLL (R155). -/
def execVsll (d a b : VReg) (k : KReg) (e : Ew) (_keep : Bool) (s : State) : Out :=
  intOp s d a b k e 2 vSll

/-- VSRL (R155). -/
def execVsrl (d a b : VReg) (k : KReg) (e : Ew) (_keep : Bool) (s : State) : Out :=
  intOp s d a b k e 2 vSrl

/-- VSRA (R155). -/
def execVsra (d a b : VReg) (k : KReg) (e : Ew) (_keep : Bool) (s : State) : Out :=
  intOp s d a b k e 2 vSra

/-- VROL (R155). -/
def execVrol (d a b : VReg) (k : KReg) (e : Ew) (_keep : Bool) (s : State) : Out :=
  intOp s d a b k e 2 vRol

/-- VSADD (R155). -/
def execVsadd (d a b : VReg) (k : KReg) (e : Ew) (_keep : Bool) (s : State) : Out :=
  intOp s d a b k e 2 vSadd

/-- VSSUB (R155). -/
def execVssub (d a b : VReg) (k : KReg) (e : Ew) (_keep : Bool) (s : State) : Out :=
  intOp s d a b k e 2 vSsub

/-- VAVG (R155). -/
def execVavg (d a b : VReg) (k : KReg) (e : Ew) (_keep : Bool) (s : State) : Out :=
  intOp s d a b k e 2 vAvg

/-- VABS (R155). -/
def execVabs (d a : VReg) (k : KReg) (e : Ew) (_keep : Bool) (s : State) : Out :=
  intOp1 s d a k e vAbs

/-! ## Compares (R158) -/

/-- The mask a compare writes at width ew, from the mask operand and the relation of each of n elements. -/
def compareMask (m : Word) (ew n : Nat) (rel : Nat → Bool) : Word :=
  let r := (List.range n).map rel
  BitVec.ofNat 64 (((List.range 64).map (fun j =>
    let on := if ew = 64 then active m 64 (j / 2) && r.getD (j / 2) false
      else m.getLsbD j && (List.range (n / 64)).all (fun g => r.getD (j + 64 * g) false)
    if on then 2 ^ j else 0)).foldl (· + ·) 0)

/-- VCMP. -/
def intCompare (s : State) (d : KReg) (a b : VReg) (k : KReg) (e : Ew) (rel : Int → Int → Bool) : Out :=
  vecToMask s d [a, b] 2 fun x v =>
    compareMask (x.rk k) e.bits e.count fun i => rel (elemS (v a) e.bits i) (elemS (v b) e.bits i)

/-- VFCMP. -/
def floatCompare (s : State) (d : KReg) (a b : VReg) (k : KReg) (e : Fw) (rel : FloatFmt → Nat → Nat → Bool) : Out :=
  vecToMask (float := true) s d [a, b] 4 fun x v =>
    compareMask (x.rk k) e.bits e.count fun i => rel (fwFloat e) (elem (v a) e.bits i) (elem (v b) e.bits i)

/-- VCMP_EQ (R158). -/
def execVcmpEq (d : KReg) (a b : VReg) (k : KReg) (e : Ew) (_keep : Bool) (s : State) : Out :=
  intCompare s d a b k e (fun a b => decide (a = b))

/-- VCMP_NE (R158). -/
def execVcmpNe (d : KReg) (a b : VReg) (k : KReg) (e : Ew) (_keep : Bool) (s : State) : Out :=
  intCompare s d a b k e (fun a b => decide (a ≠ b))

/-- VCMP_LT (R158). -/
def execVcmpLt (d : KReg) (a b : VReg) (k : KReg) (e : Ew) (_keep : Bool) (s : State) : Out :=
  intCompare s d a b k e (fun a b => decide (a < b))

/-- VCMP_LE (R158). -/
def execVcmpLe (d : KReg) (a b : VReg) (k : KReg) (e : Ew) (_keep : Bool) (s : State) : Out :=
  intCompare s d a b k e (fun a b => decide (a ≤ b))

/-- VFCMP_EQ (R158). -/
def execVfcmpEq (d : KReg) (a b : VReg) (k : KReg) (e : Fw) (_keep : Bool) (s : State) : Out :=
  floatCompare s d a b k e fEq

/-- VFCMP_NE (R158). -/
def execVfcmpNe (d : KReg) (a b : VReg) (k : KReg) (e : Fw) (_keep : Bool) (s : State) : Out :=
  floatCompare s d a b k e (fun f a b => !fEq f a b)

/-- VFCMP_LT (R158). -/
def execVfcmpLt (d : KReg) (a b : VReg) (k : KReg) (e : Fw) (_keep : Bool) (s : State) : Out :=
  floatCompare s d a b k e fLt

/-- VFCMP_LE (R158). -/
def execVfcmpLe (d : KReg) (a b : VReg) (k : KReg) (e : Fw) (_keep : Bool) (s : State) : Out :=
  floatCompare s d a b k e fLe

/-! ## Select, move and immediates (R160, R161) -/

/-- VSEL (R160). -/
def execVsel (d a b : VReg) (k : KReg) (e : Ew) (_keep : Bool) (s : State) : Out :=
  vecToVec s d [d, a, b] false 2 fun x v =>
    { val := (v d &&& v a) ||| (~~~(v d) &&& v b), mask := activeMask (x.rk k) e.bits e.count }

/-- VMOV (R160). -/
def execVmov (d a : VReg) (k : KReg) (e : Ew) (_keep : Bool) (s : State) : Out :=
  intOp1 s d a k e (fun _ a => a)

/-- VMOVI (R161). -/
def execVmovi (d : VReg) (i : BitVec 13) (k : KReg) (e : Ew) (s : State) : Out :=
  vecToVec s d [] false 2 fun x _ =>
    laneMap (x.rk k) e.bits e.count fun _ => (imm13 i).toNat % 2 ^ e.bits

/-! ## Mask operations (R159) -/

/-- KAND (R159). -/
def execKand (d a b : KReg) (s : State) : Out :=
  vecToMask s d [] 2 fun x _ => x.rk a &&& x.rk b

/-- KOR (R159). -/
def execKor (d a b : KReg) (s : State) : Out :=
  vecToMask s d [] 2 fun x _ => x.rk a ||| x.rk b

/-- KXOR (R159). -/
def execKxor (d a b : KReg) (s : State) : Out :=
  vecToMask s d [] 2 fun x _ => x.rk a ^^^ x.rk b

/-- KANDN (R159). -/
def execKandn (d a b : KReg) (s : State) : Out :=
  vecToMask s d [] 2 fun x _ => x.rk a &&& ~~~x.rk b

/-- KNOT (R159). -/
def execKnot (d a : KReg) (s : State) : Out :=
  vecToMask s d [] 2 fun x _ => ~~~x.rk a

/-- KPOP (R159). -/
def execKpop (d : XReg) (a : KReg) (s : State) : Out :=
  vecToX s d [] false 2 fun x _ => BitVec.ofNat 64 (popc64 (x.rk a))

/-- KFIRST (R159). -/
def execKfirst (d : XReg) (a : KReg) (s : State) : Out :=
  vecToX s d [] false 2 fun x _ => BitVec.ofNat 64 (ctz64 (x.rk a))

/-- KSET (R159). -/
def execKset (d : KReg) (a : XReg) (s : State) : Out :=
  vecToMask s d [] 2 fun x _ => x.rx a

end Sys2Proof.Machine
end

