-- ==== Sys2Proof/Machine/VectorFloat.lean ====
section
/-! DEFINITION. Class V floating arithmetic (R156, R157). -/

namespace Sys2Proof.Machine

/-- A floating word of two vector sources, rounded under FRM. -/
def floatOp (s : State) (d a b : VReg) (k : KReg) (e : Fw) (f : FloatFmt → Rm → Nat → Nat → Nat × FlagSet) : Out :=
  vecToVec (float := true) s d [a, b] false 4 fun x v =>
    laneMapF (x.rk k) e.bits e.count fun i => f (fwFloat e) x.rm (elem (v a) e.bits i) (elem (v b) e.bits i)

/-- A floating word without flags. -/
def floatOp1 (s : State) (d a : VReg) (k : KReg) (e : Fw) (f : FloatFmt → Nat → Nat) : Out :=
  vecToVec (float := true) s d [a] false 4 fun x v => laneMap (x.rk k) e.bits e.count fun i => f (fwFloat e) (elem (v a) e.bits i)

/-- A fused word: ±(a × b) ± the old vd. -/
def fusedOp (s : State) (d a b : VReg) (k : KReg) (e : Fw) (negP negC : Bool) : Out :=
  vecToVec (float := true) s d [d, a, b] false 4 fun x v =>
    laneMapF (x.rk k) e.bits e.count fun i =>
      fFma (fwFloat e) x.rm negP negC (elem (v a) e.bits i) (elem (v b) e.bits i) (elem (v d) e.bits i)

/-- An FP32 function of R157, correctly rounded under FRM. -/
def mathOp (s : State) (d a : VReg) (k : KReg) (f : Num → Num × FlagSet) : Out :=
  vecToVec (float := true) s d [a] false 8 fun x v =>
    laneMapF (x.rk k) 32 64 fun i => fp32Of x.rm (f (value32 (elem (v a) 32 i)))

/-- VFADD (R156). -/
def execVfadd (d a b : VReg) (k : KReg) (e : Fw) (_keep : Bool) (s : State) : Out :=
  floatOp s d a b k e fAdd

/-- VFSUB (R156). -/
def execVfsub (d a b : VReg) (k : KReg) (e : Fw) (_keep : Bool) (s : State) : Out :=
  floatOp s d a b k e fSub

/-- VFMUL (R156). -/
def execVfmul (d a b : VReg) (k : KReg) (e : Fw) (_keep : Bool) (s : State) : Out :=
  floatOp s d a b k e fMul

/-- VFABD (R156). -/
def execVfabd (d a b : VReg) (k : KReg) (e : Fw) (_keep : Bool) (s : State) : Out :=
  floatOp s d a b k e fAbd

/-- VFMA (R156). -/
def execVfma (d a b : VReg) (k : KReg) (e : Fw) (_keep : Bool) (s : State) : Out :=
  fusedOp s d a b k e false false

/-- VFMS (R156). -/
def execVfms (d a b : VReg) (k : KReg) (e : Fw) (_keep : Bool) (s : State) : Out :=
  fusedOp s d a b k e false true

/-- VFNMA (R156). -/
def execVfnma (d a b : VReg) (k : KReg) (e : Fw) (_keep : Bool) (s : State) : Out :=
  fusedOp s d a b k e true false

/-- VFNMS (R156). -/
def execVfnms (d a b : VReg) (k : KReg) (e : Fw) (_keep : Bool) (s : State) : Out :=
  fusedOp s d a b k e true true

/-- VFMIN (R156). -/
def execVfmin (d a b : VReg) (k : KReg) (e : Fw) (_keep : Bool) (s : State) : Out :=
  floatOp s d a b k e (fun f _ a b => (fMin f a b, 0))

/-- VFMAX (R156). -/
def execVfmax (d a b : VReg) (k : KReg) (e : Fw) (_keep : Bool) (s : State) : Out :=
  floatOp s d a b k e (fun f _ a b => (fMax f a b, 0))

/-- VFNEG (R156). -/
def execVfneg (d a : VReg) (k : KReg) (e : Fw) (_keep : Bool) (s : State) : Out :=
  floatOp1 s d a k e fNeg

/-- VFABS (R156). -/
def execVfabs (d a : VReg) (k : KReg) (e : Fw) (_keep : Bool) (s : State) : Out :=
  floatOp1 s d a k e fAbs

/-- VFDIV (R157). -/
def execVfdiv (d a b : VReg) (k : KReg) (_keep : Bool) (s : State) : Out :=
  vecToVec (float := true) s d [a, b] false 8 fun x v =>
    laneMapF (x.rk k) 32 64 fun i => fp32Of x.rm (divNum (value32 (elem (v a) 32 i)) (value32 (elem (v b) 32 i)))

/-- VFSQRT (R157). -/
def execVfsqrt (d a : VReg) (k : KReg) (_keep : Bool) (s : State) : Out :=
  mathOp s d a k sqrtNum

/-- VFRCP (R157). -/
def execVfrcp (d a : VReg) (k : KReg) (_keep : Bool) (s : State) : Out :=
  mathOp s d a k rcpNum

/-- VFRSQ (R157). -/
def execVfrsq (d a : VReg) (k : KReg) (_keep : Bool) (s : State) : Out :=
  mathOp s d a k rsqNum

/-- VFEXP2 (R157). -/
def execVfexp2 (d a : VReg) (k : KReg) (_keep : Bool) (s : State) : Out :=
  mathOp s d a k exp2Num

/-- VFLOG2 (R157). -/
def execVflog2 (d a : VReg) (k : KReg) (_keep : Bool) (s : State) : Out :=
  mathOp s d a k log2Num

/-- VFTANH (R157). -/
def execVftanh (d a : VReg) (k : KReg) (_keep : Bool) (s : State) : Out :=
  mathOp s d a k tanhNum

/-- VFSIGM (R157). -/
def execVfsigm (d a : VReg) (k : KReg) (_keep : Bool) (s : State) : Out :=
  mathOp s d a k sigmNum

end Sys2Proof.Machine
end

