-- ==== Sys2Proof/Machine/VectorMove.lean ====
section
/-! DEFINITION. Class V words that move elements, reduce, convert, pack, look up and scale (R162 to R168). -/

namespace Sys2Proof.Machine

/-! ## Moving elements (R162, R163) -/

/-- VBCAST (R162). -/
def execVbcast (d : VReg) (b : XReg) (k : KReg) (e : Ew) (s : State) : Out :=
  vecToVec s d [] false 3 fun x _ =>
    laneMap (x.rk k) e.bits e.count fun _ => (x.rx b).toNat % 2 ^ e.bits

/-- VINS (R162). The other elements keep what the register holds when the word lands (log 96). -/
def execVins (d : VReg) (a b : XReg) (e : Ew) (s : State) : Out :=
  vecToVec s d [d] false 3 fun x _ =>
    let i := (x.rx a).toNat % e.count
    { val := BitVec.ofNat 2048 ((x.rx b).toNat % 2 ^ e.bits) <<< (e.bits * i)
      mask := BitVec.ofNat 2048 (2 ^ e.bits - 1) <<< (e.bits * i) }

/-- VEXT (R162). -/
def execVext (d : XReg) (a : VReg) (b : XReg) (e : Ew) (_keep : Bool) (s : State) : Out :=
  vecToX s d [a] true 3 fun x v => BitVec.ofNat 64 (elem (v a) e.bits ((x.rx b).toNat % e.count))

/-- VSLIDE (R162). -/
def execVslide (d a : VReg) (b : XReg) (k : KReg) (e : Ew) (_keep : Bool) (s : State) : Out :=
  vecToVec s d [d, a] true 3 fun x v =>
    laneMap (x.rk k) e.bits e.count fun i =>
      let j : Int := i + (x.rx b).toInt
      if 0 ≤ j ∧ j < e.count then elem (v a) e.bits j.toNat else elem (v d) e.bits i

/-- A permutation of one or two sources: f gives the element from the sources, the count and the place. -/
def permute (s : State) (d : VReg) (reads : List VReg) (k : KReg) (e : Ew)
    (f : Hart → (VReg → Nat → Nat) → Nat → Nat → Nat) : Out :=
  vecToVec s d reads true 3 fun x v =>
    laneMap (x.rk k) e.bits e.count fun i => f x (fun r => elem (v r) e.bits) e.count i

/-- VPERM (R163). -/
def execVperm (d a b : VReg) (k : KReg) (e : Ew) (_keep : Bool) (s : State) : Out :=
  permute s d [a, b] k e fun _ el n i => el a (el b i % n)

/-- VROT (R163). -/
def execVrot (d a : VReg) (b : XReg) (k : KReg) (e : Ew) (_keep : Bool) (s : State) : Out :=
  permute s d [a] k e fun x el n i => el a ((i + (x.rx b).toNat) % n)

/-- VZIP (R163). -/
def execVzip (d a b : VReg) (k : KReg) (e : Ew) (_keep : Bool) (s : State) : Out :=
  permute s d [a, b] k e fun _ el _ i => if i % 2 = 0 then el a (i / 2) else el b (i / 2)

/-- VUNZIP (R163). -/
def execVunzip (d a b : VReg) (k : KReg) (e : Ew) (_keep : Bool) (s : State) : Out :=
  permute s d [a, b] k e fun _ el n i => if i < n / 2 then el a (2 * i) else el b (2 * i - n)

/-! ## Reductions (R110, R164) -/

/-- The inputs of a reduction: an inactive element is the identity. -/
def reduceInputs (m : Word) (ew n id : Nat) (v : VWord) : List Nat :=
  (List.range n).map (fun i => if active m ew i then elem v ew i else id)

/-- A reduction writes its result to element 0 and 0 to the others. -/
def reduction (s : State) (d a : VReg) (k : KReg) (ew n id : Nat) (f : Rm → Nat → Nat → Nat × FlagSet) (float : Bool := false) : Out :=
  vecToVec (float := float) s d [a] true 6 fun x v =>
    let r := reduceTree (f x.rm) (Nat.log2 n) (reduceInputs (x.rk k) ew n id (v a)) 0
    { val := BitVec.ofNat 2048 (r.1.headD 0), mask := BitVec.allOnes 2048, fl := r.2 }

/-- VRSUM (R164). -/
def execVrsum (d a : VReg) (k : KReg) (e : Ew) (_keep : Bool) (s : State) : Out :=
  reduction s d a k e.bits e.count 0 (fun _ a b => (vAdd e.bits a b, 0))

/-- VRMAX (R164). -/
def execVrmax (d a : VReg) (k : KReg) (e : Ew) (_keep : Bool) (s : State) : Out :=
  reduction s d a k e.bits e.count (2 ^ (e.bits - 1)) (fun _ a b => (vMax e.bits a b, 0))

/-- VRFMAX (R164). -/
def execVrfmax (d a : VReg) (k : KReg) (e : Fw) (_keep : Bool) (s : State) : Out :=
  reduction (float := true) s d a k e.bits e.count ((fwFloat e).infPat true) (fun _ a b => (fMax (fwFloat e) a b, 0))

/-- VRMIN (R164). -/
def execVrmin (d a : VReg) (k : KReg) (e : Ew) (_keep : Bool) (s : State) : Out :=
  reduction s d a k e.bits e.count (2 ^ (e.bits - 1) - 1) (fun _ a b => (vMin e.bits a b, 0))

/-- VRFMIN (R164). -/
def execVrfmin (d a : VReg) (k : KReg) (e : Fw) (_keep : Bool) (s : State) : Out :=
  reduction (float := true) s d a k e.bits e.count ((fwFloat e).infPat false) (fun _ a b => (fMin (fwFloat e) a b, 0))

/-- VRFSUM (R164). -/
def execVrfsum (d a : VReg) (k : KReg) (e : Fw) (_keep : Bool) (s : State) : Out :=
  reduction (float := true) s d a k e.bits e.count ((fwFloat e).signBit true) (fun rm a b => fAdd (fwFloat e) rm a b)

/-! ## Conversion, packing, lookup and scaling (R165 to R168) -/

/-- A format's width rounded up to a power of two (R165). -/
def padded (f : Fmt) : Nat := if f.bits = 6 then 8 else f.bits

/-- Elements of n places of width wt: f gives a pattern with flags and TERNBAD where on, the mask covers these places and
every bit from n × wt up. -/
def spread (wt n : Nat) (on : Nat → Bool) (f : Nat → Nat × FlagSet × Bool) : Lanes :=
  let r := (List.range n).map (fun i => if on i then f i else (0, 0, false))
  { val := packElems wt (r.map (·.1))
    mask := packElems wt ((List.range n).map (fun i => if on i then 2 ^ wt - 1 else 0))
      ||| (BitVec.allOnes 2048 <<< (n * wt))
    fl := r.foldl (fun t x => t ||| x.2.1) 0
    tern := r.any (·.2.2) }

/-- VCVT's lanes. -/
def convertLanes (m : Word) (v : VWord) (src dst : Fmt) (rm : Rm) (sat : Bool) : Lanes :=
  let n := 2048 / Nat.max (padded src) (padded dst)
  spread dst.bits n (fun i => m.getLsbD (i % 64)) fun i => convertElem src dst 0 rm sat (elem v src.bits i)

/-- VCVT (R165). -/
def execVcvt (d a : VReg) (src dst : Fmt) (rm : Rm) (sat : Bool) (k : Fin 4) (s : State) : Out :=
  vecToVec (float := true) s d [a] false 3 fun x v => convertLanes (x.rk (k.castLE (by decide))) (v a) src dst rm sat

/-- VPACK (R166). -/
def execVpack (d a : VReg) (nf : Fmt) (k : KReg) (e : Ew) (_keep : Bool) (s : State) : Out :=
  vecToVec s d [a] true 3 fun x v =>
    spread nf.bits e.count (active (x.rk k) e.bits) fun i => (intToInt nf true (elemS (v a) e.bits i), 0, false)

/-- VUNPK (R166). -/
def execVunpk (d a : VReg) (nf : Fmt) (k : KReg) (e : Ew) (_keep : Bool) (s : State) : Out :=
  vecToVec s d [a] true 3 fun x v =>
    spread e.bits e.count (active (x.rk k) e.bits) fun i =>
      let p := elem (v a) nf.bits i
      (wrapTo e.bits (intValue nf p), 0, nf == .t2 && p == 2)

/-- VLUT (R167). -/
def execVlut (d a b : VReg) (k : KReg) (e : Fw) (_keep : Bool) (s : State) : Out :=
  vecToVec (float := true) s d [a, b] false 3 fun x v =>
    laneMapF (x.rk k) e.bits e.count fun i =>
      floatToFloat (fwFloat e) x.rm false (FloatFmt.bf16.value (elem (v b) 16 (elem (v a) 4 i)))

/-- VSCALE (R168). -/
def execVscale (d a : VReg) (b : XReg) (k : KReg) (e : Fw) (_keep : Bool) (s : State) : Out :=
  vecToVec (float := true) s d [a] false 3 fun x v =>
    laneMapF (x.rk k) e.bits e.count fun i =>
      fScale (fwFloat e) x.rm (elem (v a) e.bits i) ((x.rx b).setWidth 16).toInt

end Sys2Proof.Machine
end

