-- ==== Sys2Proof/Machine/Sequencer.lean ====
section
/-! DEFINITION. The matrix unit's command sequencer (R169 to R173, R175 to R177, R183 to R189, R268): what a command
computes, when it starts and retires, and the late faults it raises. -/

namespace Sys2Proof.Machine

/-! ## Commands -/

/-- The kinds of command, with what the sequencer asks of each. -/
inductive CmdKind where
  /-- MMA and MMAS: sparse N (0 for dense), accumulator, rings, formats, pops. -/
  | mma (n : Nat) (c : AccNo) (a b : RingNo) (fa fb : Fmt) (popA popB : Bool)
  | zero (c : AccNo)
  | macc (c : AccNo) (int : Bool) (s : AccNo)
  | drain (c : AccNo) (v : VReg) (tf : Fmt) (rm : Rm) (sat : Bool) (row : Nat)
  | drains (c : AccNo) (tf : Fmt) (rm : Rm) (sat : Bool) (row : Nat)
  /-- MCHAIN: mode 0 send, 1 receive, 2 relay. -/
  | chain (mode : Nat) (c : AccNo) (rows : Nat) (int : Bool) (row : Nat)
  | other
  deriving DecidableEq, Repr

/-- The kind of a command's word; the rows field holds rows − 1 (R174). -/
def Command.kind (c : Command) : CmdKind :=
  match c.instr with
  | .mma a ra rb fa fb pa pb _ => .mma 0 a ra rb fa fb pa pb
  | .mmasN6 a ra rb fa fb pa pb _ => .mma 6 a ra rb fa fb pa pb
  | .mmasN8 a ra rb fa fb pa pb _ => .mma 8 a ra rb fa fb pa pb
  | .mmasN12 a ra rb fa fb pa pb _ => .mma 12 a ra rb fa fb pa pb
  | .mzero a => .zero a
  | .macc a i s => .macc a i s
  | .mdrain a v tf rm sat row => .drain a v tf rm sat row.val
  | .mdrains a _ tf rm sat row => .drains a tf rm sat row.val
  | .mchainSend a rows row => .chain 0 a (rows.val + 1) false row.val
  | .mchainRecv a rows i row => .chain 1 a (rows.val + 1) i row.val
  | .mchainRelay a rows i row => .chain 2 a (rows.val + 1) i row.val
  | _ => .other

namespace CmdKind

/-- The accumulators a command names, and the one it writes (R170). -/
def names : CmdKind → List AccNo
  | mma _ c .. => [c]
  | zero c => [c]
  | macc c _ s => [c, s]
  | drain c .. => [c]
  | drains c .. => [c]
  | chain _ c .. => [c]
  | other => []
def writes : CmdKind → Option AccNo
  | mma _ c .. => some c
  | zero c => some c
  | macc c .. => some c
  | chain m c .. => if m = 0 then none else some c
  | _ => none
/-- The rings a command names, and how it pops a ring (R177, R178). -/
def ringsOf : CmdKind → List RingNo
  | mma _ _ a b .. => [a, b]
  | _ => []
def pops (k : CmdKind) (r : RingNo) : Bool :=
  match k with
  | mma _ _ a b _ _ pa pb => (a == r && pa) || (b == r && pb)
  | _ => false
def isMma : CmdKind → Bool
  | mma .. => true
  | _ => false

end CmdKind

/-! ## Accumulators -/

/-- Element (m, n) at index 64m + n. -/
def Acc.get (a : Acc) (i : Nat) : Fx := BitVec.ofNat 48 (a.toNat / 2 ^ (48 * i))
/-- An accumulator of 2,048 elements. -/
def Acc.of (l : List Fx) : Acc := BitVec.ofNat 98304 (l.foldr (fun x t => x.toNat + t * 2 ^ 48) 0)
/-- n rows from a row on, as row 0 and up of a message, and back. -/
def Acc.rows (a : Acc) (row n : Nat) : Acc := BitVec.ofNat 98304 (a.toNat / 2 ^ (3072 * row) % 2 ^ (3072 * n))
/-- Rows row to row + n − 1 replaced by f of the index in the accumulator. -/
def Acc.mapRows (a : Acc) (row n : Nat) (f : Nat → Fx) : Acc :=
  Acc.of ((List.range 2048).map (fun i => if 64 * row ≤ i ∧ i < 64 * (row + n) then f i else a.get i))

/-- MSTAT.ACCINT of an accumulator (R185). -/
def Tile.accInt (x : Tile) (c : AccNo) : Bool := x.mstat.getLsbD (16 + c.val)
/-- An accumulator is written, with its ACCINT bit. -/
def Tile.setAcc (x : Tile) (c : AccNo) (a : Acc) (int : Bool) : Tile :=
  { x with
    acc := x.acc.set c a
    mstat := setField x.mstat (16 + c.val) 1 int.toNat }

/-! ## Operand tiles (R107, R112, R113, R175, R176) -/

/-- The formats in the groups of R176: 0 F32, 1 F16, 2 F8, 3 F4, 4 I16, 5 I8, 6 I4, 7 I2. -/
def fmtGroup : Fmt → Nat
  | .fp32 => 0 | .bf16 => 1 | .fp16 => 1 | .e5m2 => 2 | .e4m3 => 2 | .e3m2 => 2 | .e2m3 => 2 | .e2m1 => 3 | .lut4 => 3
  | .i16 => 4 | .i8 => 5 | .ui8 => 5 | .i4 => 6 | .ui4 => 6 | .i2 => 7 | .t2 => 7
/-- The accepted pairs of R176. -/
def pairOk (fa fb : Fmt) : Bool :=
  let a := fmtGroup fa
  let b := fmtGroup fb
  if a = 0 ∨ b = 0 then a == b
  else if a = 4 ∨ b = 4 then 4 ≤ a && 4 ≤ b
  else true
/-- The cycle figure of a format. -/
def fmtCycles (f : Fmt) : Nat :=
  match fmtGroup f with
  | 0 => 96 | 1 => 24 | 2 => 12 | 3 => 6 | 4 => 48 | 5 => 12 | 6 => 6 | _ => 3
/-- The cycle count of an MMA, and of an MMAS.Nn (R176). -/
def mmaCycles (n : Nat) (fa fb : Fmt) : Nat :=
  let c := Nat.max (fmtCycles fa) (fmtCycles fb)
  if n = 0 then c else (c * n + 11) / 12

/-- Element bytes of an A tile, and of a B tile (R175). -/
def elemBytesA (n : Nat) (f : Fmt) : Nat := if n = 0 then 192 * f.bits else 8 * n * f.bits + 40 * n
def elemBytesB (f : Fmt) : Nat := 384 * f.bits
/-- Where the scales begin. -/
def scaleAt (e : Nat) : Nat := (e + 31) / 32 * 32
/-- Bytes a tile needs. -/
def tileNeed (e : Nat) (scale : Bool) (scaleBytes : Nat) : Nat := scaleAt e + (if scale then scaleBytes else 0)

/-- b bits at bit position i of a byte string read as a number. -/
def bitsAt (s : Nat) (i b : Nat) : Nat := s / 2 ^ i % 2 ^ b

/-- The index of slot j of row m, group g of an N-of-24 tile (R112). -/
def sparseIndex (str n bits m g j : Nat) : Nat := bitsAt str (64 * n * bits + 5 * ((2 * m + g) * n + j)) 5
/-- The first row and group whose indices are not strictly ascending below 24 (R113). -/
def sparseBad (str n bits : Nat) : Option (Nat × Nat) :=
  (List.range 64).findSome? (fun i =>
    let ix := (List.range n).map (sparseIndex str n bits (i / 2) (i % 2))
    if ix.all (· < 24) && (List.range (n - 1)).all (fun j => ix.getD j 0 < ix.getD (j + 1) 0) then none
    else some (i / 2, i % 2))

/-- Num's +0. -/
def zeroNum : Num := .fin false 0 0 false

/-- Element k of row m of an A tile with its block scale and the operation's scale (R107): a zero where no slot of a
sparse tile stores it. -/
def aValue (n : Nat) (f : Fmt) (cb : BitVec 256) (sc : Option Nat) (s : Num) (str m k : Nat) : Num :=
  let v : Num :=
    if n = 0 then (elemValue f cb (bitsAt str ((48 * m + k) * f.bits) f.bits)).1
    else match (List.range n).find? (fun j => sparseIndex str n f.bits m (k / 24) j == k % 24) with
      | none => zeroNum
      | some j => (elemValue f cb (bitsAt str (((2 * m + k / 24) * n + j) * f.bits) f.bits)).1
  let v := match sc with
    | none => v
    | some at0 => (mulNum v (e8m0 (bitsAt str (8 * (at0 + 2 * m + k / 24)) 8))).1
  (mulNum v s).1
/-- Element k of column n of a B tile with its block scale. -/
def bValue (f : Fmt) (cb : BitVec 256) (sc : Option Nat) (str k n : Nat) : Num :=
  let v := (elemValue f cb (bitsAt str ((64 * k + n) * f.bits) f.bits)).1
  match sc with
  | none => v
  | some at0 => (mulNum v (e8m0 (bitsAt str (8 * (at0 + 64 * (k / 24) + n)) 8))).1

/-- The integer elements of the tiles (R95). -/
def aInt (n : Nat) (f : Fmt) (str m k : Nat) : Int :=
  if n = 0 then intValue f (bitsAt str ((48 * m + k) * f.bits) f.bits)
  else match (List.range n).find? (fun j => sparseIndex str n f.bits m (k / 24) j == k % 24) with
    | none => 0
    | some j => intValue f (bitsAt str (((2 * m + k / 24) * n + j) * f.bits) f.bits)
def bInt (f : Fmt) (str k n : Nat) : Int := intValue f (bitsAt str ((64 * k + n) * f.bits) f.bits)

/-- Some of the first n elements of a tile is TERN2 pattern 10 (R91). -/
def anyTern (f : Fmt) (str n : Nat) : Bool := f == .t2 && (List.range n).any (fun i => bitsAt str (2 * i) 2 == 2)

/-! ## Faults (R172, R173, R326) -/

/-- A command's fault: it and every later one stay in the sequencer, held from the time the owner strand takes the fault
(R172, R326). -/
def State.cmdFault (s : State) (t : Nat) (c : Command) (cause : Cause) (low : Nat) (faddr : BitVec 48) : State :=
  let x := s.tile t
  let stays := x.cmds.filter (fun d => d.org.order < c.org.order)
  let goes := (x.cmds.filter (fun d => !(d.org.order < c.org.order))).map (fun d => { d with started := none, starved := none, parked := some c.org.order })
  let s := s.setTile t { x with cmds := stays, held := x.held ++ goes }
  s.mapHart (4 * t + c.strand.val) (·.addLate
    { cause := cause, tval := BitVec.ofNat 64 low ||| pcHigh c.org.pc, faddr := faddr, replay := true, org := c.org })

/-- FORMAT with its subcode and a ring or accumulator number. -/
def State.cmdFormat (s : State) (t : Nat) (c : Command) (sub num : Nat) : State := s.cmdFault t c cFORMAT (sub + 256 * num) 0

/-- FORMAT under subcode 1 or 5: the manual does not say which of the word's numbers it names, so the number is free. -/
def State.cmdFormatFree (s : State) (t : Nat) (c : Command) (sub : Nat) : State :=
  let (n, s) := s.draw 8
  s.cmdFormat t c sub n.toNat

/-! ## Where a PUTQ goes (R22, R212) -/

namespace Target

def addr (v : Word) : Nat := v.toNat % 2 ^ 48
def pkg (v : Word) : Nat := v.toNat / 2 ^ 48 % 2 ^ 13
/-- INBOX, and the bit that must be zero. -/
def inbox (v : Word) : Bool := v.getLsbD 62
def bad (v : Word) : Bool := v.getLsbD 63
/-- It lies on another package than number n. -/
def remote (v : Word) (n : Nat) : Bool := v.getLsbD 61 && pkg v != n
def tile (v : Word) : Nat := v.toNat % 512

end Target

/-- The queue or inbox that a PUTQ names: on another package, by the descriptor's fields there; on this one, the tile of an inbox
or the place of a queue's header, whatever name it is given; a descriptor that names none, or a header without a place, as it
stands. -/
inductive Goal where
  | remote (pkg : Nat) (inbox : Bool) (n : Nat)
  | inbox (u : Nat)
  | queue (l : Loc)
  | unplaced (v : Word)
  deriving DecidableEq, Repr

/-- The goal of a PUTQ. -/
def State.goal (s : State) (m : PutqMsg) : Goal :=
  let v := m.target
  if Target.bad v then .unplaced v
  else if Target.remote v s.pkgnum then
    .remote (Target.pkg v) (Target.inbox v) (if Target.inbox v then Target.tile v else Target.addr v / 64)
  else if Target.inbox v then .inbox (Target.tile v)
  else
    let t : Option Nat := if isT m.hart then some (tileOf m.hart) else none
    match (s.placePart (s.requester m.hart m.priv) t .store false (Target.addr v / 64 * 64, 64)).1 with
    | .ok l => .queue l
    | .error _ => .unplaced (BitVec.ofNat 64 (Target.addr v / 64 * 64))

/-- The tile on which that queue or inbox is. -/
def State.goalTile (s : State) (m : PutqMsg) : Option Nat :=
  match s.goal m with
  | .inbox u => some u
  | .queue (.scratch u _) => some u
  | .queue (.phys _) | .remote .. | .unplaced _ => none

/-- The PUTQs of tile t for tile u that have left and are not delivered, by sender and issue order. -/
def State.putqsFor (s : State) (t u : Nat) : List (Nat × Nat) :=
  (s.putqs.filter (fun m => isT m.hart && tileOf m.hart == t && s.goalTile m == some u)).map (fun m => (m.hart, m.order))

/-! ## Starting (R170, R173, R176, R177, R183, R186, R189) -/

/-- Tiles that earlier unretired commands will pop from a ring (R177). -/
def popsBefore (earlier : List Command) (r : RingNo) : Nat := (earlier.filter (fun c => c.kind.pops r)).length
/-- The tile an operand reads, and whether it is available. -/
def Ring.tileNo (r : Ring) (p : Nat) : BitVec 32 := r.head + BitVec.ofNat 32 p
def Ring.available (r : Ring) (p : Nat) : Bool := r.cfg == 0 || decide (p < r.held)

/-- The bytes of the tile as one number, or none with its address when they hold an uncorrectable error. -/
def State.tileString (s : State) (t : Nat) (r : Ring) (p n : Nat) : Except Nat Nat :=
  let off := r.slot (r.tileNo p)
  if s.readBad (.scratch t off) n then .error off else .ok (leNat (s.readLoc n (.scratch t off)))

/-- The command is started, at a place in its chain if it is an MCHAIN, and retires at a time. -/
def State.begin (s : State) (t : Nat) (c : Command) (retireAt : Nat) (f : Tile → Tile) (place : Option ChainPlace := none) : State :=
  s.mapTile t (fun x => f { x with
    cmds := x.cmds.map (fun d => if d.org.order == c.org.order then
      { d with started := some s.dtime, retireAt := retireAt, place := place, starved := none } else d) })

/-- Its tiles, or its message, are missing: RINGSTARVED once RINGTIME cycles have passed (R173). -/
def State.starve (s : State) (t : Nat) (c : Command) (num : Nat) : State :=
  match c.starved with
  | some since =>
    if since + 2 ^ domField (s.tile t).mstat 8 5 ≤ s.dtime then s.cmdFault t c cRINGSTARVED num 0 else s
  | none => s.mapTile t (fun x => { x with
      cmds := x.cmds.map (fun d => if d.org.order == c.org.order then { d with starved := some s.dtime } else d) })

/-- The checks of R183 before the tiles are read: subcode and ring, ring A of two (log 120), or subcode alone. -/
def mmaCheck (x : Tile) (n : Nat) (a b : RingNo) (fa fb : Fmt) (xs : Bool) : Option (Nat × Option Nat) :=
  let ra := x.rings[a]
  let rb := x.rings[b]
  if ra.cfg = 0 then some (2, some a.val) else if rb.cfg = 0 then some (2, some b.val)
  else if !pairOk fa fb || (n != 0 && fa == .fp32) then some (1, none)
  else if ra.tbytes < tileNeed (elemBytesA n fa) ra.scale 64 then some (3, some a.val)
  else if rb.tbytes < tileNeed (elemBytesB fb) rb.scale 128 then some (3, some b.val)
  else if ra.scale && fa.isInt then some (4, some a.val)
  else if rb.scale && fb.isInt then some (4, some b.val)
  else if fa.isInt && fb.isInt && xs then some (5, none)
  else none

/-- The xs field of a command of the MMA family is not x0. -/
def Command.scaled (c : Command) : Bool :=
  match c.instr with
  | .mma _ _ _ _ _ _ _ s => s != 0
  | .mmasN6 _ _ _ _ _ _ _ s => s != 0
  | .mmasN8 _ _ _ _ _ _ _ s => s != 0
  | .mmasN12 _ _ _ _ _ _ _ s => s != 0
  | _ => false

/-- An MMA or MMAS at the head of the commands that have not started. FADDR of its DATAERR is the address of its tile's slot (log 97); an
uncorrectable error comes before the indices of a sparse tile, and A before B (log 128). -/
def State.startMma (s : State) (t : Nat) (c : Command) (earlier : List Command) (n : Nat) (a b : RingNo) (fa fb : Fmt) :
    State :=
  let x := s.tile t
  let ra := x.rings[a]
  let rb := x.rings[b]
  let pa := popsBefore earlier a
  let pb := popsBefore earlier b
  if s.dtime < x.arrayFree then s
  else if ra.cfg != 0 && rb.cfg != 0 && !ra.available pa then s.starve t c a.val
  else if ra.cfg != 0 && rb.cfg != 0 && !rb.available pb then s.starve t c b.val
  else match mmaCheck x n a b fa fb c.scaled with
    | some (sub, some r) => s.cmdFormat t c sub r
    | some (sub, none) => s.cmdFormatFree t c sub
    | none =>
      match s.tileString t ra pa (tileNeed (elemBytesA n fa) ra.scale 64),
        s.tileString t rb pb (tileNeed (elemBytesB fb) rb.scale 128) with
      | .error off, _ => (s.found (.scratch t off) ra.tbytes).cmdFault t c cDATAERR 0 (BitVec.ofNat 48 (aliasBase + off))
      | _, .error off => (s.found (.scratch t off) rb.tbytes).cmdFault t c cDATAERR 0 (BitVec.ofNat 48 (aliasBase + off))
      | .ok sa, .ok _ =>
        match if n = 0 then none else sparseBad sa n fa.bits with
        | some (m, g) => s.cmdFault t c cSPARSEMETA (m + 256 * g) 0
        | none =>
          let k := mmaCycles n fa fb
          s.begin t c (s.dtime + k + 8) (fun x => { x with arrayFree := s.dtime + k })

/-- The address checks of an MDRAINS (R186): the local alias, its alignment, the tile's locks, in that order (log 93). -/
def State.drainsCheck (s : State) (t : Nat) (va : Word) (n : Nat) : Option Cause :=
  match classify va.toNat with
  | .own off =>
    if scratchSize < off + n then some cPERM
    else if va.toNat % Nat.min n 32 != 0 then some cMISALIGN
    else if (s.tile t).lockBars t va.toNat n true then some cRANGELOCK
    else if s.writeBad (.scratch t off) n then some cDATAERR
    else none
  | _ => some cPERM

/-- A chain position, the chain's length, and the tile at the next position (R268). -/
def State.chainPos (s : State) (t : Nat) : Nat × Nat × Option Nat :=
  let x := s.tile t
  let at1 := fun (lv : Level) (j p : Nat) => (j, p, (s.members t lv)[j + 1]?)
  match x.chlvl with
  | 1 => (x.cpos, x.csize, (s.members t .consist).find? (· == t + 1))
  | 2 => at1 .group (domField x.dommem 15 9) x.gsize
  | 3 => at1 .domain (domField x.dommem 34 9) x.dsize
  | _ => (0, 0, none)

/-- The form is used at a wrong position (R189, R268). -/
def chainWrong (mode j p : Nat) : Bool :=
  p == 0 || (p == 1 && mode != 2) || (p != 1 && ((mode == 0 && j + 1 == p) || (mode == 1 && j == 0)))
/-- It receives, it sends. -/
def chainRecv (mode j : Nat) : Bool := mode == 1 || (mode == 2 && j != 0)
def chainSend (mode j p : Nat) : Bool := mode == 0 || (mode == 2 && j + 1 < p)

/-- A started MCHAIN receives, it sends: by the place at which it has started. -/
def Command.receives (c : Command) : Bool :=
  match c.kind, c.place with
  | .chain mode .., some l => l.p != 1 && chainRecv mode l.j
  | _, _ => false
def Command.sends (c : Command) : Bool :=
  match c.kind, c.place with
  | .chain mode .., some l => l.p != 1 && chainSend mode l.j l.p
  | _, _ => false

/-- The message that a receiving command takes: one that no earlier command holds. -/
def Tile.message (x : Tile) (earlier : List Command) : Option ChainMsg := if earlier.any (·.receives) then none else x.chain

/-- The chain buffer of the next tile is empty and nothing of this tile is on its way to it, or is still to be sent by an earlier
command. -/
def State.chainFree (s : State) (t : Nat) (earlier : List Command) (next : Option Nat) : Bool :=
  match next with
  | none => false
  | some u => (s.tile u).chain.isNone && (s.tile t).chainOut.isNone && !earlier.any (·.sends)

/-- An MCHAIN at the head: its place in the chain is that of its start (R268). -/
def State.startChain (s : State) (t : Nat) (c : Command) (earlier : List Command) (mode : Nat) (acc : AccNo) (rows : Nat)
    (int : Bool) : State :=
  let x := s.tile t
  let (j, p, next) := s.chainPos t
  let free := fun (x : Tile) => { x with drainFree := s.dtime + 2 * rows }
  if chainWrong mode j p then s.cmdFormat t c 9 acc.val
  else if p = 1 then s.begin t c (s.dtime + 1) id (some ⟨j, p, next⟩)
  else
    match if chainRecv mode j then x.message earlier else some { rows := rows, int := int, data := 0 } with
    | none => s.starve t c 8
    | some m =>
      if m.rows != rows || m.int != int then (s.mapTile t (fun x => { x with chain := none })).cmdFormat t c 8 acc.val
      else if chainSend mode j p && !s.chainFree t earlier next then s
      else s.begin t c (s.dtime + 6 * rows) free (some ⟨j, p, next⟩)

/-- SEQ_COMMAND_START: the oldest command that has not started, when its conditions hold. The checks of an MDRAINS are made at its
start (log 129). -/
def State.seqStart (s : State) (t : Nat) : State :=
  let x := s.tile t
  let earlier := x.cmds.takeWhile (·.started.isSome)
  match x.cmds.drop earlier.length with
  | [] => s
  | c :: _ =>
    if !x.enginesOn || s.dtime ≤ c.issuedAt then s
    else
      let k := c.kind
      let named := earlier.any (fun d => d.kind.names.any (k.names.contains ·))
      let written := earlier.any (fun d => d.kind.writes.any (k.names.contains ·))
      match k with
      | .mma n _ a b fa fb _ _ => s.startMma t c earlier n a b fa fb
      | .zero _ => if named then s else s.begin t c (s.dtime + 1) id
      | .macc .. => if named then s else s.begin t c (s.dtime + 16) id
      | .drain .. =>
        if written || s.dtime < x.drainFree then s
        else s.begin t c (s.dtime + 6) (fun x => { x with drainFree := s.dtime + 2 })
      | .drains _ tf _ _ _ =>
        if written || s.dtime < x.drainFree then s
        else match s.drainsCheck t c.opnd (8 * tf.bits) with
          | some cause =>
            let s := if cause = cDATAERR then s.report (s.mergeFinds (.scratch t (c.opnd.toNat - aliasBase)) (8 * tf.bits)) else s
            s.cmdFault t c cause 0 (c.opnd.setWidth 48)
          | none => s.begin t c (s.dtime + 6) (fun x => { x with drainFree := s.dtime + 2 })
      | .chain mode acc rows int _ =>
        if written || s.dtime < x.drainFree then s else s.startChain t c earlier mode acc rows int
      | .other => s.begin t c s.dtime id

/-! ## Retiring (R107, R183, R184, R186, R187, R189) -/

/-- The command leaves the sequencer. -/
def Tile.leave (x : Tile) (c : Command) : Tile := { x with cmds := x.cmds.filter (·.org.order != c.org.order) }

/-- A ring's head after a pop. -/
def Tile.popRing (x : Tile) (r : RingNo) (pop : Bool) : Tile :=
  if pop then { x with rings := x.rings.set r { x.rings[r] with head := x.rings[r].head + 1 } } else x

/-- An MMA's sums, IOVF and TERNBAD (R95, R107). -/
def mmaSums (x : Tile) (n : Nat) (c : AccNo) (a b : RingNo) (fa fb : Fmt) (scale : Word) (sa sb : Nat) : Acc × Bool × Bool :=
  let ra := x.rings[a]
  let rb := x.rings[b]
  let old := x.acc[c]
  let tern := anyTern fa sa (if n = 0 then 1536 else 64 * n) || anyTern fb sb 3072
  if fa.isInt && fb.isInt then
    let ai := (List.range 32).map (fun m => (List.range 48).map (aInt n fa sa m))
    let bi := (List.range 64).map (fun j => (List.range 48).map (fun k => bInt fb sb k j))
    let r := (List.range 2048).map (fun i =>
      addInt48 (old.get i) ((List.zipWith (· * ·) (ai.getD (i / 64) []) (bi.getD (i % 64) [])).foldl (· + ·) 0))
    (Acc.of (r.map (·.1)), r.any (·.2), tern)
  else
    let s := FloatFmt.fp32.value (scale.toNat % 2 ^ 32)
    let sca := if ra.scale then some (scaleAt (elemBytesA n fa)) else none
    let scb := if rb.scale then some (scaleAt (elemBytesB fb)) else none
    let av := (List.range 32).map (fun m => (List.range 48).map (aValue n fa ra.codebook sca s sa m))
    let bv := (List.range 64).map (fun j => (List.range 48).map (fun k => bValue fb rb.codebook scb sb k j))
    let len := if fa = .fp32 ∨ fb = .fp32 then 1 else 8
    let r := (List.range 2048).map (fun i =>
      sumRuns len (48 / len) (List.zipWith (fun p q => (mulNum p q).1) (av.getD (i / 64) []) (bv.getD (i % 64) [])) (old.get i))
    (Acc.of r, false, tern)

/-- MMA_RETIRE. The accumulator is read here, not at the start (log 94). -/
def State.retireMma (s : State) (t : Nat) (c : Command) (n : Nat) (acc : AccNo) (a b : RingNo) (fa fb : Fmt)
    (popA popB : Bool) : State :=
  let x := s.tile t
  let str := fun (r : RingNo) (need : Nat) => leNat (s.readLoc need (.scratch t (x.rings[r].slot x.rings[r].head)))
  let (new, iovf, tern) := mmaSums x n acc a b fa fb c.opnd (str a x.rings[a].tbytes) (str b x.rings[b].tbytes)
  let x := ((x.setAcc acc new (fa.isInt && fb.isInt)).popRing a popA).popRing b popB
  s.setTile t ((x.leave c).stick (BitVec.ofBool tern ++ BitVec.ofBool iovf))

/-- The sum of two accumulators' elements: AddFX, or the integer sum with its overflow (R184, R189). -/
def accSum (int : Bool) (a b : Fx) : Fx × Bool := if int then addInt48 a b.toInt else (addFX a b, false)

/-- MACC_RETIRE. -/
def State.retireMacc (s : State) (t : Nat) (c : Command) (d : AccNo) (int : Bool) (src : AccNo) : State :=
  let x := s.tile t
  let r := (List.range 2048).map (fun i => accSum int (x.acc[d].get i) (x.acc[src].get i))
  s.setTile t (((x.setAcc d (Acc.of (r.map (·.1))) int).leave c).stick (if r.any (·.2) then 1 else 0))

/-- The packed row of a drain, with its flags (R106, R186). -/
def drainRow (x : Tile) (c : AccNo) (tf : Fmt) (rm : Rm) (sat : Bool) (row : Nat) : VWord × FlagSet :=
  let r := (List.range 64).map (fun n => drainElem (x.accInt c) tf rm sat (x.acc[c].get (64 * row + n)))
  (packElems tf.bits (r.map (·.1)), r.foldl (fun t p => t ||| p.2) 0)

/-- The push that a drain owes a port is filled (R186). -/
def PortCtx.fulfil (q : PortCtx) (order : Nat) (v : VWord) : PortCtx :=
  { q with pend := q.pend.map (fun u =>
      if u.owed == some order then { u with bytes := leBytes (q.w * q.l) v.toNat, owed := none } else u) }

/-- The result that a command owes its strand lands (R100, R186). -/
def Hart.receive (x : Hart) (c : Command) (v : VWord) (fl : FlagSet) : Hart :=
  let mine := x.flight.find? (·.org.order == c.org.order)
  let l : Landing := match mine with
    | some f => (match f.land with
      | .v r _ m => .v r v m
      | _ => .none)
    | none => .none
  let x : Hart := { x with
    flight := x.flight.filter (·.org.order != c.org.order)
    ports := x.ports.map (fun (q : PortCtx) => q.fulfil c.org.order v) }
  x.land true l fl (fl &&& c.en) c.org

/-- MDRAIN_RETIRE. -/
def State.retireDrain (s : State) (t : Nat) (c : Command) (a : AccNo) (tf : Fmt) (rm : Rm) (sat : Bool) (row : Nat) : State :=
  let r := drainRow (s.tile t) a tf rm sat row
  (s.mapTile t (·.leave c)).mapHart (4 * t + c.strand.val) (·.receive c r.1 r.2)

/-- MDRAINS_RETIRE. -/
def State.retireDrains (s : State) (t : Nat) (c : Command) (a : AccNo) (tf : Fmt) (rm : Rm) (sat : Bool) (row : Nat) : State :=
  let r := drainRow (s.tile t) a tf rm sat row
  let s := s.storeLoc (leBytes (8 * tf.bits) r.1.toNat) (.scratch t (c.opnd.toNat - aliasBase))
  (s.mapTile t (·.leave c)).mapHart (4 * t + c.strand.val) (·.receive c 0 r.2)

/-- CHAIN_SEND_DONE and CHAIN_RECEIVE_RETIRE: what arrived is added, and what is to be sent leaves, every row of it as it is now (R189;
log 94), for the next position of the chain as it was at the start (R268). -/
def State.retireChain (s : State) (t : Nat) (c : Command) (acc : AccNo) (rows : Nat) (int : Bool) (row : Nat) : State :=
  let x := s.tile t
  let x : Tile :=
    match if c.receives then x.chain else none with
    | none => x
    | some m =>
      let r := (List.range (64 * rows)).map (fun i => accSum int (m.data.get i) (x.acc[acc].get (64 * row + i)))
      let a := x.acc[acc].mapRows row rows (fun i => (r.getD (i - 64 * row) (0, false)).1)
      ({ x.setAcc acc a int with chain := none }).stick (if r.any (·.2) then 1 else 0)
  let x : Tile :=
    match if c.sends then c.place.bind (·.next) else none with
    | none => x
    | some u =>
      let m : ChainMsg :=
        { rows := rows, int := int, data := x.acc[acc].rows row rows, launch := x.launch, dst := u, behind := s.putqsFor t u }
      { x with chainOut := some m }
  s.setTile t (x.leave c)

/-- The oldest started command of a tile whose time has come, among those that p chooses, retires. -/
def State.seqRetire (s : State) (t : Nat) (p : Command → Bool) : State :=
  let x := s.tile t
  match x.cmds.find? (fun c => c.started.isSome && decide (c.retireAt ≤ s.dtime) && p c) with
  | none => s
  | some c =>
    match c.kind with
    | .mma n acc a b fa fb pa pb => s.retireMma t c n acc a b fa fb pa pb
    | .zero acc => s.setTile t ((x.setAcc acc 0 false).leave c)
    | .macc d i a => s.retireMacc t c d i a
    | .drain a _ tf rm sat row => s.retireDrain t c a tf rm sat row
    | .drains a tf rm sat row => s.retireDrains t c a tf rm sat row
    | .chain _ a rows i row => s.retireChain t c a rows i row
    | .other => s.setTile t (x.leave c)

/-- CHAIN_MESSAGE_ARRIVAL: the message that tile t has sent reaches its tile, whose buffer is empty (R189), after the PUTQs of tile t
for that tile that left before it (R22; log 133). -/
def State.chainArrive (s : State) (t : Nat) : State :=
  match (s.tile t).chainOut with
  | some m =>
    if (s.tile m.dst).chain.isSome || (s.tile m.dst).presence != .present
        || s.putqs.any (fun q => m.behind.contains (q.hart, q.order)) then s
    else (s.mapTile t (fun x => { x with chainOut := none })).mapTile m.dst (fun x => { x with chain := some m })
  | none => s

/-- The sequencer at the beginning of a cycle: everything due retires, and a message arrives. -/
def State.seqTick (s : State) (t : Nat) : State :=
  let x := s.tile t
  if x.cmds.isEmpty && x.chainOut.isNone then s
  else ((List.range x.cmds.length).foldl (fun s _ => s.seqRetire t (fun _ => true)) s).chainArrive t

/-- The sequencer after the issue of a cycle: everything that can start does. -/
def State.seqBegin (s : State) (t : Nat) : State :=
  (List.range (s.tile t).cmds.length).foldl (fun s _ => s.seqStart t) s

/-! ## The steps -/

/-- SEQ_COMMAND_START (R170). -/
def execSeqCommandStart (t : Nat) (s : State) : Out := onPackage s fun s => .next (s.seqStart t)
/-- MMA_RETIRE (R183). -/
def execMmaRetire (t : Nat) (s : State) : Out := onPackage s fun s => .next (s.seqRetire t (·.kind.isMma))
/-- MZERO_RETIRE (R184). -/
def execMzeroRetire (t : Nat) (s : State) : Out :=
  onPackage s fun s => .next (s.seqRetire t (fun c => match c.kind with | .zero _ => true | _ => false))
/-- MACC_RETIRE (R184). -/
def execMaccRetire (t : Nat) (s : State) : Out :=
  onPackage s fun s => .next (s.seqRetire t (fun c => match c.kind with | .macc .. => true | _ => false))
/-- MDRAIN_RETIRE (R186). -/
def execMdrainRetire (t : Nat) (s : State) : Out :=
  onPackage s fun s => .next (s.seqRetire t (fun c => match c.kind with | .drain .. => true | _ => false))
/-- MDRAINS_RETIRE (R187). -/
def execMdrainsRetire (t : Nat) (s : State) : Out :=
  onPackage s fun s => .next (s.seqRetire t (fun c => match c.kind with | .drains .. => true | _ => false))
/-- CHAIN_SEND_DONE: an MCHAIN that only sends retires when its last row has left (R189). -/
def execChainSendDone (t : Nat) (s : State) : Out :=
  onPackage s fun s => .next (s.seqRetire t (fun c => match c.kind with
    | .chain .. => !c.receives
    | _ => false))
/-- CHAIN_MESSAGE_ARRIVAL (R189). -/
def execChainMessageArrival (t : Nat) (s : State) : Out := onPackage s fun s => .next (s.chainArrive t)
/-- CHAIN_RECEIVE_RETIRE (R189). -/
def execChainReceiveRetire (t : Nat) (s : State) : Out :=
  onPackage s fun s => .next (s.seqRetire t (·.receives))
/-- RINGSTARVED: the command at the head has waited RINGTIME cycles (R173). -/
def execRingstarved (t : Nat) (s : State) : Out :=
  onPackage s fun s =>
    let x := s.tile t
    if x.cmds.any (fun c => match c.starved with
      | some since => decide (since + 2 ^ domField x.mstat 8 5 ≤ s.dtime)
      | none => false) then .next (s.seqStart t)
    else .next s

end Sys2Proof.Machine
end

