-- ==== Sys2Proof/Machine/Matrix.lean ====
section
/-! DEFINITION. Class X words at issue (R75, R169 to R171, R173, R174, R178 to R182, R188, R190). -/

namespace Sys2Proof.Machine

/-- A word of class X that a handler has issued drops the commands that are held, and REPLAY becomes 0 (R326). -/
def State.dropHeld (s : State) : State :=
  if s.me.priv = .user then s
  else
    let t := s.myTile
    let i := strandOf s.cur
    let gone := t.held.filter (fun c => c.strand == i && c.parked.isNone)
    let s := if gone.isEmpty then s else s.setMyTile { t with held := t.held.filter (fun c => c.strand != i || c.parked.isSome) }
    s.mapMe (fun x => { x.dropOwed gone with tstatus := x.tstatus &&& ~~~16#64 })

/-- A class X word: the owner's alone (R75), once its entry of the dispatch ring is free (R171). The manual states no
TVAL for MATOWN: it is a free value. -/
def matrixWord (s : State) (k : State → Out) : Out :=
  onT s fun s =>
    if s.myTile.owner.toNat ≠ (strandOf s.cur).val then
      let (v, s) := s.draw 64
      .next (s.trap cMATOWN v)
    else if s.dispatchBusy then .next s.hold
    else k s

/-- The word is dispatched and enters the sequencer with an operand (R169, R170). -/
def State.enterSeq (s : State) (i : Instr) (opnd : Word) : State :=
  let s := s.dispatch.dropHeld
  let c : Command :=
    { instr := i, opnd := opnd, strand := strandOf s.cur, org := s.originV, en := s.me.ftrap, issuedAt := s.dtime }
  s.setMyTile { s.myTile with cmds := s.myTile.cmds ++ [c] }

/-- A full sequencer holds the word at issue (R170). -/
def State.seqFull (s : State) : Bool := decide (16 ≤ s.myTile.cmds.length)

/-- A word that only enters the sequencer. -/
def command (s : State) (i : Instr) (opnd : Word) : Out :=
  matrixWord s fun s => if s.seqFull then .next s.hold else .next (s.enterSeq i opnd).advance

/-- The scale operand: x0 stands for 1.0 (R93). -/
def State.scaleOf (s : State) (r : XReg) : Word := if r.val = 0 then 0x3F800000 else s.rx r &&& 0xFFFFFFFF

/-- MMA (R183). -/
def execMma (c : AccNo) (a b : RingNo) (fa fb : Fmt) (popA popB : Bool) (x : XReg) (s : State) : Out :=
  command s (.mma c a b fa fb popA popB x) (s.scaleOf x)
/-- MMAS_N6 (R183). -/
def execMmasN6 (c : AccNo) (a b : RingNo) (fa fb : Fmt) (popA popB : Bool) (x : XReg) (s : State) : Out :=
  command s (.mmasN6 c a b fa fb popA popB x) (s.scaleOf x)
/-- MMAS_N8 (R183). -/
def execMmasN8 (c : AccNo) (a b : RingNo) (fa fb : Fmt) (popA popB : Bool) (x : XReg) (s : State) : Out :=
  command s (.mmasN8 c a b fa fb popA popB x) (s.scaleOf x)
/-- MMAS_N12 (R183). -/
def execMmasN12 (c : AccNo) (a b : RingNo) (fa fb : Fmt) (popA popB : Bool) (x : XReg) (s : State) : Out :=
  command s (.mmasN12 c a b fa fb popA popB x) (s.scaleOf x)
/-- MZERO (R184). -/
def execMzero (c : AccNo) (s : State) : Out := command s (.mzero c) 0
/-- MACC (R184). -/
def execMacc (c : AccNo) (int : Bool) (a : AccNo) (s : State) : Out := command s (.macc c int a) 0

/-- MDRAIN: a result in flight, or a push, that the command owes (R186). -/
def execMdrain (c : AccNo) (v : VReg) (tf : Fmt) (rm : Rm) (sat : Bool) (row : Fin 32) (s : State) : Out :=
  matrixWord s fun s =>
    s.withPorts [] (some v) s.seqFull true fun s _ =>
      let s := s.enterSeq (.mdrain c v tf rm sat row) 0
      match portOf v with
      | some p => .next (s.push p 0 (BitVec.allOnes 2048) (some s.me.issued)).advance
      | none =>
        let f : InFlight := { due := none, land := .v v 0 (BitVec.allOnes 2048), wait := true, org := s.originV }
        .next (s.mapMe (fun x => { x with flight := x.flight ++ [f] })).advance

/-- MDRAINS: its address is read at issue (R186). -/
def execMdrains (c : AccNo) (a : XReg) (tf : Fmt) (rm : Rm) (sat : Bool) (row : Fin 32) (s : State) : Out :=
  command s (.mdrains c a tf rm sat row) (s.rx a)
/-- MCHAIN_SEND (R189). -/
def execMchainSend (c : AccNo) (rows row : Fin 32) (s : State) : Out := command s (.mchainSend c rows row) 0
/-- MCHAIN_RECV (R189). -/
def execMchainRecv (c : AccNo) (rows : Fin 32) (int : Bool) (row : Fin 32) (s : State) : Out :=
  command s (.mchainRecv c rows int row) 0
/-- MCHAIN_RELAY (R189). -/
def execMchainRelay (c : AccNo) (rows : Fin 32) (int : Bool) (row : Fin 32) (s : State) : Out :=
  command s (.mchainRelay c rows int row) 0

/-! ## Words that act at issue -/

/-- No command in the sequencer names the ring (R178). -/
def State.ringNamed (s : State) (r : RingNo) : Bool := s.myTile.cmds.any (fun c => c.kind.ringsOf.contains r)

/-- FORMAT at the bundle (R173). -/
def State.formatTrap (s : State) (sub : Nat) (r : RingNo) : State :=
  s.trap cFORMAT (BitVec.ofNat 64 (sub + 256 * r.val) ||| pcHigh s.me.pc)

/-- The layout of R175. -/
def ringConfigOk (v : Word) : Bool :=
  let r : Ring := { cfg := v }
  r.base % 32 == 0 && domField v 20 8 == 0 && r.count != 0 && r.tbytes != 0 && r.tbytes % 32 == 0 && domField v 53 11 == 0
    && decide (r.base + r.count * r.tbytes ≤ scratchSize)

/-- A configured RING-mode port of the tile feeds the ring. -/
def State.ringFed (s : State) (t : Nat) (r : RingNo) : Bool :=
  (List.range 4).any (fun i => (s.hart (4 * t + i)).ports.toList.any (fun q => q.cfg && q.mode == .ring && q.aux == r.val))

/-- The word has acted: it takes its sequence number and drops what is held. -/
def State.acted (s : State) : State := s.dispatch.dropHeld.advance

/-- MCBK (R182). An address outside the local alias gives PERM before its alignment is looked at (log 93). -/
def execMcbk (r : RingNo) (a : XReg) (s : State) : Out :=
  matrixWord s fun s =>
    if s.ringNamed r then .next s.hold
    else
      let va := s.rx a
      let t := tileOf s.cur
      match classify va.toNat with
      | .own off =>
        if scratchSize < off + 32 then .next (s.trap cPERM va)
        else if va.toNat % 32 ≠ 0 then .next (s.trap cMISALIGN va)
        else if s.myTile.lockBars t va.toNat 32 false then .next (s.trap cRANGELOCK va)
        else if s.readBad (.scratch t off) 32 then
          let pc := s.me.pc
          let s := (s.found (.scratch t off) 32).dispatch.dropHeld
          let f : LateFault :=
            { cause := cDATAERR, tval := pcHigh pc, faddr := va.setWidth 48, replay := false, org := s.originV }
          .next (s.mapMe (·.addLate f)).advance
        else
          let cb := BitVec.ofNat 256 (leNat (s.readLoc 32 (.scratch t off)))
          .next (s.mapTile t (fun x => { x with rings := x.rings.set r { x.rings[r] with codebook := cb } })).acted
      | _ => .next (s.trap cPERM va)

/-- MRSET (R178). -/
def execMrset (r : RingNo) (a : XReg) (s : State) : Out :=
  matrixWord s fun s =>
    if s.ringNamed r then .next s.hold
    else
      let v := if a.val = 0 then 0 else s.rx a
      if a.val ≠ 0 ∧ ringConfigOk v = false then .next (s.formatTrap 6 r)
      else if s.ringFed (tileOf s.cur) r then .next (s.formatTrap 10 r)
      else
        .next (s.mapTile (tileOf s.cur) (fun x =>
          { x with rings := x.rings.set r { x.rings[r] with cfg := v, head := 0, tail := 0 } })).acted

/-- MRADV (R179). -/
def execMradv (r : RingNo) (a : XReg) (s : State) : Out :=
  matrixWord s fun s =>
    let n := s.rx a
    let q := s.myTile.rings[r]
    if n = 0 then .next s.acted
    else if q.cfg = 0 then .next (s.formatTrap 2 r)
    else if q.count < n.toNat then .next (s.formatTrap 7 r)
    else if q.count < q.held + n.toNat then .next s.hold
    else
      .next (s.mapTile (tileOf s.cur) (fun x =>
        { x with rings := x.rings.set r { x.rings[r] with tail := x.rings[r].tail + n.setWidth 32 } })).acted

/-- MRSTAT (R181). -/
def execMrstat (r : RingNo) (d : XReg) (s : State) : Out :=
  matrixWord s fun s =>
    let q := s.myTile.rings[r]
    let v : Word := if q.cfg = 0 then 0 else (q.tail.zeroExtend 64 <<< 32) ||| q.head.zeroExtend 64
    .next (s.dispatch.dropHeld.resultV1 (.x d v)).advance

/-- MWAIT: every command that entered the sequencer has retired (R188); their FPE faults come first at the boundary. -/
def execMwait (s : State) : Out :=
  matrixWord s fun s => if s.myTile.busy then .next s.hold else .next s.acted

/-- MSEQ (R190). -/
def execMseq (d : XReg) (s : State) : Out :=
  matrixWord s fun s =>
    let s := s.dispatch.dropHeld
    let n := s.myTile.cmds.length
    let q : BitVec 16 := match s.myTile.cmds with
      | c :: _ => c.org.seq
      | [] => s.me.seq
    .next (s.result (.x d (q.zeroExtend 64 ||| BitVec.ofNat 64 (n * 65536))) 2).advance

end Sys2Proof.Machine
end

