-- ==== Sys2Proof/Machine/Ports.lean ====
section
/-! DEFINITION. QCFG, QGET, QPUT, QCLOSE and QSTAT (R196 to R200), and the steps of the stream engines (R201, R202,
R218). -/

namespace Sys2Proof.Machine

/-- The tile's engines are frozen: QCFG, CPYGO and PUTQ hold at issue (R342). -/
def State.engineHold (s : State) : Bool := isT s.cur && s.myTile.dbgctl.getLsbD 0

/-! ## QCFG (R192 to R197) -/

/-- A little-endian field of a record. -/
def recNat (b : List Byte) (lo n : Nat) : Nat := leNat ((b.drop lo).take n)
def recWord (b : List Byte) (lo : Nat) : Word := BitVec.ofNat 64 (recNat b lo 8)

/-- The configuration that a pattern record describes (R192). -/
def PortCtx.ofRecord (b : List Byte) (sys : Bool) : PortCtx :=
  let m := recNat b 10 1
  let depth := recNat b 11 1
  { cfg := true
    write := m / 4 % 2 == 1
    mode := if m % 4 = 0 then .affine else if m % 4 = 1 then .indexed else .ring
    base := recWord b 0, w := recNat b 8 1 + 1, l := recNat b 9 1 + 1, aux := m / 8 % 8
    depth := if depth = 0 then 2 else depth
    fill := BitVec.ofNat 32 (recNat b 12 4)
    cnt := Vector.ofFn (fun i => recNat b (16 + 4 * i.val) 4)
    stride := Vector.ofFn (fun i => recWord b (32 + 8 * i.val))
    sys := sys }

/-- The subcode of the first rule of R196 that a record for port p breaks; fed says whether another RING port feeds its
ring, idx is the port that AUX names. -/
def recordBad (b : List Byte) (q : PortCtx) (p : PortNo) (idx : PortCtx) (ring : Ring) (fed : Bool) : Option Nat :=
  let m := recNat b 10 1
  let depth := recNat b 11 1
  if 256 < q.w * q.l ∨ (m % 4 = 2 ∧ q.l ≠ 1) then some 16
  else if q.cnt.toList.any (· == 0) ∨ 2 ^ 40 ≤ q.elems then some 17
  else if m % 4 = 3 ∨ (q.write = true ∧ m % 4 ≠ 0) ∨ 2 ^ 48 ≤ q.base.toNat ∨ 64 ≤ m ∨ (m % 4 = 0 ∧ q.aux ≠ 0) then some 18
  else if depth = 1 ∨ 64 < depth then some 19
  else if q.mode = .indexed ∧ (q.aux = p.val ∨ idx.cfg = false ∨ idx.write = true ∨ idx.mode ≠ .affine
      ∨ (idx.w ≠ 4 ∧ idx.w ≠ 8) ∨ q.stride[1] ≠ 0 ∨ q.imax < q.imin) then some 20
  else if q.mode = .ring ∧ (ring.cfg = 0 ∨ fed = true) then some 21
  else none

/-- A configured RING port of the tile other than port p of strand h feeds ring n. -/
def State.fedByOther (s : State) (h : Nat) (p : PortNo) (n : Nat) : Bool :=
  (List.range 4).any (fun i => (List.range 8).any (fun j =>
    let o := tileOf h * 4 + i
    let q := s.port o (Fin.ofNat 8 j)
    !(o == h && j == p.val) && q.cfg && q.mode == .ring && q.aux == n))

/-- A read port as QCLOSE leaves it: CLOSE stays set until the fetches already requested have returned (R198). -/
def PortCtx.shut (q : PortCtx) : PortCtx := { PortCtx.closed with close := true, wait := q.wait, fidx := q.fidx, fva := q.fva }

/-- QCFG holds with the configuration that it has checked. -/
def State.holdQcfg (s : State) (n : PortCtx) : State :=
  { s with issue := { s.issue with ctl := .holds } }.mapMe
    (fun x => { x with since := some (x.since.getD s.dtime), qcfg := some n })

/-- Steps 4 to 6 of R197, with a configuration that has been checked. QCFG closes the port that was configured, which stays
closed while QCFG holds; in a paired bundle that holds the port stays as it was (log 43). -/
def State.configure (s : State) (p : PortNo) (n : PortCtx) : State :=
  let h := s.cur
  let t := tileOf h
  let s := if (s.port h p).fault then s.performAll h p else s
  let q := s.port h p
  let u : EngineUnit := .port h p
  if q.close || (q.cfg && q.write && !q.fault && !(q.pend.isEmpty && q.later.isEmpty)) then s.holdQcfg n
  else if q.cfg && !q.write && q.wait then (if s.issue.paired then s else s.setPort h p q.shut).holdQcfg n
  else
    let x := (s.tile t).unlock u 0
    if 16 ≤ x.locks.length then
      (if s.issue.paired then s else (s.setTile t x).setPort h p (if q.cfg then PortCtx.closed else q)).holdQcfg n
    else
      let b := n.box t
      let x := { x with locks := x.locks ++ [⟨b.1, b.2, n.write, u, 0⟩] }
      ((s.setTile t x).setPort h p n).advance

/-- QCFG. The manual states no TVAL for its PHASEVIOL: it is a free value. -/
def execQcfg (p : PortNo) (a : XReg) (s : State) : Out :=
  onT s fun s =>
    if s.engineHold then .next s.hold
    else match s.me.qcfg with
      | some n => .next (s.configure p n)
      | none =>
        accessing s (s.rx a) 64 64 .load false fun s ls =>
          if s.partsBad ls then .next ((s.foundParts ls).trap cDATAERR (s.rx a))
          else
            let (b, s) := s.readParts ls
            let h := s.cur
            let n := { PortCtx.ofRecord b (s.me.priv != .user) with since := s.dtime }
            let aux : Fin 8 := Fin.ofNat 8 n.aux
            match recordBad b n p (s.port h aux) s.myTile.rings[aux] (s.fedByOther h p n.aux) with
            | some c => .next (s.streamCfg c p.val)
            | none =>
              if s.boxBarred (tileOf h) (n.box (tileOf h)) then
                let (v, s) := s.draw 64
                .next (s.trap cPHASEVIOL v)
              else .next (s.configure p n)

/-! ## The other port instructions (R198 to R200) -/

/-- The vector field that names a port. -/
def portReg (p : PortNo) : VReg := ⟨24 + p.val, by omega⟩

/-- QGET: a pop of bytes 0 to 7 (R199). -/
def execQget (d : XReg) (p : PortNo) (s : State) : Out :=
  onT s fun s => s.withPorts [portReg p] none false false fun s v => .next (s.resultV1 (.x d ((v (portReg p)).setWidth 64))).advance

/-- QPUT: a push of the low bytes of a register (R199). -/
def execQput (p : PortNo) (a : XReg) (s : State) : Out :=
  onT s fun s =>
    let q := s.port s.cur p
    if (s.me.badWrite p).isNone ∧ 8 < q.w * q.l then .next (s.streamCfg 5 p.val)
    else s.withPorts [] (some (portReg p)) false false fun s _ =>
      .next (s.push p ((s.rx a).setWidth 2048) (BitVec.allOnes 2048) none).advance

/-- The port's close is done: its lock goes (R198, R217). -/
def State.closeDone (s : State) (h : Nat) (p : PortNo) : State :=
  let q := s.port h p
  if q.close && !q.wait then
    (s.mapTile (tileOf h) (·.unlock (.port h p) 0)).setPort h p { q with close := false }
  else s

/-- QCLOSE (R198): a read port closes at once, and CLOSE stays set until its fetches have returned. -/
def execQclose (p : PortNo) (s : State) : Out :=
  onT s fun s =>
    let h := s.cur
    let q := s.port h p
    if !q.cfg then .next (s.setPort h p { q with eos := false, fault := false }).advance
    else if !q.write then
      .next (s.setPort h p q.shut).advance
    else if q.fault then .next (s.trapPort cSTREAMFAULT q.fva (some p))
    else if !(q.pend.isEmpty && q.later.isEmpty) then .next s.hold
    else .next ((s.mapTile (tileOf h) (·.unlock (.port h p) 0)).setPort h p PortCtx.closed).advance

/-- QSTAT (R200). Beyond the last element i3 runs on past CNT3 (log 114). -/
def execQstat (d : XReg) (p : PortNo) (sel : Fin 8) (s : State) : Out :=
  onT s fun s =>
    let q := s.port s.cur p
    let e := q.pos * q.l
    let v : Word :=
      if !q.cfg then 0
      else match sel.val with
        | 0 => BitVec.ofNat 64 q.pos
        | 1 => BitVec.ofNat 64 q.written
        | 2 => if q.fault then BitVec.ofNat 64 q.fidx else BitVec.allOnes 64
        | 3 => if q.fault then q.fva else 0
        | 4 => BitVec.ofNat 64 (q.ctr0 e)
        | 5 => BitVec.ofNat 64 (q.ctr1 e)
        | 6 => BitVec.ofNat 64 (q.ctr2 e)
        | _ => BitVec.ofNat 64 (q.ctr3 e)
    .next (s.result (.x d v) 1).advance

/-! ## The engines' steps -/

/-- STREAM_FETCH (R79, R201). -/
def execStreamFetch (h : Nat) (p : PortNo) (s : State) : Out := onPackage s fun s => .next (s.streamFetch h p)
/-- STREAM_WRITE (R202). -/
def execStreamWrite (h : Nat) (p : PortNo) (s : State) : Out := onPackage s fun s => .next (s.streamWrite h p)
/-- RING_TILE_ADVANCE (R195). -/
def execRingTileAdvance (h : Nat) (p : PortNo) (s : State) : Out := onPackage s fun s => .next (s.ringAdvance h p)
/-- STREAM_CLOSE_DONE (R198). -/
def execStreamCloseDone (h : Nat) (p : PortNo) (s : State) : Out := onPackage s fun s => .next (s.closeDone h p)

/-- Whatever the engine of a port can do next. -/
def State.portTick (s : State) (h : Nat) (p : PortNo) : State :=
  let q := s.port h p
  if q.close then s.closeDone h p
  else if !q.cfg then s
  else if q.mode = .ring then s.ringAdvance h p
  else if q.write then s.streamWrite h p
  else s.streamFetch h p

end Sys2Proof.Machine
end

