-- ==== Sys2Proof/Machine/Copies.lean ====
section
/-! DEFINITION. Copy channels (R203 to R211, R218): their instructions, and the transfers' steps. -/

namespace Sys2Proof.Machine

/-- The channel set of the moving core: its tile's, or the one the hub gives it (R218). -/
def State.myUnit (s : State) : Nat := if isT s.cur then tileOf s.cur else 512 + gcoreOf s.cur

namespace CopyParams

/-! Fields of a transfer's parameters, by their fn8 codes (R203). -/
def src (p : CopyParams) : Word := p[0]
def dst (p : CopyParams) : Word := p[1]
def len0 (p : CopyParams) : Nat := (p[2]).toNat
def cnt1 (p : CopyParams) : Nat := (p[5]).toNat
def cnt2 (p : CopyParams) : Nat := (p[8]).toNat
def flags (p : CopyParams) : Nat := (p[9]).toNat
/-- The transfer moves nothing (R206). -/
def empty (p : CopyParams) : Bool := p.len0 == 0 || p.cnt1 == 0 || p.cnt2 == 0
/-- The parameters of a layout record. -/
def ofRecord (b : List Byte) : CopyParams :=
  let n := fun lo => BitVec.ofNat 64 (recNat b lo 4)
  #v[recWord b 0, recWord b 8, n 48, recWord b 16, recWord b 24, n 52, recWord b 32, recWord b 40, n 56, n 60]
/-- A rule of R196 is broken: bits above a field's width. -/
def bad (p : CopyParams) : Bool :=
  decide (2 ^ 32 ≤ p.len0) || decide (2 ^ 32 ≤ p.cnt1) || decide (2 ^ 32 ≤ p.cnt2) || decide (2 ^ 29 ≤ p.flags)
    || decide (2 ^ 48 ≤ p.src.toNat) || decide (2 ^ 48 ≤ p.dst.toNat)
/-- The source, the destination lies on another package than number n (R203, R400). -/
def srcRemote (p : CopyParams) (n : Nat) : Bool := p.flags / 2 ^ 13 % 2 == 1 && p.flags % 2 ^ 13 != n
def dstRemote (p : CopyParams) (n : Nat) : Bool := p.flags / 2 ^ 27 % 2 == 1 && p.flags / 2 ^ 14 % 2 ^ 13 != n
def srcPkg (p : CopyParams) : Nat := p.flags % 2 ^ 13
def dstPkg (p : CopyParams) : Nat := p.flags / 2 ^ 14 % 2 ^ 13
/-- ORDER. -/
def ordered (p : CopyParams) : Bool := p.flags / 2 ^ 28 % 2 == 1
/-- The boxes of the two sides on tile t (R216). -/
def srcBox (p : CopyParams) (t : Nat) : Nat × Nat :=
  let cs := [(p.cnt1, p[3]), (p.cnt2, p[6])]
  boxOf t (boxLow p.src.toNat cs) (boxHigh p.src.toNat cs + p.len0 - 1)
def dstBox (p : CopyParams) (t : Nat) : Nat × Nat :=
  let cs := [(p.cnt1, p[4]), (p.cnt2, p[7])]
  boxOf t (boxLow p.dst.toNat cs) (boxHigh p.dst.toNat cs + p.len0 - 1)
/-- Addresses of row number r (R206): the steps of dimension 1 inside those of dimension 2. -/
def srcRow (p : CopyParams) (r : Nat) : Word :=
  p.src + BitVec.ofNat 64 (r % p.cnt1) * p[3] + BitVec.ofNat 64 (r / p.cnt1) * p[6]
def dstRow (p : CopyParams) (r : Nat) : Word :=
  p.dst + BitVec.ofNat 64 (r % p.cnt1) * p[4] + BitVec.ofNat 64 (r / p.cnt1) * p[7]
def rows (p : CopyParams) : Nat := p.cnt1 * p.cnt2

end CopyParams

/-- CDONE (R207): the lowest ID that has not completed. -/
def Chan.cdone (c : Chan) : Nat := ((c.live.map (·.id)).min?).getD c.nextId

/-- The channel with a transfer replaced. -/
def Chan.setXfer (c : Chan) (x : Xfer) : Chan := { c with live := c.live.map (fun y => if y.id == x.id then x else y) }

/-! ## Instructions -/

/-- CPYSET (R205). -/
def execCpyset (c : ChanNo) (a : XReg) (f : CpyField) (s : State) : Out :=
  onCore s fun s =>
    let u := s.myUnit
    let x := s.chan u c
    .next (s.setChan u c { x with shadow := x.shadow.set (f.code % 10) (s.rx a) (Nat.mod_lt _ (by decide)) }).advance

/-- CPYSET_CLRERR (R210). -/
def execCpysetClrerr (c : ChanNo) (s : State) : Out :=
  onCore s fun s =>
    let u := s.myUnit
    .next (s.setChan u c { s.chan u c with cerrId := 0, cerrSt := 0, cerrVa := 0 }).advance

/-- The locks a transfer registers (R216): none on profile G, none for a transfer that moves nothing, none for a side on
another package. -/
def State.copyLocks (s : State) (p : CopyParams) (u : EngineUnit) (id : Nat) : List Lock :=
  let t := tileOf s.cur
  let n := s.pkgnum
  if !isT s.cur || p.empty then []
  else
    (if p.srcRemote n then [] else [⟨(p.srcBox t).1, (p.srcBox t).2, false, u, id⟩])
      ++ (if p.dstRemote n then [] else [⟨(p.dstBox t).1, (p.dstBox t).2, true, u, id⟩])

/-- The boxes of a transfer reach a slice that no open communication phase covers (R206). -/
def State.copyBarred (s : State) (p : CopyParams) : Bool :=
  let t := tileOf s.cur
  let n := s.pkgnum
  isT s.cur && !p.empty
    && ((!p.srcRemote n && s.boxBarred t (p.srcBox t)) || (!p.dstRemote n && s.boxBarred t (p.dstBox t)))

/-- CPYGO with parameters that have been checked (R206): it holds while the channel holds 8 unfinished transfers, then takes its ID,
and with the ID taken holds while the lock table has too little room. -/
def State.copyGo (s : State) (d : XReg) (c : ChanNo) (p : CopyParams) : State :=
  let u := s.myUnit
  let x := s.chan u c
  let e : EngineUnit := .chan u c
  let wait := fun (s : State) => { s with issue := { s.issue with ctl := .holds } }.mapMe
    (fun y => { y with since := some (y.since.getD s.dtime), cpygo := some p })
  let mine := x.live.find? (fun y => y.hart == s.cur && !y.handed)
  if mine.isNone ∧ 8 ≤ x.live.length then wait s
  else
    let y : Xfer := mine.getD { id := x.nextId, p := p, hart := s.cur, sys := s.me.priv != .user, handed := false }
    let took := fun (y : Xfer) =>
      if mine.isSome then x.setXfer y
      else { x with nextId := x.nextId + 1, live := if p.empty then x.live else x.live ++ [y] }
    let locks := s.copyLocks p e y.id
    if isT s.cur ∧ 16 < s.myTile.locks.length + locks.length then wait (s.setChan u c (took y))
    else
      let s := if locks.isEmpty then s else s.setMyTile { s.myTile with locks := s.myTile.locks ++ locks }
      let s := s.setChan u c (took { y with handed := true, since := s.dtime })
      let s := if p.empty then s.wakeLatch s.cur else s
      (s.result (.x d (BitVec.ofNat 64 y.id)) 1).advance

/-- The checks of CPYGO on its parameters. The manual states no TVAL for its PHASEVIOL: it is a free value. -/
def State.copyChecked (s : State) (d : XReg) (c : ChanNo) (p : CopyParams) : State :=
  if p.bad then s.streamCfg 32 c.val
  else if s.copyBarred p then
    let (v, s) := s.draw 64
    s.trap cPHASEVIOL v
  else s.copyGo d c p

/-- CPYGO (R206). A record in an I/O page gives PERM (log 131). -/
def execCpygo (d a : XReg) (c : ChanNo) (s : State) : Out :=
  onCore s fun s =>
    if s.engineHold then .next s.hold
    else match s.me.cpygo with
      | some p => .next (s.copyGo d c p)
      | none =>
        if a.val = 0 then .next (s.copyChecked d c (s.chan s.myUnit c).shadow)
        else
          accessing s (s.rx a) 64 64 .load false fun s ls =>
            if s.partsBad ls then .next ((s.foundParts ls).trap cDATAERR (s.rx a))
            else
              let (b, s) := s.readParts ls
              .next (s.copyChecked d c (CopyParams.ofRecord b))

/-- CPYWAIT (R209). -/
def execCpywait (c : ChanNo) (a : XReg) (s : State) : Out :=
  onCore s fun s =>
    if (s.rx a).toNat < (s.chan s.myUnit c).cdone then .next s.advance else .next s.hold

/-- CPYSTAT (R210). -/
def execCpystat (d : XReg) (c : ChanNo) (sel : CpySel) (s : State) : Out :=
  onCore s fun s =>
    let x := s.chan s.myUnit c
    let v : Word := match sel with
      | .cdone => BitVec.ofNat 64 x.cdone
      | .nextid => BitVec.ofNat 64 x.nextId
      | .cerrid => BitVec.ofNat 64 x.cerrId
      | .cerrst => x.cerrSt.zeroExtend 64
      | .cerrva => x.cerrVa
    .next (s.result (.x d v) 1).advance

/-! ## The steps of a transfer (R207, R208, R211) -/

/-- The channels of a unit run: a tile's unless it is away or frozen (R332, R342); the hub's always. -/
def State.chanOn (s : State) (u : Nat) : Bool := decide (512 ≤ u) || (s.tile u).enginesOn

/-- A started transfer of the unit may complete: also while the tile stands frozen by a crash (R384), unless FREEZE lets it start no
piece (R342). -/
def State.chanEnds (s : State) (u : Nat) : Bool :=
  s.chanOn u || ((s.tile u).presence == .crashed && !(s.tile u).dbgctl.getLsbD 0)

/-- The transfer ends: with cause 0 it is done, otherwise it records its error (R210, R211). -/
def State.endXfer (s : State) (u : Nat) (c : ChanNo) (x : Xfer) (cause : BitVec 8) (va : Word) : State :=
  let ch := s.chan u c
  let ch := { ch with live := ch.live.filter (·.id != x.id) }
  let ch := if cause ≠ 0 ∧ (ch.cerrId = 0 ∨ x.id < ch.cerrId) then { ch with cerrId := x.id, cerrSt := cause, cerrVa := va } else ch
  let s := s.setChan u c ch
  let s := if u < 512 then s.mapTile u (·.unlock (.chan u c) x.id) else s
  s.wakeLatch x.hart

/-- A transfer meets a cause at an address: PAGE posts its record and waits for the replay (R218); a record that cannot
be written, and every other cause, ends it (R211, R329). -/
def State.xferCause (s : State) (u : Nat) (c : ChanNo) (x : Xfer) (cause : Cause) (va : Word) (write : Bool) : State :=
  if cause = cPAGE then
    match s.engineRecord (.chan u c) write x.id (x.row % x.p.cnt1 + 2 ^ 32 * (x.row / x.p.cnt1)) [] va with
    | (some _, s) => s.endXfer u c x cPAGE va
    | (none, s) => s.setChan u c ((s.chan u c).setXfer { x with wait := true, fva := va })
  else s.endXfer u c x cause va

/-- The bytes of the source for n bytes at an address: free values for a source on another package. -/
def State.copyRead (s : State) (u : Nat) (c : ChanNo) (x : Xfer) (va : Word) (n : Nat) : Except Cause (List Byte) × State :=
  if x.p.srcRemote s.pkgnum then
    let (v, s) := s.draw (8 * n)
    (.ok (leBytes n v.toNat), s)
  else s.engineRead (.chan u c) x.sys x.since va n

/-- Addresses of a transfer's next piece at its source and destination. -/
def Xfer.srcAt (x : Xfer) : Word := x.p.srcRow x.row + BitVec.ofNat 64 x.off
def Xfer.dstAt (x : Xfer) : Word := x.p.dstRow x.row + BitVec.ofNat 64 x.off
/-- Bytes of a piece: up to the next 64-byte boundary of its destination; and the transfer after it. -/
def Xfer.pieceLen (x : Xfer) : Nat := Nat.min (x.p.len0 - x.off) (64 - x.dstAt.toNat % 64)
def Xfer.next (x : Xfer) : Xfer :=
  if x.off + x.pieceLen < x.p.len0 then { x with off := x.off + x.pieceLen } else { x with row := x.row + 1, off := 0 }

/-- One piece. What is left to do, or none when the transfer has met a cause. -/
def State.copyPiece (s : State) (u : Nat) (c : ChanNo) (x : Xfer) : Option Xfer × State :=
  let da := x.dstAt
  let sa := x.srcAt
  let n := x.pieceLen
  let next := x.next
  match s.copyRead u c x sa n with
  | (.error cause, s) => (none, s.xferCause u c x cause sa false)
  | (.ok b, s) =>
    if x.p.dstRemote s.pkgnum then (some next, s)
    else match s.enginePlace (.chan u c) x.sys x.since da n .store with
      | (.error cause, s) => (none, s.xferCause u c x cause da true)
      | (.ok ls, s) =>
        if ls.any (fun l => s.writeBad l.1 l.2) then (none, (s.foundParts ls).xferCause u c x cDATAERR da true)
        else (some next, s.writeParts b ls)

/-- Pieces until the transfer is done or stopped. -/
def State.copyPieces (s : State) (u : Nat) (c : ChanNo) : Nat → Xfer → Option Xfer × State
  | 0, x => (some x, s)
  | n + 1, x =>
    if x.p.rows ≤ x.row then (some x, s)
    else match s.copyPiece u c x with
      | (none, s) => (none, s)
      | (some y, s) => s.copyPieces u c n y

/-- What another package is asked when a transfer starts: to take its bytes, or to send them. -/
def State.copyAsk (s : State) (u : Nat) (c : ChanNo) (x : Xfer) : State :=
  let n := s.pkgnum
  let ctx := (s.engineCtx (.chan u c)).getD 0
  if x.p.dstRemote n then { s with linkOut := s.linkOut ++ [.copy x.p.dstPkg ctx x.p] }
  else if x.p.srcRemote n then { s with linkOut := s.linkOut ++ [.read x.p.srcPkg ctx x.p] }
  else s

/-- COPY_TRANSFER_START of a channel: the next transfer in ID order starts, once its CPYGO has handed it over; with ORDER, once
every lower ID has completed (R207). -/
def State.copyStart (s : State) (u : Nat) (c : ChanNo) : State :=
  let ch := s.chan u c
  match ch.live.find? (fun x => !x.started) with
  | none => s
  | some x =>
    if !s.chanOn u || !x.handed || (x.p.ordered && x.id != ch.cdone) then s
    else (s.copyAsk u c x).setChan u c (ch.setXfer { x with started := true })

/-- The causes with which another package's answer ends a transfer, or stalls it (R211); any other number stands for a
package that is unreachable. -/
def remoteCause (n : Nat) : Cause := if 0x10 ≤ n ∧ n ≤ 0x14 then BitVec.ofNat 8 n else 0xFF

/-- Another package's answer stops a transfer after a number of pieces that a free value gives: PAGE stalls it, any other
cause ends it. The address is that of the next piece on that package (R210, R211; log 102). -/
def State.copyRefused (s : State) (u : Nat) (c : ChanNo) (x : Xfer) (cause : Cause) : State :=
  let (v, s) := s.draw 64
  match s.copyPieces u c (v.toNat % (x.p.rows * (x.p.len0 / 64 + 2))) x with
  | (none, s) => s
  | (some y, s) =>
    let r := Nat.min y.row (x.p.rows - 1)
    let y := { y with row := r }
    let write := y.p.dstRemote s.pkgnum
    s.xferCause u c y cause ((if write then y.p.dstRow r else y.p.srcRow r) + BitVec.ofNat 64 y.off) write

/-- The started transfer of an ID is performed and completes. A transfer to or from another package ends with what that
package answers: remote is 0 for success, or a cause (R211). -/
def State.copyComplete (s : State) (u : Nat) (c : ChanNo) (id remote : Nat) : State :=
  match (s.chan u c).live.find? (fun x => x.id == id && x.started && !x.wait) with
  | none => s
  | some x =>
    if !s.chanEnds u then s
    else if (x.p.srcRemote s.pkgnum || x.p.dstRemote s.pkgnum) ∧ remote ≠ 0 then s.copyRefused u c x (remoteCause remote)
    else match s.copyPieces u c (x.p.rows * (x.p.len0 / 64 + 2)) x with
      | (none, s) => s
      | (some y, s) => s.endXfer u c y 0 0

/-- COPY_TRANSFER_START (R207). -/
def execCopyTransferStart (u : Nat) (c : ChanNo) (s : State) : Out := onPackage s fun s => .next (s.copyStart u c)
/-- COPY_TRANSFER_COMPLETE (R207, R208, R211). -/
def execCopyTransferComplete (u : Nat) (c : ChanNo) (id remote : Nat) (s : State) : Out :=
  onPackage s fun s => .next (s.copyComplete u c id remote)

/-- Whatever a channel can do next without another package. -/
def State.chanTick (s : State) (u : Nat) (c : ChanNo) : State :=
  let ch := s.chan u c
  if ch.live.isEmpty then s
  else
    let s := s.copyStart u c
    let n := s.pkgnum
    match (s.chan u c).live.find? (fun x => x.started && !x.wait && !x.p.srcRemote n && !x.p.dstRemote n) with
    | none => s
    | some x => s.copyComplete u c x.id 0

/-! ## Translation faults in engines (R218) -/

/-- ENGINE_PAGE_FAULT: the engine's next access meets PAGE; its record is posted, and only this stream or transfer
stalls. -/
def execEnginePageFault (u : EngineUnit) (s : State) : Out :=
  onPackage s fun s =>
    match u with
    | .port h p =>
      let t := s.portTick h p
      if (t.port h p).wait && !(s.port h p).wait then .next t else .next s
    | .chan o c =>
      let t := s.chanTick o c
      if (t.chan o c).live.any (·.wait) && !(s.chan o c).live.any (·.wait) then .next t else .next s

/-- The resident kernel asks for a replay of an engine's access, and it is retried, or it refuses, and the port is
faulted or the transfer ends with PAGE (R218; log 17). Of several transfers of a channel that wait it is the first (log 99). -/
def State.engineReplay (s : State) (u : EngineUnit) (refuse : Bool) : State :=
  match u with
  | .port h p =>
    let q := s.port h p
    if !q.wait then s
    else if refuse && q.cfg then s.faultPort h p q.fidx q.fva cPAGE
    else s.setPort h p { q with wait := false }
  | .chan o c =>
    match (s.chan o c).live.find? (·.wait) with
    | none => s
    | some x =>
      if refuse then s.endXfer o c x cPAGE x.fva
      else s.setChan o c ((s.chan o c).setXfer { x with wait := false })

/-- ENGINE_REPLAY. -/
def execEngineReplay (u : EngineUnit) (refuse : Bool) (s : State) : Out :=
  onPackage s fun s => .next (s.engineReplay u refuse)

end Sys2Proof.Machine
end

