-- ==== Sys2Proof/Machine/Putq.lean ====
section
/-! DEFINITION. PUTQ and the deliveries that arrive over a chip link (R204, R212 to R215, R338). -/

namespace Sys2Proof.Machine

/-! ## Delivery (R213, R214) -/

/-- A payload with zero bytes to 64. -/
def padded64 (b : List Byte) : List Byte := b ++ List.replicate (64 - b.length) 0

/-- An entry for the inbox of a tile: 1 when it is full. -/
def State.toInbox (s : State) (t : Nat) (payload : List Byte) : BitVec 8 × State :=
  if 8 ≤ (s.tile t).inbox.length then (1, s)
  else (0, (s.mapTile t (fun x => { x with inbox := x.inbox ++ [padded64 payload] })).wakeTile t)

/-! ## Absent contexts (R333, R334, R338) -/

/-- The tile's part of a context has been restored, and the switch that brings the context in is not done (R337). -/
def State.returning (s : State) (c t : Nat) : Bool :=
  (s.tile t).ctx == c && (s.tile t).presence == .stopped && s.switches.any (fun w => w.2.stage == .restoring && w.2.inctx == c)

/-- The tile's part of a context has been saved and is not there, or is there again and takes what the bounce ring holds first
(R334, R337, R338). -/
def State.away (s : State) (c t : Nat) : Bool := s.images.any (fun i => i.ctx == c && i.tile == t) || s.returning c t

/-- The map of a context's partition (R294): its tiles, none for a context that is not registered. -/
def State.partTiles (s : State) (c : Nat) : List Nat :=
  let m := s.ioRead (0x08F10000C000 + 128 * (s.ctx c).part) 64
  if (s.ctx c).valid then (List.range 512).filter (fun t => m.testBit t) else []

/-- CUR of a partition. -/
def State.current (s : State) (p : Nat) : Nat := s.ioRead (0x08F10000C040 + 128 * p) 2

/-- The tile is one of a context's partition, which holds another context, or nothing of this one there (R294, R331). -/
def State.gone (s : State) (c t : Nat) : Bool :=
  (s.partTiles c).contains t
    && ((s.current (s.ctx c).part != c && (s.tile t).ctx != c) || (s.tile t).presence == .absent)

/-- The tile's slice is one of an absent context (R204, R338). -/
def State.absent (s : State) (c t : Nat) : Bool := s.away c t || s.gone c t

/-- A gang switch has stopped the tile's part of a context, which has not resumed (R332). -/
def State.outgoing (s : State) (c t : Nat) : Bool :=
  s.images.any (fun i => i.ctx == c && i.tile == t) || ((s.tile t).ctx == c && (s.tile t).presence == .stopped)

/-- The inbox of a tile that a gang switch has stopped or saved has a free entry (R333). -/
def State.inboxRoom (s : State) (c u : Nat) : Bool :=
  match s.images.find? (fun i => i.ctx == c && i.tile == u) with
  | some i => decide (i.st.inbox.length < 8)
  | none => !s.returning c u && decide ((s.tile u).inbox.length < 8)

/-- A message of a strand whose context is being switched out, or is out, waits in a siding until the context resumes, unless it is
for an inbox of this package with a free entry (R333; log 80). -/
def State.sided (s : State) (m : PutqMsg) : Bool :=
  isT m.hart && s.outgoing m.ctx (tileOf m.hart)
    && !(!Target.bad m.target && Target.inbox m.target && !Target.remote m.target s.pkgnum && s.inboxRoom m.ctx (Target.tile m.target))

/-- A delivery for a slice of an absent context goes to the kernel bounce ring: true when it has room (R338). -/
def State.bounce (s : State) (c kind spkg addr : Nat) (data : List Byte) : Bool × State :=
  let f := 0x08FA00000000
  let base := s.ioRead f 8
  let slots := s.ioRead (f + 8) 4
  let head := s.ioRead (f + 12) 4
  let tail := s.ioRead (f + 16) 4
  if !isPow2 slots 0 31 || slots ≤ (tail + 2 ^ 32 - head) % 2 ^ 32 then (false, s)
  else
    let slot := leBytes 8 addr ++ leBytes 2 c ++ leBytes 1 data.length ++ leBytes 1 kind ++ leBytes 4 spkg
      ++ List.replicate 48 0 ++ padded64 data
    (true, (s.memWr (base + tail % slots * 128) slot).ioWrite (f + 16) 4 ((tail + 1) % 2 ^ 32))

/-- The status of a PUTQ for a tile whose context is absent (R214, R338): BOUNCED, or FULL. -/
def State.bouncePutq (s : State) (c spkg addr : Nat) (payload : List Byte) : BitVec 8 × State :=
  match s.bounce c 2 spkg addr payload with
  | (true, s) => (2, s)
  | (false, s) => (1, s)

/-- A PUTQ of a strand for the inbox of a tile that has been saved: the inbox of the image takes it while an entry is free,
as the tile would have (R333). -/
def State.toSaved (s : State) (c u : Nat) (payload : List Byte) : BitVec 8 × State :=
  if s.images.any (fun i => i.ctx == c && i.tile == u && decide (i.st.inbox.length < 8)) then
    (0, { s with images := s.images.map (fun i =>
      if i.ctx = c ∧ i.tile = u then { i with
        st := { i.st with inbox := i.st.inbox ++ [padded64 payload] }
        harts := i.harts.map (fun x => { x with latch := true }) }
      else i) })
  else (1, s)

/-! ## Delivery on this package -/

/-- The tile's slice may not be reached by a sender of tile t (R135, check 2). -/
def State.sliceRefused (s : State) (from? : Option Nat) (u : Nat) : Bool :=
  match from? with
  | some t => u != t && (s.lost u || !s.together t u)
  | none => s.lost u

/-- The places of 64 bytes that a delivery names, for write, or the first cause (R213). -/
def State.queuePlace (s : State) (rq : Requester) (from? : Option Nat) (va : Nat) : Except Cause (List (Loc × Nat)) × State :=
  let parts := splitPages va 2 64
  if 2 ^ 48 ≤ va then (.error cPERM, s)
  else if parts.any (fun p => match classify p.1 with
      | .slice u _ => from?.isSome && s.sliceRefused from? u
      | _ => false) then (.error cSLICEPERM, s)
  else s.placeParts rq from? .store false parts

/-- A payload for the queue whose header a virtual address names; the low six bits of the address read 0, and QBASE is used as it stands
(log 130). The counts are compared as they are, TAIL − HEAD without wrapping (R49). -/
def State.toQueue (s : State) (rq : Requester) (from? : Option Nat) (va : Nat) (payload : List Byte) : BitVec 8 × State :=
  match s.queuePlace rq from? (va / 64 * 64) with
  | (.error c, s) => (c, s)
  | (.ok hd, s) =>
    if s.partsBad hd then (cDATAERR, s.foundParts hd)
    else
      let (b, s) := s.readParts hd
      let slots := recNat b 8 4
      let head := recWord b 16
      let tail := recWord b 24
      if !isPow2 slots 1 20 then (cPERM, s)
      else match s.queuePlace rq from? ((recWord b 0).toNat + tail.toNat % slots * 64) with
        | (.error c, s) => (c, s)
        | (.ok sl, s) =>
          if slots + head.toNat ≤ tail.toNat then (1, s)
          else
            let s := s.writeParts (padded64 payload) sl
            (0, s.writeParts (b.take 24 ++ leBytes 8 (tail + 1).toNat ++ b.drop 32) hd)

/-- What a PUTQ delivers on this package, and its status. -/
def State.deliverHere (s : State) (m : PutqMsg) : BitVec 8 × State :=
  let t : Option Nat := if isT m.hart then some (tileOf m.hart) else none
  if Target.bad m.target then (cPERM, s)
  else if Target.inbox m.target then
    let u := Target.tile m.target
    if t.isSome && s.away m.ctx u then s.toSaved m.ctx u m.payload
    else if t.isNone && s.absent m.ctx u then s.bouncePutq m.ctx s.pkgnum u m.payload
    else if s.sliceRefused t u then (cSLICEPERM, s)
    else s.toInbox u m.payload
  else s.toQueue (s.requester m.hart m.priv) t (Target.addr m.target) m.payload

/-- The status of a PUTQ lands in its destination (R60, R214). -/
def Hart.status (x : Hart) (order : Nat) (v : BitVec 8) : Hart :=
  match x.flight.find? (fun f => f.org.order == order && f.due.isNone) with
  | none => x
  | some f =>
    let x := { x with flight := x.flight.filter (fun g => !(g.org.order == order && g.due.isNone)) }
    match f.land with
    | .x r _ => x.wx r (v.zeroExtend 64)
    | _ => x

/-- Two PUTQs of strands of one tile, or of one core, to the same queue or inbox: their order stands (R22, R215). -/
def State.sameWay (s : State) (a b : PutqMsg) : Bool :=
  (if isT a.hart then isT b.hart && tileOf a.hart == tileOf b.hart else a.hart == b.hart) && s.goal a == s.goal b

/-- A PUTQ for a tile to which a chain message of the same tile is under way that left before it (R22; log 133). -/
def State.behindChain (s : State) (m : PutqMsg) : Bool :=
  isT m.hart && (match (s.tile (tileOf m.hart)).chainOut with
    | some c => (s.tile c.dst).presence == .present && !c.behind.contains (m.hart, m.order) && s.goalTile m == some c.dst
    | none => false)

/-- The PUTQs that may be delivered, the oldest first: those that wait in no siding and behind no chain message. -/
def State.movingPutqs (s : State) : List PutqMsg := s.putqs.filter (fun m => !s.sided m && !s.behindChain m)

/-- The places in a list of those that no earlier one goes the same way as. -/
def firstOfWay {α : Type} (same : α → α → Bool) (l : List α) : List Nat :=
  (List.range l.length).filter (fun i => match l[i]? with
    | some x => !(l.take i).any (same x)
    | none => false)

/-- The element that a choice picks among those that may go first, and the others in their order. -/
def pickWay {α : Type} (same : α → α → Bool) (pick : Nat) (l : List α) : Option (α × List α) :=
  let ways := firstOfWay same l
  let i := ways.getD (pick % Nat.max 1 ways.length) 0
  l[i]?.map (fun x => (x, l.eraseIdx i))

/-- The statuses of R214 that another package answers; any other number stands for a package that is unreachable. -/
def remoteStatus (n : Nat) : BitVec 8 :=
  if n ≤ 2 ∨ (0x10 ≤ n ∧ n ≤ 0x14) ∨ n = 0x17 then BitVec.ofNat 8 n else 0xFF

/-- A PUTQ is delivered: which of those that nothing holds back, pick chooses (R399); remote is the status that another
package answers (R213 to R215). -/
def State.putqNext (s : State) (pick remote : Nat) : State :=
  match pickWay s.sameWay pick s.movingPutqs with
  | none => s
  | some (m, _) =>
    let s := { s with putqs := s.putqs.erase m }
    let (st, s) : BitVec 8 × State :=
      if !Target.bad m.target && Target.remote m.target s.pkgnum then
        let st := remoteStatus remote
        (st, if st = 0xFF then s
          else { s with linkOut := s.linkOut ++ [.putq (Target.pkg m.target) m.ctx m.target m.payload] })
      else s.deliverHere m
    s.mapHart m.hart (·.status m.order st)

/-- PUTQ_DELIVERY. -/
def execPutqDelivery (remote : Nat) (s : State) : Out := onPackage s fun s => .next (s.putqNext s.turn remote)

/-! ## PUTQ at issue (R212) -/

/-- The tile whose phase R212 asks for: another tile's inbox, or a queue header in another tile's slice. -/
def Target.phaseTile (v : Word) (t n : Nat) : Option Nat :=
  if Target.remote v n then none
  else if Target.inbox v then if Target.tile v = t then none else some (Target.tile v)
  else match classify (Target.addr v) with
    | .slice u _ => if u = t then none else some u
    | _ => none

/-- A payload has been read: the message leaves, and its status is owed (R212). The manual states no TVAL for its
PHASEVIOL, for which the payload's checks come first (log 118): it is a free value. -/
def State.putqSend (s : State) (d b : XReg) (payload : List Byte) : State :=
  let v := s.rx b
  let t := tileOf s.cur
  let barred := match Target.phaseTile v t s.pkgnum with
    | some u => isT s.cur && s.phaseBars t u
    | none => false
  if barred then
    let (w, s) := s.draw 64
    s.trap cPHASEVIOL w
  else
    let m : PutqMsg :=
      { target := v, payload := payload, hart := s.cur, ctx := (s.ctxOf s.cur).getD 0, priv := s.me.priv, order := s.me.issued }
    let f : InFlight := { due := none, land := .x d 0, wait := true, org := s.origin }
    let s := { s with putqs := s.putqs ++ [m] }
    (s.mapMe (fun x => { x with flight := x.flight ++ [f] })).advance

/-- PUTQ. The length field holds len − 1 (R191). A payload of profile G in an I/O page gives PERM (log 117). -/
def execPutq (d a b : XReg) (len : Fin 64) (s : State) : Out :=
  onCore s fun s =>
    let va := s.rx a
    let n := len.val + 1
    if s.engineHold then .next s.hold
    else
      match isT s.cur, classify va.toNat with
      | true, .own off =>
        if scratchSize < off + n then .next (s.trap cPERM va)
        else accessing s va n 1 .load false fun s ls =>
          if s.partsBad ls then .next ((s.foundParts ls).trap cDATAERR va)
          else
            let (p, s) := s.readParts ls
            .next (s.putqSend d b p)
      | true, _ => .next (s.trap cPERM va)
      | false, _ =>
        accessing s va n 1 .load false fun s ls =>
          if s.partsBad ls then .next ((s.foundParts ls).trap cDATAERR va)
          else
            let (p, s) := s.readParts ls
            .next (s.putqSend d b p)

/-! ## Arrivals over a chip link (R204, R338) -/

/-- The local context of an arrival: the lowest valid entry of the inbound context table that matches (R204). -/
def State.inbound (s : State) (spkg sctx : Nat) : Option Nat :=
  (List.range 1024).findSome? (fun i =>
    let e := s.ioRead (0x08F100010000 + 8 * i) 8
    if e / 2 ^ 29 % 2 = 1 ∧ e % 2 ^ 13 = spkg ∧ e / 2 ^ 13 % 256 = sctx then some (e / 2 ^ 21 % 256) else none)

/-- A copy piece that has arrived for context c: the cause that refuses it, or 0; a full bounce ring ends it with 0xFF
(R338). -/
def State.pieceHere (s : State) (c spkg : Nat) (va : Word) (data : List Byte) : BitVec 8 × State :=
  match classify va.toNat with
  | .slice u off =>
    if s.absent c u then
      match s.bounce c 1 spkg va.toNat data with
      | (true, s) => (0, s)
      | (false, s) => (0xFF, s)
    else if s.lost u || (s.tile u).ctx != c || scratchSize < off + data.length then (cPERM, s)
    else if s.writeBad (.scratch u off) data.length then (cDATAERR, s.storeLoc data (.scratch u off))
    else (0, s.storeLoc data (.scratch u off))
  | _ =>
    match s.placeParts (s.hubIn c) none .store false (splitPages va.toNat 2 data.length) with
    | (.error e, s) => (e, s)
    | (.ok ls, s) => if ls.any (fun l => s.writeBad l.1 l.2) then (cDATAERR, s.mergedParts ls) else (0, s.writeParts data ls)

/-- A PUTQ that has arrived for the inbox of tile u, or for a queue, in context c: its status (R214). -/
def State.inboxHere (s : State) (c spkg u : Nat) (data : List Byte) : BitVec 8 × State :=
  if s.absent c u then s.bouncePutq c spkg u data
  else if s.lost u || (s.tile u).ctx != c then (cSLICEPERM, s)
  else s.toInbox u data
def State.queueHere (s : State) (c spkg : Nat) (va : Word) (data : List Byte) : BitVec 8 × State :=
  match classify va.toNat with
  | .slice u _ =>
    if s.absent c u then s.bouncePutq c spkg va.toNat data
    else if s.lost u || (s.tile u).ctx != c then (cSLICEPERM, s)
    else s.toQueue (s.hubIn c) (some u) va.toNat data
  | _ => s.toQueue (s.hubIn c) none va.toNat data

/-- The bytes of a source read that has arrived for context c, or its cause (R204, R211): PERM for a slice of an absent context
(log 115). -/
def State.sourceHere (s : State) (c : Nat) (va : Word) (n : Nat) : Except Cause (List Byte) × State :=
  let read := fun (s : State) ls =>
    if s.partsBad ls then (.error cDATAERR, s.foundParts ls)
    else
      let (b, s) := s.readParts ls
      (.ok b, s)
  match classify va.toNat with
  | .slice u off =>
    if s.lost u || s.absent c u || (s.tile u).ctx != c || decide (scratchSize < off + n) then (.error cPERM, s)
    else read s [(.scratch u off, n)]
  | _ =>
    match s.placeParts (s.hubIn c) none .load false (splitPages va.toNat 2 n) with
    | (.error e, s) => (.error e, s)
    | (.ok ls, s) => read s ls

end Sys2Proof.Machine
end

