-- ==== Sys2Proof/Machine/Sync.lean ====
section
/-! DEFINITION. Barriers, phases and consists (R255 to R264, R267). -/

namespace Sys2Proof.Machine

/-- The number of members of a level that only a CONCURRENT launch has (R252). -/
def Tile.levelSize (x : Tile) (lv : Level) : Nat :=
  match lv with
  | .group => x.gsize
  | .domain => x.dsize
  | _ => 1

/-- A barrier word: ILLEGAL at a level whose size is 0 (R260), met when the word issues (log 132). -/
def barrier (s : State) (lv : Level) (k : State → Out) : Out :=
  onT s fun s => if s.myTile.levelSize lv = 0 then .next s.illegal else k s

/-- An arrival (R255, R258, R261). -/
def arrive (s : State) (d : XReg) (lv : Level) (comm : Bool) : Out :=
  barrier s lv fun s =>
    let l := lv.idx
    let n := s.me.arrivals[l] + 1
    if !reached s.myTile.gen[l] (n - 2) then .next s.hold
    else
      let s := s.mapMe (fun x => { x with arrivals := x.arrivals.set l n })
      let s := if comm then s.setMyTile { s.myTile with marks := s.myTile.marks.set l (s.myTile.marks[l] ++ [n]) } else s
      .next ((s.closePhases (tileOf s.cur)).result (.x d (n.zeroExtend 64)) 1).advance

/-- BAR (R261). -/
def execBar (d : XReg) (lv : Level) (s : State) : Out := arrive s d lv false
/-- PHASE (R261). -/
def execPhase (d : XReg) (lv : Level) (s : State) : Out := arrive s d lv true
/-- BARW (R261). -/
def execBarw (a : XReg) (lv : Level) (s : State) : Out :=
  barrier s lv fun s =>
    if reached s.myTile.gen[lv.idx] ((s.rx a).setWidth 32) then .next s.advance else .next s.hold

/-- Some strand of the tile has made its own arrival for a generation. -/
def State.someArrival (s : State) (t : Nat) (l : Fin 4) (n : BitVec 32) : Bool :=
  [0, 1, 2, 3].any (fun i => reached (s.hart (4 * t + i)).arrivals[l] n)

/-- The next generation of a level of tile t completes, when every member has arrived, one by an arrival of its own
(R255, R256). -/
def State.barrierComplete (s : State) (t : Nat) (lv : Level) : State :=
  let l := lv.idx
  let all := s.members t lv
  let ms := all.filter (s.partHere (s.tile t).launch)
  let n := (s.tile t).gen[l] + 1
  if !ms.any (fun u => s.someArrival u l n) || !all.all (fun u => s.memberArrived t u l n) then s
  else
    let comm := ms.any (fun u => (s.tile u).marks[l].contains n)
    ms.foldl (fun s u =>
      let x := s.tile u
      let s := s.setTile u { x with
        gen := x.gen.set l n
        marks := x.marks.set l (x.marks[l].filter (· != n))
        dommem := setField x.dommem (53 + l.val) 1 comm.toNat }
      (s.closePhases u).wakeTile u) s

/-- BARRIER_COMPLETION. -/
def execBarrierCompletion (t : Nat) (lv : Level) (s : State) : Out := onPackage s fun s => .next (s.barrierComplete t lv)

/-! ## Consists (R263, R264, R267) -/

/-- LEAD, the members that a COUPLE value names, and whether a tile is one of them (R263). -/
def coupleLead (v : Word) : Nat := v.toNat % 512
def coupleSize (v : Word) : Nat := v.toNat / 512 % 16 + 1
def coupleHas (v : Word) (t : Nat) : Bool := decide (coupleLead v ≤ t) && decide (t < coupleLead v + coupleSize v)

/-- The conditions of R264 that the tile and the value decide. -/
def State.coupleBad (s : State) (t : Nat) (v : Word) : Option Nat :=
  let x := s.tile t
  if x.shared || x.dsize == 0 then some 1
  else if 2 ^ 13 ≤ v.toNat ∨ coupleSize v = 1 ∨ 15 < coupleLead v % 16 + (coupleSize v - 1) ∨ coupleHas v t = false
      ∨ ((List.range (coupleSize v)).all (fun i => (s.members t .domain).contains (coupleLead v + i))) = false then some 2
  else if 1 < x.csize then some 3
  else none

/-- The consist of a value forms when every member waits in COUPLE with it: positions, sizes, the count and phase of
level 1, and followers that have nothing to issue for as many cycles as their position (R263, R265). -/
def State.consistForm (s : State) (v : Word) : State :=
  let ms := (List.range (coupleSize v)).map (coupleLead v + ·)
  if ms.all (fun m => (s.hart (4 * m)).coupling == some v) then
    ms.foldl (fun s m =>
      let j := m - coupleLead v
      let x := s.tile m
      let d := setField (setField (setField x.dommem 0 4 j) 4 5 (coupleSize v)) 54 1 0
      let s := s.setTile m { x with
        dommem := d, gen := x.gen.set 1 0, marks := x.marks.set 1 [], line := List.replicate j none }
      [0, 1, 2, 3].foldl (fun s i => s.mapHart (4 * m + i) (fun y => { y with
        arrivals := y.arrivals.set 1 0, coupling := none, coupled := y.coupling == some v })) s) s
  else s

/-- The strand stands at the COUPLE that has formed its consist: issued again, that COUPLE ends (R263). -/
def Hart.coupleFormed (x : Hart) : Bool := x.coupled && x.couple.map (·.1) == some x.pc

/-- COUPLE. A member that waits with another value traps, and so does this one if it names such a member (R264). -/
def execCouple (a : XReg) (s : State) : Out :=
  onT s fun s =>
    let t := tileOf s.cur
    let v := s.rx a
    if s.me.coupleFormed then .next (s.mapMe (fun x => { x with coupled := false, couple := none })).advance
    else match s.coupleBad t v with
      | some c => .next (s.trap cCOUPLE (BitVec.ofNat 64 c))
      | none =>
        let others := (s.members t .domain).filter (fun u => u != t
          && (match (s.hart (4 * u)).coupling with | some w => w != v | none => false))
        let mine := others.any (coupleHas v)
        let theirs := others.filter (fun u => match (s.hart (4 * u)).coupling with | some w => coupleHas w t | none => false)
        let s := theirs.foldl (fun s u => s.enter (4 * u) { code := cCOUPLE, tval := 4 }) s
        if mine then .next (s.trap cCOUPLE 4)
        else
          let s := (s.mapMe (fun x => { x with coupling := some v, coupled := false })).consistForm v
          if s.me.coupled then .next s.advance else .next s.hold

/-- CONSIST_FORM of the consist that tile t waits for (R263). -/
def execConsistForm (t : Nat) (s : State) : Out :=
  onPackage s fun s =>
    match (s.hart (4 * t)).coupling with
    | some v => .next (s.consistForm v)
    | none => .next s

/-- UNCOUPLE: without effect outside a consist (R267). -/
def execUncouple (s : State) : Out :=
  onT s fun s =>
    let t := tileOf s.cur
    .next (if 1 < (s.tile t).csize then s.uncoupleTile t else s).advance

/-- Barriers of the tile that can complete, at every level. -/
def State.barrierTick (s : State) (t : Nat) : State :=
  [Level.tile, .consist, .group, .domain].foldl (fun s lv => s.barrierComplete t lv) s

end Sys2Proof.Machine
end

