-- ==== Sys2Proof/Machine/Signals.lean ====
section
/-! DEFINITION. The hub's accesses to a context's memory, and signals (R289, R290). -/

namespace Sys2Proof.Machine

/-! ## A context's memory as the hub reaches it -/

/-- n bytes of a context's memory, or the cause that stops the read (R135, R296). -/
def State.hubRead (s : State) (c va n : Nat) : Except Cause (List Byte) × State :=
  if 2 ^ 48 < va + n then (.error cPERM, s)
  else match s.placeParts (s.hubIn c) none .load false (splitPages va 3 n) with
    | (.error e, s) => (.error e, s)
    | (.ok ls, s) =>
      if s.partsBad ls then (.error cDATAERR, s.foundParts ls)
      else
        let (b, s) := s.readParts ls
        (.ok b, s)

/-- Bytes written to a context's memory, or the cause that stops the write. -/
def State.hubWrite (s : State) (c va : Nat) (b : List Byte) : Option Cause × State :=
  if 2 ^ 48 < va + b.length then (some cPERM, s)
  else match s.placeParts (s.hubIn c) none .store false (splitPages va 3 b.length) with
    | (.error e, s) => (some e, s)
    | (.ok ls, s) =>
      if ls.any (fun l => s.writeBad l.1 l.2) then (some cDATAERR, s.mergedParts ls) else (none, s.writeParts b ls)

/-! ## Signals at their home -/

/-- The number of a place: the home address that registrations name. -/
def Loc.key : Loc → Nat
  | .phys pa => pa
  | .scratch t off => 2 ^ 60 + t * 2 ^ 20 + off

/-- The first place of an access, by its number. -/
def keyOf : List (Loc × Nat) → Nat
  | [] => 0
  | p :: _ => p.1.key

/-- The number under which a registration names a strand of an absent context (R334). -/
def absentHart (c h : Nat) : Nat := (c + 1) * 2 ^ 20 + h

/-- A change to the strand that a registration names: it is here, or in a saved image. -/
def State.mapNamed (s : State) (h : Nat) (f : Hart → Hart) : State :=
  if h < 2 ^ 20 then s.mapHart h f
  else
    let c := h / 2 ^ 20 - 1
    let n := h % 2 ^ 20
    { s with images := s.images.map (fun i =>
        if i.ctx = c ∧ i.tile = tileOf n then { i with harts := i.harts.set (n % 4) (f (i.harts.getD (n % 4) {})) } else i) }

/-- A registration is woken and removed (R289): the waiting SIGW of its strand takes the waking value, and the strand's
event latch is set (R129). A strand of an absent context finds both at restore (R334). The strand of another package is told
over the chip links. -/
def State.wakeReg (s : State) (r : SigReg) (v : Word) : State :=
  match r.away with
  | some (pkg, sig) => { s with linkOut := s.linkOut ++ [.wake pkg r.hart sig v] }
  | none =>
    s.mapNamed r.hart (fun x => { x with
      latch := true
      wake := if x.wake = some (r.pa, none) ∧ r.nowait = false then some (r.pa, some v) else x.wake })

/-- A new value of the signal at a place: every registration whose target it reaches is woken and removed (R289). -/
def State.sigStore (s : State) (ls : List (Loc × Nat)) (v : Word) : State :=
  let k := keyOf ls
  let s := s.writeParts (leBytes 8 v.toNat) ls
  let hit := fun (r : SigReg) => r.pa == k && decide (r.target.toNat ≤ v.toNat)
  (s.sigs.filter hit).foldl (fun s r => s.wakeReg r v) { s with sigs := s.sigs.filter (fun r => !hit r) }

/-- SIGS by the hub on a signal of a context: value v, added or not. One that cannot be reached posts an event with its
cause (R289). -/
def State.hubSignal (s : State) (c va : Nat) (v : Word) (add : Bool) : State :=
  match s.placeParts (s.hubIn c) none .atomic false (splitPages va 1 8) with
  | (.error e, s) => s.ctxEvent c e 0 0 (BitVec.ofNat 64 va) 0
  | (.ok ls, s) =>
    if s.partsBad ls then (s.foundParts ls).ctxEvent c cDATAERR 0 0 (BitVec.ofNat 64 va) 0
    else
      let (b, s) := s.readParts ls
      s.sigStore ls (if add then BitVec.ofNat 64 (leNat b) + v else v)

/-- The completion signal of a launch (R278): SIGS with ADD and the value 1 by the hub. -/
def State.signal (s : State) (c va : Nat) : State :=
  if va = 0 ∨ va % 8 ≠ 0 then s else s.hubSignal c va 1 true

/-- A signal descriptor (R289): a set bit 62 or 63 traps PERM; another package's signal goes over the chip links. -/
def withSignal (s : State) (d : Word) (away here : State → Out) : Out :=
  if d.getLsbD 62 || d.getLsbD 63 then .next (s.trap cPERM d)
  else if Target.remote d s.pkgnum then away s else here s

/-- SIGS (R289). -/
def execSigs (a b : XReg) (add : Bool) (s : State) : Out :=
  onCore s fun s =>
    let d := s.rx a
    let v := s.rx b
    withSignal s d
      (fun s =>
        let m : LinkMsg := .sigs (Target.pkg d) ((s.ctxOf s.cur).getD 0) d v add
        .next { s with linkOut := s.linkOut ++ [m] }.advance)
      (fun s => accessing s (d &&& 0xFFFFFFFFFFFF) 8 8 .atomic false fun s ls =>
        if s.partsBad ls then .next ((s.foundParts ls).lateDataErr (d &&& 0xFFFFFFFFFFFF)).advance
        else
          let (b, s) := s.readParts ls
          .next (s.sigStore ls (if add then BitVec.ofNat 64 (leNat b) + v else v)).advance)

/-- Registrations that a package's hub holds (R290). -/
def sigSlots : Nat := 16384

/-- The registrations without those of a strand for a signal. -/
def State.dropReg (s : State) (h k : Nat) : State :=
  { s with sigs := s.sigs.filter (fun r => !(r.away.isNone && r.hart == h && r.pa == k)) }

/-- The launch that the moving strand belongs to. -/
def State.myLaunch (s : State) : Option Nat := if isT s.cur then s.myTile.launch else none

/-- SIGW after its first issue: it ends with the value of a wake, and reads nothing while it waits for one (R290). -/
def sigwAgain (s : State) (d : XReg) (first : State → Out) : Out :=
  match s.me.wake with
  | some (_, some w) => .next (s.resultV1 (.x d w)).advance
  | some (_, none) => .next s.hold
  | none => first s

/-- SIGW registers (signal k, target t) for the strand: with NOWAIT it completes with the value read, else it waits. -/
def sigwKept (s : State) (d : XReg) (k : Nat) (v : Word) (nowait : Bool) : Out :=
  if nowait then .next (s.resultV1 (.x d v)).advance
  else .next (s.mapMe (fun x => { x with wake := some (k, none) })).hold

/-- SIGW on a signal of this package, read as v at place k, with target t (R290). -/
def sigwHere (s : State) (d : XReg) (k : Nat) (v t : Word) (nowait : Bool) : Out :=
  let old := s.sigs.any (fun r => r.away.isNone && r.hart == s.cur && r.pa == k)
  let reg : SigReg := { pa := k, target := t, hart := s.cur, nowait := nowait, launch := s.myLaunch }
  if t.toNat ≤ v.toNat then .next ((s.dropReg s.cur k).resultV1 (.x d v)).advance
  else if !old && decide (sigSlots ≤ s.sigs.length) then .next s.hold
  else
    let s := s.dropReg s.cur k
    sigwKept { s with sigs := s.sigs ++ [reg] } d k v nowait

/-- The number that stands for a signal of another package: its descriptor, apart from every place's number. -/
def awayKey (g : Word) : Nat := 2 ^ 64 + g.toNat

/-- SIGW on a signal of another package (R290): the value that its home answers is a free value; a registration there wakes
the strand over the chip links. -/
def sigwAway (s : State) (d : XReg) (g t : Word) (nowait : Bool) : Out :=
  let k := awayKey g
  let (v, s) : Word × State := s.draw 64
  let reg : SigReg := { pa := k, target := t, hart := s.cur, nowait := nowait, launch := s.myLaunch }
  let m : LinkMsg := .sigw (Target.pkg g) ((s.ctxOf s.cur).getD 0) s.cur g t nowait
  let rest := s.sigsAway.filter (fun r => !(r.hart == s.cur && r.pa == k))
  let s := { s with linkOut := s.linkOut ++ [m] }
  if t.toNat ≤ v.toNat then .next ({ s with sigsAway := rest }.resultV1 (.x d v)).advance
  else sigwKept { s with sigsAway := rest ++ [reg] } d k v nowait

/-- A wake from the home of a signal on another package, for strand h here (R289). -/
def State.wakeAway (s : State) (pkg h : Nat) (sig v : Word) : State :=
  let hit := fun (r : SigReg) =>
    r.hart % 2 ^ 20 == h && Target.pkg (BitVec.ofNat 64 r.pa) == pkg
      && Target.addr (BitVec.ofNat 64 r.pa) == Target.addr sig && decide (r.target.toNat ≤ v.toNat)
  (s.sigsAway.filter hit).foldl (fun s r => s.wakeReg r v) { s with sigsAway := s.sigsAway.filter (fun r => !hit r) }

/-- SIGW of strand h of another package on a signal of context c here (R290): the value answers it, and a registration whose
target the value does not reach is kept. With the table full the answer waits, and the sender asks again. -/
def State.sigwFrom (s : State) (c pkg h : Nat) (sig t : Word) (nowait : Bool) : State :=
  let va := Target.addr sig
  match s.placeParts (s.hubIn c) none .load false (splitPages va 1 8) with
  | (.error e, s) => s.ctxEvent c e 0 0 (BitVec.ofNat 64 va) 0
  | (.ok ls, s) =>
    if s.partsBad ls then (s.foundParts ls).ctxEvent c cDATAERR 0 0 (BitVec.ofNat 64 va) 0
    else
      let (b, s) := s.readParts ls
      let v := BitVec.ofNat 64 (leNat b)
      let mine := fun (r : SigReg) => r.hart == h && r.pa == keyOf ls && r.away.map (·.1) == some pkg
      let rest := s.sigs.filter (fun r => !mine r)
      let reg : SigReg := { pa := keyOf ls, target := t, hart := h, nowait := nowait, away := some (pkg, sig) }
      let answer := fun (s : State) => { s with linkOut := s.linkOut ++ [.value pkg v] }
      if t.toNat ≤ v.toNat then answer { s with sigs := rest }
      else if sigSlots ≤ rest.length then s
      else answer { s with sigs := rest ++ [reg] }

/-- SIGW (R290). -/
def execSigw (d a b : XReg) (nowait : Bool) (s : State) : Out :=
  onCore s fun s =>
    let g := s.rx a
    let t := s.rx b
    withSignal s g
      (fun s => sigwAgain s d fun s => sigwAway s d g t nowait)
      (fun s => sigwAgain s d fun s =>
        accessing s (g &&& 0xFFFFFFFFFFFF) 8 8 .load false fun s ls =>
          if s.partsBad ls then .next ((s.foundParts ls).lateDataErr (g &&& 0xFFFFFFFFFFFF)).advance
          else
            let (y, s) := s.readParts ls
            sigwHere s d (keyOf ls) (BitVec.ofNat 64 (leNat y)) t nowait)

/-- The registrations of the strands of a launch go (R290, R395); a home on another package is told. -/
def State.dropLaunchRegs (s : State) (n : Nat) : State :=
  let mine := fun (r : SigReg) => r.launch == some n
  { s with
    sigs := s.sigs.filter (fun r => !mine r)
    sigsAway := s.sigsAway.filter (fun r => !mine r)
    linkOut := s.linkOut ++ ((s.sigsAway.filter mine).map (fun r =>
      LinkMsg.sigDrop (Target.pkg (BitVec.ofNat 64 r.pa)) (r.hart % 2 ^ 20))) }

end Sys2Proof.Machine
end

