-- ==== Sys2Proof/Machine/Yard.lean ====
section
/-! DEFINITION. User queues and the marshalling yard (R269 to R272, R294). -/

namespace Sys2Proof.Machine

/-- STATE of a queue header (R269). -/
def QueueState.code : QueueState → Nat
  | .idle => 0
  | .waiting => 1
  | .mapped => 2
  | .overrun => 3

/-- A queue's fields, and its header as the device writes it. A header that cannot be written keeps its bytes. -/
def State.writeQueue (s : State) (q : Nat) (u : UQueue) : State :=
  ((s.setQueue q u).hubWrite u.ctx u.hdr.toNat (leBytes 8 u.ridx.toNat ++ leBytes 8 u.widx.toNat ++ leBytes 1 u.st.code)).2

/-- NOTIFY_WRITE: the rows of R270, in their order. -/
def State.notify (s : State) (q : Nat) (w : Word) : State :=
  let u := s.queue q
  if !u.valid || u.st == .overrun || decide (w.toNat ≤ u.widx.toNat) then s
  else if 2 ^ u.sz < (w - u.ridx).toNat then
    (s.writeQueue q { u with st := .overrun }).ctxEvent u.ctx 0x09 0 (BitVec.ofNat 64 q) 0 0
  else if u.st = .idle then s.writeQueue q { u with widx := w, st := .waiting, since := s.dtime, aged := 0 }
  else s.writeQueue q { u with widx := w }

/-- NOTIFY_WRITE. -/
def execNotifyWrite (q : Nat) (v : Word) (s : State) : Out := onPackage s fun s => .next (s.notify q v)

/-! ## The yard (R271) -/

/-- The raises due to a waiting queue: 1 for every 2^16 cycles, up to priority 7. -/
def UQueue.raises (u : UQueue) (now : Nat) : Nat := Nat.min ((now - u.since) / 0x10000) (7 - u.prio)

/-- The effective priority. -/
def UQueue.eff (u : UQueue) : Nat := if u.st = .waiting then u.prio + u.aged else u.prio

/-- A waiting queue's effective priority is brought up to date. -/
def State.ageQueue (s : State) (q : Nat) : State :=
  let u := s.queue q
  if u.st = .waiting then s.setQueue q { u with aged := u.raises s.dtime } else s

/-- YARD_PRIORITY_AGE. -/
def execYardPriorityAge (q : Nat) (s : State) : Out := onPackage s fun s => .next (s.ageQueue q)

/-- The least of a list under a strict order; of equals the first. -/
def least {α : Type} (lt : α → α → Bool) : List α → Option α
  | [] => none
  | x :: xs => match least lt xs with
    | none => some x
    | some y => if lt y x then some y else some x

/-- Queue a is admitted before queue b: priority, entry into WAITING, number. -/
def admitBefore (a b : Nat × UQueue) : Bool :=
  if a.2.eff ≠ b.2.eff then decide (b.2.eff < a.2.eff)
  else if a.2.since ≠ b.2.since then decide (a.2.since < b.2.since) else decide (a.1 < b.1)

/-- Mapped queue a is evicted before mapped queue b: lowest priority, then the longest holder. -/
def evictBefore (a b : Nat × UQueue) : Bool :=
  if a.2.prio ≠ b.2.prio then decide (a.2.prio < b.2.prio)
  else if a.2.since ≠ b.2.since then decide (a.2.since < b.2.since) else decide (a.1 < b.1)

/-- The mapped queue that a waiting queue of effective priority p may evict. -/
def State.victim (s : State) (p : Nat) : Option (Nat × UQueue) :=
  let ms := s.queues.filter (fun q => q.2.st == .mapped)
  match least evictBefore (ms.filter (fun q => decide (q.2.prio < p))) with
  | some v => some v
  | none => least evictBefore (ms.filter (fun q => q.2.prio == p && decide (q.2.since + 0x100000 ≤ s.dtime)))

/-- The waiting queue that stands first takes a free slot, or the slot of a queue that it evicts. -/
def State.admitNext (s : State) : State :=
  let s := s.queues.foldl (fun s q => s.ageQueue q.1) s
  match least admitBefore (s.queues.filter (fun q => q.2.st == .waiting)) with
  | none => s
  | some (q, u) =>
    let go := fun (s : State) => s.writeQueue q { u with st := .mapped, since := s.dtime, busyAt := s.dtime, aged := 0 }
    if (s.queues.filter (fun q => q.2.st == .mapped)).length < 32 then go s
    else match s.victim u.eff with
      | none => s
      | some (r, w) => go (s.writeQueue r { w with st := .waiting, since := s.dtime, aged := 0 })

/-- YARD_ADMIT. -/
def execYardAdmit (s : State) : Out := onPackage s fun s => .next s.admitNext

/-- YARD_IDLE_RELEASE. -/
def execYardIdleRelease (q : Nat) (s : State) : Out :=
  onPackage s fun s =>
    let u := s.queue q
    if u.st = .mapped ∧ u.ridx = u.widx ∧ u.busyAt + 4096 ≤ s.dtime then .next (s.writeQueue q { u with st := .idle })
    else .next s

/-- The next packet of a mapped queue becomes an event (R272). A packet that cannot be read is a free value. -/
def State.takePacket (s : State) (q : Nat) : State :=
  let u := s.queue q
  if u.st = .mapped ∧ u.ridx.toNat < u.widx.toNat then
    match s.hubRead u.ctx (u.hdr.toNat + 64 + u.ridx.toNat % 2 ^ u.sz * 64) 64 with
    | (r, s) =>
      let (b, s) : List Byte × State := match r with
        | .ok b => (b, s)
        | .error _ =>
          let (v, s) := s.draw 512
          (leBytes 64 v.toNat, s)
      let ev : SbEvent := ⟨q, u.ridx, u.ctx, b⟩
      let s := { s with events := s.events ++ [ev] }
      s.writeQueue q { u with ridx := u.ridx + 1, busyAt := s.dtime }
  else s

/-- PACKET_TAKE. -/
def execPacketTake (q : Nat) (s : State) : Out := onPackage s fun s => .next (s.takePacket q)

/-! ## Registration (R294) -/

/-- The byte of an entry of the queue table that holds QVALID. -/
def qvalidAt (q : Nat) : Nat := 0x08F000000000 + 32 * q + 11

/-- QUEUE_REGISTER: the other fields are read, and the header is written; a field out of range refuses it. -/
def execQueueRegister (q : Nat) (s : State) : Out :=
  onPackage s fun s =>
    let e := 0x08F000000000 + 32 * q
    let hdr := s.ioRead e 8
    let sz := s.ioRead (e + 8) 1
    let prio := s.ioRead (e + 9) 1
    let c := s.ioRead (e + 10) 1
    if 1024 ≤ q then .next s
    else if hdr % 64 ≠ 0 ∨ sz < 4 ∨ 16 < sz ∨ 7 < prio then .next ((s.setQueue q {}).ioWrite (qvalidAt q) 1 0)
    else
      let u : UQueue := { valid := true, hdr := BitVec.ofNat 64 hdr, sz := sz, prio := prio, ctx := c }
      .next (((s.setQueue q u).hubWrite c hdr (List.replicate 64 0)).2.ioWrite (qvalidAt q) 1 1)

/-- QUEUE_REMOVE: a mapped queue releases its slot; packets already taken go on. -/
def execQueueRemove (q : Nat) (s : State) : Out :=
  onPackage s fun s => if 1024 ≤ q then .next s else .next ((s.setQueue q {}).ioWrite (qvalidAt q) 1 0)

end Sys2Proof.Machine
end

