-- ==== Sys2Proof/Machine/Coverage.lean ====
section
/-! DEFINITION. Coverage: screens, probes, the deal of a covered card, the retouch unit and exposure channels (R345 to
R358). -/

namespace Sys2Proof.Machine

/-! ## Job cards (R279, R346) -/

/-- Field of n bytes at byte lo of a card or record. -/
def field (b : List Byte) (lo n : Nat) : Nat := leNat ((b.drop lo).take n)

namespace Card

def entry (b : List Byte) : Nat := field b 0 8
def rbase (b : List Byte) : Nat := field b 8 8
def rsize (b : List Byte) : Nat := field b 16 4
/-- CMIN: 0 acts as 1. -/
def cmin (b : List Byte) : Nat := Nat.max 1 (field b 20 4)
def count (b : List Byte) : Nat := field b 24 8
def next (b : List Byte) : Nat := field b 32 8
/-- PART: 0 acts as 1 (R280). -/
def part (b : List Byte) : Nat := Nat.max 1 (field b 40 4)
def rreg (b : List Byte) : BitVec 32 := BitVec.ofNat 32 (field b 44 4)
def expo (b : List Byte) : Nat := field b 48 6
def segs (b : List Byte) : Nat := field b 54 2
def screen (b : List Byte) : Nat := field b 56 1 % 16
def dtype (b : List Byte) : Nat := field b 56 1 / 16
def pstride (b : List Byte) : Nat := field b 57 1
def on (b : List Byte) : Bool := field b 58 1 % 2 == 1
def rows (b : List Byte) : Nat := count b / segs b

end Card

/-- Element width in bytes of a data type (R351). -/
def coverBytes (dt : Nat) : Nat := if dt = 0 ∨ dt = 3 then 4 else if dt = 5 ∨ dt = 6 then 1 else 2

/-! ## Exposure channels (R354, R355) -/

/-- Rung k of a channel record's ladder. -/
def rung (ch : List Byte) (k : Nat) : Nat := field ch 2 4 / 16 ^ k % 16

/-- A valid channel record (R355). TOL is neither negative nor NaN; −0 counts as negative. -/
def channelValid (ch : List Byte) : Bool :=
  let n := field ch 0 1
  let tol := field ch 8 4
  decide (1 ≤ n) && decide (n ≤ 8) && decide (field ch 1 1 < n) && field ch 6 2 == 0 && decide (tol ≤ 0x7F800000)
    && (List.range n).all (fun k => decide (rung ch k ≤ 4))

/-- The conditions of R346 that the card decides. -/
def coverBad (b : List Byte) : Bool :=
  if !Card.on b then (b.drop 48).any (· != 0)
  else
    let w := coverBytes (Card.dtype b)
    decide (2 ≤ field b 58 1) || field b 59 5 != 0 || Card.segs b == 0 || decide (4096 < Card.segs b)
      || Card.count b % Card.segs b != 0 || decide (6 < Card.dtype b) || Card.rsize b == 0 || decide (256 < Card.rsize b)
      || Card.rsize b % w != 0 || Card.rbase b % w != 0 || decide (4 < Card.screen b) || Card.expo b % 64 != 0

/-- The start of a launch under its card (R346, R349): its screen, or none when the coverage fields are invalid. -/
def State.coverStart (s : State) (c : Nat) (b : List Byte) : Option Nat × State :=
  if coverBad b then (none, s)
  else if !Card.on b then (some 0, s)
  else if Card.expo b = 0 then (some (Card.screen b), s)
  else match s.hubRead c (Card.expo b) 64 with
    | (.error _, s) => (none, s)
    | (.ok ch, s) => (if channelValid ch then some (rung ch (field ch 1 1)) else none, s)

/-! ## Screens and probes (R347, R348) -/

/-- Point (r, s) is skipped under a screen. -/
def screenSkips (screen r s : Nat) : Bool :=
  match screen with
  | 1 => (r + 2 * s) % 4 == 1
  | 2 => r % 4 == 1
  | 3 => (r + s) % 2 == 1
  | 4 => r % 2 == 1
  | _ => false

/-- Record p of a card is a skipped point. -/
def skips (b : List Byte) (screen p : Nat) : Bool :=
  Card.rows b != 1 && screenSkips screen (p / Card.segs b) (p % Card.segs b)
/-- The skip ordinal of a point. -/
def skipOrdinal (b : List Byte) (screen p : Nat) : Nat := ((List.range p).filter (skips b screen)).length
def probes (b : List Byte) (screen p : Nat) : Bool :=
  skips b screen p && Card.pstride b != 0 && skipOrdinal b screen p % Card.pstride b == 0
/-- The program is given the point: it is kept, or a probe. -/
def dealt (b : List Byte) (screen p : Nat) : Bool := !skips b screen p || probes b screen p

/-! ## The block walker (R280, R350) -/

/-- ceil(rem ÷ (2 × PART)). -/
def share (rem part : Nat) : Nat := (rem + 2 * part - 1) / (2 * part)

/-- The deal of a card as it stands: first record, count, and NEXT after it (R280). -/
def dealPlain (b : List Byte) : Nat × Nat × Nat :=
  let n := Card.next b
  let rem := Card.count b - n
  let c := Nat.min rem (Nat.max (Card.cmin b) (share rem (Card.part b)))
  (n, c, n + c)

/-- The first of the n numbers from p on that satisfies d. -/
def firstFrom (d : Nat → Bool) (p : Nat) : Nat → Option Nat
  | 0 => none
  | n + 1 => if d p then some p else firstFrom d (p + 1) n
/-- The length of the run of dealt points from p on, among n points. -/
def runLength (d : Nat → Bool) (p : Nat) : Nat → Nat
  | 0 => 0
  | n + 1 => if d p then 1 + runLength d (p + 1) n else 0

/-- The deal of a covered card: d names the dealt points (R350). -/
def dealCovered (b : List Byte) (d : Nat → Bool) : Nat × Nat × Nat :=
  let n := Card.next b
  let left := Card.count b - n
  match firstFrom d n left with
  | none => (n, 0, n)
  | some p =>
    let rem := ((List.range left).filter (fun i => d (n + i))).length
    let run := runLength d p (Card.count b - p)
    let c := Nat.min run (Nat.max (Card.cmin b) (share rem (Card.part b)))
    (p, c, p + c)

/-! ## Retouch kernels (R351, R352) -/

/-- The format of a data type. -/
def coverFmt (dt : Nat) : Fmt :=
  match dt with
  | 0 => .fp32
  | 1 => .bf16
  | 2 => .fp16
  | 4 => .i16
  | 5 => .i8
  | _ => .ui8

/-- An integer element of w bytes. -/
def coverInt (dt x : Nat) : Int :=
  let w := 8 * coverBytes dt
  if dt ≠ 6 ∧ 2 ^ (w - 1) ≤ x then (x : Int) - 2 ^ w else x

/-- The value of an element: exact. -/
def coverValue (dt x : Nat) : Num :=
  match floatFmt? (coverFmt dt) with
  | some f => f.value x
  | none => ofInt (coverInt dt x)

/-- Avg of R351 on two elements. -/
def coverAvg (dt a c : Nat) : Nat :=
  match floatFmt? (coverFmt dt) with
  | some f => (roundNum f .rne false ((addNum .rne (f.value a) (f.value c)).1.scale (-1))).1
  | none => (((coverInt dt a + coverInt dt c + 1) / 2) % 2 ^ (8 * coverBytes dt)).toNat

/-- The elements of a record. -/
def coverElems (dt rsize : Nat) (b : List Byte) : List Nat :=
  (List.range (rsize / coverBytes dt)).map (fun i => field b (i * coverBytes dt) (coverBytes dt))

/-- The retouch value of a skipped point in row r from the records above and below (R352). -/
def retouchValue (dt r rows : Nat) (u d : List Nat) : List Nat :=
  if 1 ≤ r ∧ r + 2 ≤ rows then (u.zip d).map (fun p => coverAvg dt p.1 p.2) else if 1 ≤ r then u else d

/-! ## The error measure (R353) -/

/-- The error of an element. -/
def elemError (dt c t : Nat) : Num :=
  match coverValue dt c, coverValue dt t with
  | .nan, _ => .inf false
  | _, .nan => .inf false
  | .inf a, .inf b => if a = b then .fin false 0 0 false else .inf false
  | .inf _, _ => .inf false
  | _, .inf _ => .inf false
  | x, y => (addNum .rne x y.neg).1.abs

/-- The larger of two errors. -/
def maxError (a b : Num) : Num :=
  match cmpNum a b with
  | some i => if i < 0 then b else a
  | none => a

/-- What a retouch has found so far: the largest error, the probes and the records filled. -/
structure Retouch where
  err : Num := .fin false 0 0 false
  probes : Nat := 0
  fills : Nat := 0
  deriving DecidableEq, Repr

/-- The address of record p. -/
def recordVa (b : List Byte) (p : Nat) : Nat := (Card.rbase b + p * Card.rsize b) % 2 ^ 64

/-- One skipped point: its neighbours are read, and it is filled or, a probe, measured; or the cause and its address. -/
def State.retouchPoint (s : State) (c : Nat) (b : List Byte) (screen p : Nat) (k : Retouch) :
    Except (Cause × Nat) Retouch × State :=
  let dt := Card.dtype b
  let n := Card.rsize b
  let r := p / Card.segs b
  let read := fun (s : State) (want : Bool) (q : Nat) =>
    if want then
      match s.hubRead c (recordVa b q) n with
      | (.error e, s) => ((.error (e, recordVa b q) : Except (Cause × Nat) (List Nat)), s)
      | (.ok y, s) => (.ok (coverElems dt n y), s)
    else (.ok [], s)
  match read s (decide (1 ≤ r)) (p - Card.segs b) with
  | (.error e, s) => (.error e, s)
  | (.ok u, s) =>
    match read s (decide (r + 2 ≤ Card.rows b)) (p + Card.segs b) with
    | (.error e, s) => (.error e, s)
    | (.ok d, s) =>
      let t := retouchValue dt r (Card.rows b) u d
      if probes b screen p then
        match read s true p with
        | (.error e, s) => (.error e, s)
        | (.ok y, s) =>
          let e := (y.zip t).foldl (fun m q => maxError m (elemError dt q.1 q.2)) k.err
          (.ok { k with err := e, probes := k.probes + 1 }, s)
      else
        match s.hubWrite c (recordVa b p) (t.flatMap (fun x => leBytes (coverBytes dt) x)) with
        | (some e, s) => (.error (e, recordVa b p), s)
        | (none, s) => (.ok { k with fills := k.fills + 1 }, s)

/-- The skipped points of a list, in order; a cause stops at its point. -/
def State.retouchAll (s : State) (c : Nat) (b : List Byte) (screen : Nat) :
    List Nat → Retouch → Except (Nat × Cause × Nat) Retouch × State
  | [], k => (.ok k, s)
  | p :: ps, k =>
    if !skips b screen p then s.retouchAll c b screen ps k
    else match s.retouchPoint c b screen p k with
      | (.error e, s) => (.error (p, e), s)
      | (.ok k, s) => s.retouchAll c b screen ps k

/-! ## The update of a channel (R356) -/

/-- The channel record after a launch with error e (an FP32 pattern). -/
def channelAfter (ch : List Byte) (e : Nat) (k : Retouch) : List Byte :=
  let er := FloatFmt.fp32.value e
  let tol := FloatFmt.fp32.value (field ch 8 4)
  let r := field ch 1 1
  let above := match cmpNum er tol with | some i => decide (0 < i) | none => false
  let below := match cmpNum er (tol.scale (-2)) with | some i => decide (i ≤ 0) | none => false
  let r' := if above then r - 1 else if below then Nat.min (r + 1) (field ch 0 1 - 1) else r
  ch.take 1 ++ leBytes 1 r' ++ (ch.drop 2).take 10 ++ leBytes 4 e ++ leBytes 8 (field ch 16 8 + 1)
    ++ leBytes 4 k.probes ++ leBytes 4 k.fills ++ ch.drop 32

/-- The launch error rounded to FP32 toward +∞ (R353). -/
def launchError (k : Retouch) : Nat := (roundNum FloatFmt.fp32 .rup false k.err).1

/-- Retouch and channel update of a completed launch of context c (R357, R358): its status. pcid names the launch in an
event. -/
def State.retouch (s : State) (c pcid : Nat) (b : List Byte) (screen : Nat) : BitVec 8 × State :=
  let id := BitVec.ofNat 64 pcid
  match s.retouchAll c b screen (List.range (Card.count b)) {} with
  | (.error (p, e, va), s) => (e, s.ctxEvent c e 0 id (BitVec.ofNat 64 va) p)
  | (.ok k, s) =>
    let x := Card.expo b
    if x = 0 then (0, s)
    else match s.hubRead c x 64 with
      | (.error e, s) => (e, s.ctxEvent c e 0 id (BitVec.ofNat 64 x) 0)
      | (.ok ch, s) =>
        if !channelValid ch then (0, s.ctxEvent c 0x07 0 id 0 0)
        else match s.hubWrite c x (channelAfter ch (launchError k) k) with
          | (some e, s) => (e, s.ctxEvent c e 0 id (BitVec.ofNat 64 x) 0)
          | (none, s) => (0, s)

end Sys2Proof.Machine
end

