-- ==== Sys2Proof/Machine/Depot.lean ====
section
/-! DEFINITION. Launch records, the depot, and the completion of launches (R273, R275, R278, R281 to R284, R360). -/

namespace Sys2Proof.Machine

/-! ## Launch records (R273) -/

namespace Rec

def kind (b : List Byte) : Nat := field b 0 1
def barrier (b : List Byte) : Bool := field b 1 1 % 2 == 1
def shared (b : List Byte) : Bool := field b 1 1 / 2 % 2 == 1
def handoff (b : List Byte) : Bool := field b 1 1 / 16 % 2 == 1
def width (b : List Byte) : Nat := field b 2 1
def height (b : List Byte) : Nat := field b 3 1
def strands (b : List Byte) : Nat := field b 4 1 % 8
def prio (b : List Byte) : Nat := field b 4 1 / 8 % 8
def chlvl (b : List Byte) : Nat := field b 4 1 / 64
/-- GROUPS: 0 and 1 mean one group. -/
def groups (b : List Byte) : Nat := recGroups b
def dcnt (b : List Byte) : Nat := field b 6 2
def card (b : List Byte) : Nat := field b 8 6
def sig (b : List Byte) : Nat := field b 14 6
/-- Tiles of the launch. -/
def size (b : List Byte) : Nat := width b * height b
/-- The successor indices, in order, without the empty ones. -/
def succ (b : List Byte) : List Nat :=
  ((List.range 8).map (fun i => field b 20 12 / 4096 ^ i % 4096)).filter (· != 0xFFF)

end Rec

/-- The rectangle with corner n, if it lies on the grid of logical tiles (R274). -/
def rectangle (w h n : Nat) : Option (List Nat) :=
  if n % 16 + w ≤ 16 ∧ n / 16 + h ≤ 32 then
    some ((List.range h).flatMap (fun r => (List.range w).map (fun k => n + 16 * r + k)))
  else none

/-- The rectangle of lowest corner whose tiles all satisfy ok. -/
def firstFit (ok : Nat → Bool) (w h : Nat) : Option (List Nat) :=
  (List.range 512).findSome? (fun n => (rectangle w h n).filter (·.all ok))

/-- A reserved value or bit, or a depot field in a packet (R273; GROUPS above 64 is a reserved value). -/
def recReserved (b : List Byte) (packet : Bool) : Bool :=
  decide (32 ≤ field b 1 1) || Rec.sig b % 8 != 0
    || (packet && (Rec.prio b != 0 || Rec.handoff b || Rec.dcnt b != 0))
    || (Rec.kind b == 1 && (recClass b == 3 || decide (64 < field b 5 1)))

/-- The code of R275 that a record of context c earns before it is placed, lowest first; 0 accepts it. -/
def State.recCheck (s : State) (c : Nat) (b : List Byte) (packet : Bool) : Nat :=
  let w := Rec.width b
  let h := Rec.height b
  let conc := recClass b == 2
  if Rec.kind b ≠ 1 ∧ (Rec.kind b ≠ 2 ∨ packet = false) then 0x01
  else if recReserved b packet then 0x02
  else if Rec.kind b = 2 then 0
  else if w = 0 ∨ 16 < w ∨ h = 0 ∨ 32 < h ∨ Rec.strands b = 0 ∨ 4 < Rec.strands b
      ∨ (Rec.shared b = false ∧ Rec.strands b ≠ 1) then 0x03
  else if conc && (firstFit ((s.partTiles c).contains ·) w h).isNone then 0x04
  else if Rec.card b % 64 ≠ 0 then 0x05
  else if (w * h) % Rec.groups b ≠ 0 ∨ (conc = false ∧ (Rec.groups b ≠ 1 ∨ 2 ≤ Rec.chlvl b)) then 0x06
  else if Rec.handoff b ∧ w * h ≠ 1 then 0x08
  else 0

/-! ## The depot (R281, R282) -/

/-- A launch event for a context (R275, R328), with the record index or queue number. -/
def State.launchEvent (s : State) (c code pcid : Nat) : State :=
  s.ctxEvent c (BitVec.ofNat 8 code) 0 (BitVec.ofNat 64 pcid) 0 0

/-- A record becomes READY: it stands in its context's ready queue, or earns the code that rejects it (R275, R282). The
tile and region of the predecessor that made it ready go with a handoff (R284). -/
def State.makeReady (s : State) (c i : Nat) (hand : Option (Nat × BitVec 32)) : Nat × State :=
  let r := s.depot c i
  let hand := if Rec.handoff r.bytes then hand else none
  let s := s.setDepot c i { r with st := .ready, readyAt := s.dtime, handoff := hand }
  match s.recCheck c r.bytes false with
  | 0 =>
    let l : Launch :=
      { ctx := c, queue := none, record := some i, bytes := r.bytes, size := Rec.size r.bytes, handoff := hand, readyAt := s.dtime }
    (0, { s with launches := put s.launches s.nextLaunch l, nextLaunch := s.nextLaunch + 1 })
  | code => (code, s.launchEvent c code i)

/-- A predecessor, record i, completes: the decrement of record j (R282). The code that rejects j, if it became READY
and is rejected. -/
def State.decrement (s : State) (c i j : Nat) (hand : Option (Nat × BitVec 32)) : Nat × State :=
  let r := s.depot c j
  if (s.ctx c).drecs ≤ j then (0, s.launchEvent c 0x0A i)
  else match r.st with
    | .idle => (0, s.setDepot c j { r with early := r.early + 1 })
    | .armed =>
      let s := s.setDepot c j { r with cnt := r.cnt - 1 }
      if r.cnt ≤ 1 then s.makeReady c j hand else (0, s)
    | .ready | .running => (0, s.launchEvent c 0x0C j)

/-- The decrements of a completion, in SUCC order; the records it makes ready and rejects, with their codes. -/
def State.decrements (s : State) (c i : Nat) (hand : Option (Nat × BitVec 32)) :
    List Nat → List (Nat × Nat) × State
  | [] => ([], s)
  | j :: js =>
    let (code, s) := s.decrement c i j hand
    let (l, s) := s.decrements c i hand js
    (if code = 0 then l else (j, code) :: l, s)

/-- A record's launch completes (R278, steps 2 to 4): successors, signal, DONES and status; a rejected record completes at
once, and so on (R275). Each completion leaves its record IDLE, so as many rounds as a depot has records are enough. -/
def State.finishRec : Nat → State → Nat → Nat → BitVec 8 → Option (Nat × BitVec 32) → State
  | 0, s, _, _, _, _ => s
  | n + 1, s, c, i, status, hand =>
    let b := (s.depot c i).bytes
    let (rej, s) := s.decrements c i hand (Rec.succ b)
    let s := s.signal c (Rec.sig b)
    let r := s.depot c i
    let s := s.setDepot c i { r with st := .idle, dones := r.dones + 1, status := status }
    rej.foldl (fun s p => State.finishRec n s c p.1 (BitVec.ofNat 8 p.2) none) s

/-- A depot record completes with a status. -/
def State.recDone (s : State) (c i : Nat) (status : BitVec 8) (hand : Option (Nat × BitVec 32)) : State :=
  State.finishRec 4097 s c i status hand

/-- A region that has been put by goes to the launches from number n on that receive it (R284; log 105). -/
def State.passRegion (s : State) (n : Nat) (b : Option (List Byte)) : State :=
  match b with
  | none => s
  | some _ => { s with launches := s.launches.map (fun m =>
      if n ≤ m.1 ∧ m.2.handoff.isSome then (m.1, { m.2 with region := b }) else m) }

/-- A launch completes with a status: steps 1 to 4 of R278 and the end of its strands' registrations (R290). -/
def State.launchDone (s : State) (n : Nat) (l : Launch) (status : BitVec 8) : State :=
  let s := (s.dropLaunchRegs n).dropLaunch n
  match l.record with
  | some i =>
    (s.recDone l.ctx i status (l.tiles.head?.map (fun t => (t, Card.rreg l.card)))).passRegion s.nextLaunch l.region
  | none => s.signal l.ctx (Rec.sig l.bytes)

/-- The number that names a launch in an event: its record or its queue (R328). -/
def Launch.name (l : Launch) : Nat :=
  match l.record with
  | some i => i
  | none => (l.queue.map (·.1)).getD 0

/-- A launch that has been taken up is rejected with a code (R275). -/
def State.rejectLaunch (s : State) (n : Nat) (l : Launch) (code : Nat) : State :=
  (s.launchEvent l.ctx code l.name).launchDone n l (BitVec.ofNat 8 code)

/-- RSTATE is not RUN: the signal box places no launch and arms no record (R383). -/
def State.crashed (s : State) : Bool := s.ioRead 0x08F50000000A 1 % 4 != 0

/-- Arms a record of a context (R282, R287, R288), with argument words that GDISP stores. Answers the status and ARMS
before the arm; a failure changes nothing. -/
def State.arm (s : State) (c? : Option Nat) (i : Nat) (args : Option (List Byte)) : Nat × Nat × State :=
  match c? with
  | none => (0x0A, 0, s)
  | some c =>
    if (s.ctx c).valid = false ∨ (s.ctx c).drecs ≤ i then (0x0A, 0, s)
    else if (s.depot c i).st ≠ .idle then (0x0B, 0, s)
    else
      let va := (s.ctx c).depot.toNat + 64 * i
      match s.hubRead c va 64 with
      | (.error _, s) => (0x0E, 0, s)
      | (.ok m, s) =>
        let (bad, s) : Option Cause × State := match args with
          | none => (none, s)
          | some a => s.hubWrite c (va + 32) a
        match bad with
        | some _ => (0x0E, 0, s)
        | none =>
          let r := s.depot c i
          let d := field m 6 2
          let cnt := d - r.early
          let low := decide (d < r.early)
          let r' : DepotRec := { r with
            bytes := r.bytes.take 6 ++ (m.drop 6).take 2 ++ ((r.bytes.drop 8).take 24) ++ args.getD (m.drop 32)
            st := .armed, cnt := cnt, early := 0, arms := r.arms + 1 }
          let s := s.setDepot c i r'
          let s := if low then s.launchEvent c 0x0C i else s
          if cnt = 0 then
            match s.makeReady c i none with
            | (0, s) => (0, r.arms.toNat, s)
            | (code, s) => (0, r.arms.toNat, s.recDone c i (BitVec.ofNat 8 code) none)
          else (0, r.arms.toNat, s)

/-! ## The signal box takes an event (R272) -/

/-- Events of one queue are processed in ring order; events of different queues have no order (R272, R399). -/
def SbEvent.sameWay (a b : SbEvent) : Bool := a.queue == b.queue

/-- SIGNAL_BOX_EVENT: the oldest packet taken from a queue, which State.turn chooses, is checked, and becomes a launch or is
rejected. -/
def execSignalBoxEvent (s : State) : Out :=
  onPackage s fun s =>
    match pickWay SbEvent.sameWay s.turn s.events with
    | none => .next s
    | some (e, es) =>
      let s := { s with events := es }
      let l : Launch :=
        { ctx := e.ctx, queue := some (e.queue, e.index), record := none, bytes := e.packet, size := Rec.size e.packet, readyAt := s.dtime }
      match s.recCheck e.ctx e.packet true with
      | 0 => .next { s with launches := put s.launches s.nextLaunch l, nextLaunch := s.nextLaunch + 1 }
      | code => .next (s.rejectLaunch 0 l code)

end Sys2Proof.Machine
end

