-- ==== Sys2Proof/Machine/Launch.lean ====
section
/-! DEFINITION. Placement of launches, the tile monitor's entry and start, completion and end requests (R272 to R278,
R283, R284, R357, R395, R396). -/

namespace Sys2Proof.Machine

/-! ## Placement (R274, R276, R283, R396) -/

/-- Context c is resident in its partition, and no switch of the partition is under way (R294, R332). -/
def State.resident (s : State) (c : Nat) : Bool :=
  let p := (s.ctx c).part
  (s.ctx c).valid && s.ioRead (0x08F10000C040 + 128 * p) 2 == c
    && !s.switches.any (fun w => w.1 == p && w.2.stage != .armed)

/-- A retirement of the logical tile is pending (R379, R381). -/
def State.pending (s : State) (t : Nat) : Bool := s.ioRead (0x08F7000000C0 + t / 8) 1 / 2 ^ (t % 8) % 2 == 1

/-- The tile can take a part of a launch: it runs none, and is present, with an inbox entry free for the task record. -/
def State.tileFree (s : State) (t : Nat) : Bool :=
  let x := s.tile t
  x.launch.isNone && x.presence == .present && !s.lost t && !s.pending t && decide (x.inbox.length < 8)

/-- Record launch a stands before b in the ready queue (R283). -/
def readyBefore (a b : Launch) : Bool :=
  if Rec.prio a.bytes ≠ Rec.prio b.bytes then decide (Rec.prio b.bytes < Rec.prio a.bytes)
  else if a.readyAt ≠ b.readyAt then decide (a.readyAt < b.readyAt)
  else decide (a.record.getD 0 < b.record.getD 0)

/-- A launch may start now: the earlier packets of its queue have started, and with BARRIER have completed (R272); or it
is the head of its ready queue (R283). -/
def State.mayStart (s : State) (n : Nat) (l : Launch) : Bool :=
  match l.queue with
  | some (q, _) =>
    s.launches.all (fun m => decide (n ≤ m.1) || m.2.queue.map (·.1) != some q || (m.2.begun && !Rec.barrier l.bytes))
  | none =>
    s.launches.all (fun m => m.1 == n || m.2.ctx != l.ctx || m.2.record.isNone || m.2.begun || readyBefore l m.2)

/-- The tiles that a launch takes now, in position order; none while it has to wait. -/
def State.candidates (s : State) (l : Launch) : List Nat :=
  let ok := s.tileFree
  let mine := s.partTiles l.ctx
  match l.handoff with
  | some (t, _) => if l.begun = false ∧ mine.contains t ∧ ok t then [t] else []
  | none =>
    if recClass l.bytes = 2 then
      if l.begun then []
      else (firstFit (fun t => mine.contains t && ok t) (Rec.width l.bytes) (Rec.height l.bytes)).getD []
    else (mine.filter ok).take (l.size - l.tiles.length)

/-- A launch starts (R272, R279, R346, R349): its card is read and written, its screen fixed, its record RUNNING. The
code that rejects it, or 0. -/
def State.launchStart (s : State) (l : Launch) : Nat × Launch × State :=
  let va := Rec.card l.bytes
  match s.hubRead l.ctx va 64 with
  | (.error _, s) => (0x05, l, s)
  | (.ok b, s) =>
    match s.coverStart l.ctx b with
    | (none, s) => (0x07, l, s)
    | (some screen, s) =>
      match s.hubWrite l.ctx (va + 32) (leBytes 8 0 ++ leBytes 4 (l.size * Rec.strands l.bytes)) with
      | (some _, s) => (0x05, l, s)
      | (none, s) =>
        let (pl, s) := s.placeParts (s.hubIn l.ctx) none .load false [(va, 64)]
        let pa := match pl with
          | .ok ls => keyOf ls
          | .error _ => 0
        let s : State := match l.record with
          | some i => s.setDepot l.ctx i { s.depot l.ctx i with st := .running }
          | none => s
        (0, { l with begun := true, card := b, cardPa := pa, screen := screen }, s)

/-- DOMMEM of the tile at a position (R252, R253, R274): a consist of one, no phase open. -/
def dommemAt (b : List Byte) (pos : Nat) : Word :=
  let n := Rec.size b
  let g := Rec.groups b
  let gs := n / g
  let base := 16 + 2 ^ 57 * Rec.chlvl b
  BitVec.ofNat 64 (if recClass b = 2 then
    base + 2 ^ 9 * (pos * g / n) + 2 ^ 15 * (pos % gs) + 2 ^ 24 * gs + 2 ^ 34 * pos + 2 ^ 43 * n else base)

/-- Offset and size in bytes of a handoff region (R279, R284). -/
def rregOff (r : BitVec 32) : Nat := r.toNat % 2 ^ 20
def rregSize (r : BitVec 32) : Nat := r.toNat / 2 ^ 20 * 256

/-- A task record (R276). -/
def taskRecord (n : Nat) (l : Launch) : List Byte :=
  let r : BitVec 32 := (l.handoff.map (·.2)).getD 0
  leBytes 8 (Card.entry l.card) ++ leBytes 6 (Rec.card l.bytes) ++ leBytes 2 n ++ leBytes 4 r.toNat
    ++ leBytes 1 (Rec.strands l.bytes) ++ List.replicate 11 0 ++ (l.bytes.drop 32).take 32

/-- The scratchpad at the beginning of a launch (R284, R336): it reads 0, except in the 4 KiB regions of a handoff. -/
def Tile.freshScratch (x : Tile) (hand : Option (Nat × BitVec 32)) : Tile :=
  let keep : BitVec 192 := match hand with
    | some (_, r) => if rregSize r = 0 then 0 else dirtyBits (rregOff r) (rregSize r)
    | none => 0
  { x with scratch := x.scratch.filter (fun c => keep.getLsbD (c.1 / 4096)), dirty := keep }

/-- The region that a launch leaves on tile t for a successor, or receives there, which the tile still holds: the launch has ended its
part there and not completed, or has not started (R284). -/
def Launch.regionOn (l : Launch) (t : Nat) : Option (BitVec 32) :=
  if l.region.isSome then none
  else if l.begun then (if l.record.isSome ∧ l.tiles.head? = some t then some (Card.rreg l.card) else none)
  else (l.handoff.filter (·.1 == t)).map (·.2)

/-- Launch n takes tile t: the regions there that are for others are put by (log 105). -/
def State.keepRegions (s : State) (n t : Nat) : State :=
  { s with launches := s.launches.map (fun m =>
      match if m.1 = n ∨ m.2.ctx ≠ (s.tile t).ctx then none else m.2.regionOn t with
      | some r => (m.1, { m.2 with region := some (s.readLoc (rregSize r) (.scratch t (rregOff r))) })
      | none => m) }

/-- A region that was put by is there again. -/
def State.placeRegion (s : State) (l : Launch) : State :=
  match l.handoff, l.region with
  | some (t, r), some b => s.writeLoc b (.scratch t (rregOff r))
  | _, _ => s

/-- One tile is bound to a launch (R276): context, mode, membership, counts, and its task record in the inbox. -/
def State.bind (s : State) (n : Nat) (l : Launch) (pos t : Nat) : State :=
  let s := s.keepRegions n t
  let s := s.mapTile t (fun x =>
    { (x.freshScratch (if l.region.isSome then none else l.handoff)) with
      ctx := l.ctx
      launch := some n
      mode := if Rec.shared l.bytes then 3 else 2
      dommem := dommemAt l.bytes pos
      gen := Vector.replicate 4 0
      marks := Vector.replicate 4 []
      allHalted := false
      inbox := x.inbox ++ [taskRecord n l] })
  let s := [0, 1, 2, 3].foldl (fun s i => s.mapHart (4 * t + i) (fun x => { x with arrivals := Vector.replicate 4 0 })) s
  (s.placeRegion l).wakeTile t

/-- The tiles of a list are bound, at positions from pos on. -/
def State.bindAll (s : State) (n : Nat) (l : Launch) : Nat → List Nat → State
  | _, [] => s
  | pos, t :: ts => (s.bind n l pos t).bindAll n l (pos + 1) ts

/-- A launch whose handoff region stands on its tile again: what is put by from now on is the region that it leaves (log 105). -/
def Launch.regionPlaced (l : Launch) : Launch := if l.handoff.isSome then { l with region := none } else l

/-- A launch is placed, as far as tiles are free; a SIGNAL starts and completes (R273, R274). -/
def State.launchPlace (s : State) (n : Nat) : State :=
  match s.launch? n with
  | none => s
  | some l =>
    if s.crashed || l.ending || !(l.begun || s.mayStart n l) then s
    else if Rec.kind l.bytes = 2 then s.launchDone n l 0
    else if !s.resident l.ctx then s
    else
      let ts := s.candidates l
      if ts.isEmpty then s
      else
        let (code, l, s) : Nat × Launch × State := if l.begun then (0, l, s) else s.launchStart l
        if code ≠ 0 then s.rejectLaunch n l code
        else
          let l' := { l with tiles := l.tiles ++ ts }
          (s.setLaunch n l'.regionPlaced).bindAll n l' l.tiles.length ts

/-- LAUNCH_PLACE. -/
def execLaunchPlace (l : Nat) (s : State) : Out := onPackage s fun s => .next (s.launchPlace l)

/-! ## The tile monitor (R277) -/

/-- A part of a launch, by its tile, strands and channels, has nothing left: every strand has halted, and every transfer, stream,
command and lock has finished. -/
def nothingLeft (x : Tile) (hs : List Hart) (cs : ChanSet) : Bool :=
  (x.mode >>> 1) % 16 == 0 && x.cmds.isEmpty && x.held.isEmpty && x.locks.isEmpty
    && cs.toList.all (fun c => c.live.isEmpty) && hs.all (fun y => y.ports.toList.all (fun q => !q.cfg))

/-- The four strands of a tile. -/
def State.strands (s : State) (t : Nat) : List Hart := [0, 1, 2, 3].map (fun i => s.hart (4 * t + i))

/-- The part of a launch on the tile has nothing left. -/
def State.partDone (s : State) (t : Nat) : Bool := nothingLeft (s.tile t) (s.strands t) (s.chanSet t)

/-- Strand 0 of a tile begins at the monitor's entry at HANDLER, where an interrupt that is still pending sets its event latch
(R129). -/
def State.monitorStart (s : State) (t : Nat) : State :=
  let s := s.mapTile t (fun x => { x with launch := none, mode := (x.mode &&& ~~~0x1E#64) ||| 2, age := [0] })
  let e := s.ioRead 0x08F200000000 8
  s.mapHart (4 * t) (fun x => { x with
    run := .running, priv := .system, pc := BitVec.ofNat 64 e &&& 0x0000FFFFFFFFFFF8, w1 := false
    tstatus := x.tstatus &&& ~~~3#64, loopsH := [], bubble := 0, undelivered := none, since := none
    latch := x.latch || !x.irqs.isEmpty })

/-- A part of a launch, where it stands, with its tile changed. -/
def State.mapPart (s : State) (n u : Nat) (f : Tile → Tile) : State :=
  match s.partImage (some n) u with
  | some i => { s with images := s.images.map (fun (j : Image) => if j = i then { j with st := f j.st } else j) }
  | none => if (s.tile u).launch = some n then s.mapTile u f else s

/-- The generations that a tile has made with PHASE and that are pending when its part of launch n ends stay communication
phases of the other members (R255). -/
def State.passMarks (s : State) (n t : Nat) : State :=
  [Level.group, .domain].foldl (fun s lv =>
    let ms := (s.tile t).marks[lv.idx]
    if ms.isEmpty then s
    else ((s.members t lv).filter (· != t)).foldl (fun s u =>
      s.mapPart n u (fun x => { x with marks := x.marks.set lv.idx (x.marks[lv.idx] ++ ms) })) s) s

/-- The tile's part of its launch ends, and the monitor enters; a retired tile, which has nothing left, runs none (R379, R395). -/
def State.monitorEntry (s : State) (t : Nat) : State :=
  match (s.tile t).launch with
  | none => s
  | some n => match s.launch? n with
    | none => s.monitorStart t
    | some l =>
      let t' := (s.passMarks n t).setLaunch n { l with ended := l.ended + 1 }
      if l.ending || !s.partDone t then s
      else match (s.tile t).presence with
        | .present => t'.monitorStart t
        | .retired => t'.mapTile t (fun x => { x with launch := none })
        | .stopped | .absent | .crashed => s

/-- MONITOR_ENTRY. -/
def execMonitorEntry (t : Nat) (s : State) : Out := onPackage s fun s => .next (s.monitorEntry t)

/-! ## Ending a launch (R395) -/

/-- A strand stops for good at its next issue boundary: what waits for it, and what it waits for, is discarded. -/
def Hart.kill (x : Hart) : Hart :=
  { x with
    run := .inactive, late := [], irqs := [], flight := [], shadow := [], vq := [], wake := none, wfe := none
    wfeOver := false, qcfg := none, cpygo := none, coupling := none, ereting := false, coupled := false, couple := none
    rest := 0, halts := false, restarted := false, claim := none, mtcPend := none
    step := none, undelivered := none, since := none, bubble := 0, ports := Vector.replicate 8 .closed }

/-- A chain buffer or a message on its way is emptied of what a launch has sent (R395). -/
def withoutLaunch (n : Option Nat) (m : Option ChainMsg) : Option ChainMsg := m.filter (fun m => m.launch != n)

/-- A tile of an ended launch: its strands stop, its engines and commands are discarded, its inbox and locks are
empty. -/
def State.killTile (s : State) (t : Nat) : State :=
  let s := if 1 < (s.tile t).csize then s.uncoupleTile t else s
  let s := [0, 1, 2, 3].foldl (fun s i => s.mapHart (4 * t + i) Hart.kill) s
  let s := s.mapTile t (fun x => { x with
    cmds := [], held := [], chain := withoutLaunch x.launch x.chain, chainOut := withoutLaunch x.launch x.chainOut
    inbox := [], locks := [], line := []
    mode := x.mode &&& ~~~0x1E#64, age := [] })
  { s with chans := put s.chans t ((s.chanSet t).map (fun (c : Chan) => { c with live := [] })) }

/-- The hub ends a launch with a status, its saved parts (R334) with their messages in sidings included. What it has sent goes from
the chain buffers of its tiles, also where its part has ended, here and in images. -/
def State.endLaunch (s : State) (n : Nat) (l : Launch) (status : BitVec 8) : State :=
  let mine := l.tiles.filter (fun t => (s.tile t).launch == some n)
  let clear := fun (x : Tile) => { x with chain := withoutLaunch (some n) x.chain, chainOut := withoutLaunch (some n) x.chainOut }
  let gone := fun (m : PutqMsg) => isT m.hart && m.ctx == l.ctx && (s.partImage (some n) (tileOf m.hart)).isSome
  let s := { s with putqs := s.putqs.filter (fun m => !gone m) }
  let s := mine.foldl (fun s t => s.killTile t) s
  let s := l.tiles.foldl (fun s t => s.mapTile t clear) s
  let s := (s.dropLaunchRegs n).setLaunch n { l with ending := true, status := status }
  { s with images := (s.images.filter (fun i => i.st.launch != some n)).map (fun i =>
      if l.tiles.contains i.tile then { i with st := clear i.st } else i) }

/-- The part of launch n on a tile, here or in an image, has not ended and has nothing left (R278). -/
def State.lastDone (s : State) (n t : Nat) : Bool :=
  match s.partImage (some n) t with
  | some i => nothingLeft i.st i.harts i.chans
  | none => (s.tile t).launch == some n && s.partDone t

/-- Every part of a launch has been placed, and has ended or has nothing left (R278). -/
def State.allPartsDone (s : State) (n : Nat) (l : Launch) : Bool :=
  l.tiles.length == l.size && l.ended + (l.tiles.eraseDups.filter (s.lastDone n)).length == l.size

/-- The launch of a running record whose conditions of R278 are not met. -/
def State.endable (s : State) (c i : Nat) : Option (Nat × Launch) :=
  if (s.ctx c).drecs ≤ i ∨ (s.depot c i).st ≠ .running then none
  else match s.launches.find? (fun m => m.2.ctx == c && m.2.record == some i && m.2.begun && !m.2.ending) with
    | none => none
    | some (n, l) =>
      if s.allPartsDone n l then none else some (n, l)

/-- END_REQUEST: fields of the end frame, and the end of the launch of a running record. -/
def execEndRequest (v : Word) (s : State) : Out :=
  onPackage s fun s =>
    let i := v.toNat % 4096
    let c := v.toNat / 4096 % 256
    if 2 ^ 20 ≤ v.toNat then .next s
    else match s.endable c i with
      | none => .next (s.ioWrite 0x08F300000008 8 (i + 4096 * c))
      | some (n, l) => .next ((s.ioWrite 0x08F300000008 8 (i + 4096 * c + 2 ^ 20)).endLaunch n l 0xF0)

/-- Every tile has stopped: the launch completes with its status, the monitors of its tiles enter, and the owning context is
told of the code (R275, R277, R362, R395). -/
def State.launchEnded (s : State) (n : Nat) : State :=
  match s.launch? n with
  | none => s
  | some l =>
    if l.ending then
      let mine := l.tiles.filter (fun t => (s.tile t).launch == some n)
      ((mine.foldl (fun s t => s.monitorStart t) s).launchEvent l.ctx l.status.toNat l.name).launchDone n l l.status
    else s

/-- LAUNCH_END_DONE. -/
def execLaunchEndDone (l : Nat) (s : State) : Out := onPackage s fun s => .next (s.launchEnded l)

/-! ## Completion (R278, R357) -/

/-- Every part of a launch has ended: retouch, channel update, and completion. -/
def State.launchComplete (s : State) (n : Nat) : State :=
  match s.launch? n with
  | none => s
  | some l =>
    if l.ending || !l.begun || l.tiles.length != l.size || l.ended != l.size then s
    else
      let (status, s) : BitVec 8 × State :=
        if Card.on l.card then s.retouch l.ctx l.name l.card l.screen else (0, s)
      s.launchDone n l status

/-- LAUNCH_COMPLETION. -/
def execLaunchCompletion (l : Nat) (s : State) : Out := onPackage s fun s => .next (s.launchComplete l)

/-! ## ERET with START (R277) -/

/-- A strand as a launch starts it (R276): registers 0 but for the arguments and the handoff region. Its event latch, of which R276
says nothing and which stays set until a WFE takes it (R129), its pending interrupts, its comparators and its arrival counts
stay (log 31). -/
def Hart.launched (x : Hart) (pc : Word) (rreg : BitVec 32) (args : List Byte) : Hart :=
  let n := rregSize rreg
  let regs : Vector Word 32 := ((Vector.replicate 32 (0 : Word)).set 8 (if n = 0 then 0 else BitVec.ofNat 64 (rregOff rreg))).set 9
    (BitVec.ofNat 64 n)
  let regs := (List.range 8).foldl
    (fun (r : Vector Word 32) j => r.set! (10 + j) (BitVec.ofNat 64 (field args (4 * j) 4))) regs
  { ({} : Hart) with
    x := regs, pc := pc, bubble := 2, irqs := x.irqs, bp := x.bp, arrivals := x.arrivals, latch := x.latch
    issued := x.issued + 1 }

/-- The bytes of the task record that the monitor keeps at an address; bytes that cannot be read are free values. -/
def State.keptRecord (s : State) (t : Nat) (va : Word) : List Byte × State :=
  match s.placeParts (s.requester (4 * t) .system) (some t) .load false (splitPages va.toNat 2 64) with
  | (.ok ls, s) => s.readParts ls
  | (.error _, s) =>
    let (v, s) := s.draw 512
    (leBytes 64 v.toNat, s)

/-- ERET with START on tile t. The strands that start are those of the record's STRANDS, whatever MODE.SHARED is (R277;
log 91). Under RR strand 3 counts as the last issuer (R221); under GTO the oldest strand is the first to issue (R66). -/
def State.startLaunch (s : State) (t : Nat) : State :=
  let x := s.tile t
  let h0 := s.hart (4 * t)
  if x.shared && x.fixcode then
    match x.launch.bind (fun n => (s.launch? n).map (fun l => (n, l))) with
    | some (n, l) => s.endLaunch n l 0x0D
    | none => s.monitorStart t
  else
    let (rec, s) := s.keptRecord t (h0.rx 1)
    let k := Nat.min (field rec 20 1) 4
    let pc := h0.tpc &&& 0x0000FFFFFFFFFFF8
    let s := [0, 1, 2, 3].foldl (fun s i => s.mapHart (4 * t + i) (fun y =>
      if i < k then y.launched pc (BitVec.ofNat 32 (field rec 16 4)) (rec.drop 32) else { y with run := .inactive })) s
    let s := s.mapTile t (fun y => { y with
      mode := (y.mode &&& ~~~0x1E#64) ||| BitVec.ofNat 64 ((2 ^ k - 1) * 2)
      age := (List.range k).map (fun i => Fin.ofNat 4 i)
      last := if y.arb.toNat % 4 = 1 then 3 else 0
      rings := Vector.replicate 8 {}, owner := 0, cmds := [], held := [], line := [] })
    { s with chans := put s.chans t (Vector.replicate 4 {}), issue := { s.issue with ctl := .started } }

/-- What the hub can do next for the tile's launch: the monitor's entry, the end of an ended launch, completion. -/
def State.launchTick (s : State) (t : Nat) : State :=
  match (s.tile t).launch with
  | none => s
  | some n =>
    let s := s.launchEnded n
    (s.monitorEntry t).launchComplete n

end Sys2Proof.Machine
end

