-- ==== Sys2Proof/Machine/Handles.lean ====
section
/-! DEFINITION. Counted tensors: handle units, and the HANDLE group (R363 to R374). -/

namespace Sys2Proof.Machine

/-! ## Handles (R363) -/

namespace Handle

def pkg (h : Word) : Nat := h.toNat / 2 ^ 51
def die (h : Word) : Nat := h.toNat / 2 ^ 49 % 4
def obj (h : Word) : Nat := h.toNat / 2 ^ 35 % 2 ^ 14
def exp (h : Word) : Nat := h.toNat / 2 ^ 29 % 2 ^ 6
def gen (h : Word) : BitVec 29 := h.setWidth 29
/-- A handle from its fields. -/
def make (pkg die obj exp : Nat) (gen : BitVec 29) : Word :=
  BitVec.ofNat 64 (2 ^ 51 * pkg + 2 ^ 49 * die + 2 ^ 35 * obj + 2 ^ 29 * exp + gen.toNat)
/-- The handle with another exponent. -/
def withExp (h : Word) (e : Nat) : Word := make (pkg h) (die h) (obj h) e (gen h)
/-- The number of its slot among those of the package. -/
def slot (h : Word) : Nat := die h * 16384 + obj h

end Handle

/-- The generation after g: 0 is skipped (R364). -/
def nextGen (g : BitVec 29) : BitVec 29 := if g + 1 = 0 then 1 else g + 1

def State.slot (s : State) (i : Nat) : HandleSlot := look {} s.handles i
def State.setSlot (s : State) (i : Nat) (x : HandleSlot) : State := { s with handles := put s.handles i x }

/-- The lowest free slot of a die's unit (R373). -/
def State.freeSlot (s : State) (die : Nat) : Option Nat :=
  firstFrom (fun i => !(s.slot (die * 16384 + i)).live) 0 16384

/-! ## Posts (R365, R366, R370) -/

/-- An event record of the handle units (R365, R366, R370). -/
def State.handleEvent (s : State) (c : Option Nat) (sub : Nat) (h : Word) (base frames : Nat) : State :=
  match c with
  | none => s
  | some c => s.ctxEvent c cHANDLEOVER (BitVec.ofNat 8 sub) h (BitVec.ofNat 64 base) frames

/-- The finaliser of a dead object is armed as LARM does; a failure posts its code (R365, step 3). While the resident kernel
is down nothing is armed: it waits for RESUME (R383). -/
def State.finalise (s : State) (f : Nat) : State :=
  let c := f / 4096
  if s.crashed then { s with finals := s.finals ++ [f] }
  else match s.arm (some c) (f % 4096) none with
  | (0, _, s) => s
  | (code, _, s) => s.launchEvent c code (f % 4096)

/-- The death step of a slot (R365), in its order. -/
def State.objectDeath (s : State) (i : Nat) : State :=
  let x := s.slot i
  let s := s.setSlot i { gen := nextGen x.gen }
  let s := if x.frames ≠ 0 then
      s.handleEvent x.ctx 0 (Handle.make s.pkgnum (i / 16384) (i % 16384) 0 x.gen) x.base x.frames else s
  let s := match x.fin with
    | some f => s.finalise f
    | none => s
  match x.proxy with
  | some h => { s with posts := s.posts ++ [{ handle := h, ctx := x.ctx, hart := none }] }
  | none => s

/-- The report of a post for a free slot: to the context of its poster, on another package too (R366; log 101). -/
def State.tellPoster (s : State) (m : Post) : State :=
  match m.away with
  | none => s.handleEvent m.ctx 1 m.handle 0 0
  | some (p, c) => { s with linkOut := s.linkOut ++ [.uncounted p c m.handle] }

/-- A post reaches its home on this package: it is counted, or discarded and reported (R366). -/
def State.countPost (s : State) (m : Post) : State :=
  let i := Handle.slot m.handle
  let x := s.slot i
  if !x.live then s.tellPoster m
  else if x.gen ≠ Handle.gen m.handle then s.handleEvent x.ctx 1 m.handle 0 0
  else
    let r := x.returned + 2 ^ Handle.exp m.handle
    if 2 ^ x.exp < r then s.handleEvent x.ctx 2 m.handle 0 0
    else
      let s := s.setSlot i { x with returned := r }
      if r = 2 ^ x.exp then s.objectDeath i else s

/-- A post is delivered: at its home here, or over a chip link. -/
def State.deliverPost (s : State) (m : Post) : State :=
  if Handle.pkg m.handle = s.pkgnum then s.countPost m
  else { s with linkOut := s.linkOut ++ [.post (Handle.pkg m.handle) (m.ctx.getD 0) m.handle] }

/-- Two posts of one strand to one home: they are counted in issue order (R370). -/
def Post.sameWay (a b : Post) : Bool :=
  a.hart.isSome && a.hart == b.hart && Handle.pkg a.handle == Handle.pkg b.handle
    && Handle.die a.handle == Handle.die b.handle

/-- HANDLE_POST: a post is delivered, which State.turn chooses among those that nothing holds back. -/
def execHandlePost (s : State) : Out :=
  onPackage s fun s =>
    match pickWay Post.sameWay s.turn s.posts with
    | none => .next s
    | some (m, ms) => .next ({ s with posts := ms }.deliverPost m)

/-- HANDLE_POST_LOST: such a post names an unreachable package, and is lost (R370). -/
def execHandlePostLost (s : State) : Out :=
  onPackage s fun s =>
    match pickWay Post.sameWay s.turn s.posts with
    | none => .next s
    | some (m, ms) =>
      if Handle.pkg m.handle = s.pkgnum then .next s
      else .next ({ s with posts := ms }.handleEvent m.ctx 3 m.handle 0 0)

/-- The posts of a strand for a unit are delivered, in their order, before its next operation there (R374). -/
def State.flushPosts (s : State) (h pkg die : Nat) : State :=
  let mine := fun (m : Post) => m.hart == some h && Handle.pkg m.handle == pkg && Handle.die m.handle == die
  (s.posts.filter mine).foldl (fun s m => s.deliverPost m) { s with posts := s.posts.filter (fun m => !mine m) }

/-! ## The HANDLE group (R367 to R372) -/

/-- The die of the moving core's handle unit (R368). -/
def State.myDie (s : State) : Nat := if isT s.cur then dieOf (tileOf s.cur) else gcoreOf s.cur % 4

/-- A slot of a die is allocated: the handle, with exponent e. -/
def State.allocate (s : State) (die obj e : Nat) (x : HandleSlot) : Word × State :=
  let i := die * 16384 + obj
  let g := nextGen (s.slot i).gen
  (Handle.make s.pkgnum die obj e g, s.setSlot i { x with gen := g, live := true })

/-- HNEW (R368). -/
def execHnew (d a b : XReg) (s : State) : Out :=
  onCore s fun s =>
    let e := s.rx b
    let r := s.rx a
    if 48 < e.toNat then .next (s.trap cILLEGAL e)
    else if 2 ^ 48 ≤ r.toNat then .next (s.trap cILLEGAL r)
    else
      let die := s.myDie
      let s := s.flushPosts s.cur s.pkgnum die
      match s.freeSlot die with
      | none => .next (s.resultV1 (.x d 0)).advance
      | some o =>
        let x : HandleSlot :=
          { exp := e.toNat, ctx := s.ctxOf s.cur, base := r.toNat / 2 ^ 16 * 2 ^ 16, frames := r.toNat % 2 ^ 16 }
        let (h, s) := s.allocate die o e.toNat x
        .next (s.resultV1 (.x d h)).advance

/-- HCOPY (R369). -/
def execHcopy (d r : XReg) (s : State) : Out :=
  onCore s fun s =>
    let h := s.rx r
    if h = 0 then .next (s.resultV1 (.x d 0)).advance
    else if 0 < Handle.exp h then
      let g := Handle.withExp h (Handle.exp h - 1)
      .next ((s.resultV1 (.x r g)).resultV1 (.x d g)).advance
    else
      let die := s.myDie
      let s := s.flushPosts s.cur s.pkgnum die
      match s.freeSlot die with
      | none => .next s.hold
      | some o =>
        let x : HandleSlot := { exp := 32, ctx := s.ctxOf s.cur, proxy := some h }
        let (p, s) := s.allocate die o 31 x
        .next ((s.resultV1 (.x r p)).resultV1 (.x d p)).advance

/-- HDROP (R370). -/
def execHdrop (r : XReg) (s : State) : Out :=
  onCore s fun s =>
    let h := s.rx r
    let m : Post := { handle := h, ctx := s.ctxOf s.cur, hart := some s.cur }
    let s := if h = 0 then s else { s with posts := s.posts ++ [m] }
    .next (s.result (.x r 0) 1).advance

/-- An operation on the slot that a handle names, after the strand's earlier posts there: at its unit here, or with what
another package answers. -/
def atHome (s : State) (d : XReg) (h : Word) (msg : LinkMsg) (away f : State → Word × State) : Out :=
  let s := s.flushPosts s.cur (Handle.pkg h) (Handle.die h)
  if Handle.pkg h = s.pkgnum then
    let (v, s) := f s
    .next (s.resultV1 (.x d v)).advance
  else
    let (v, s) := away s
    .next ({ s with linkOut := s.linkOut ++ [msg] }.resultV1 (.x d v)).advance

/-- The slot of a handle that is not stale. -/
def State.liveSlot (s : State) (h : Word) : Option HandleSlot :=
  let x := s.slot (Handle.slot h)
  if x.live && x.gen == Handle.gen h then some x else none

/-- HBIND of record i of a context at a unit here (R371): the status. -/
def State.bindHere (s : State) (h : Word) (c? : Option Nat) (i : Nat) : Word × State :=
  match s.liveSlot h, c? with
  | none, _ => (1, s)
  | some _, none => (2, s)
  | some x, some c =>
    if (s.ctx c).drecs ≤ i then (2, s) else (0, s.setSlot (Handle.slot h) { x with fin := some (c * 4096 + i) })

/-- What another package answers to HBIND (R371): 0, 1 or 2, which a free value chooses; no object has generation 0. -/
def State.bindAway (s : State) (h : Word) : Word × State :=
  if Handle.gen h = 0 then (1, s)
  else
    let (v, s) := s.draw 64
    (BitVec.ofNat 64 (v.toNat % 3), s)

/-- HBIND (R371). -/
def execHbind (d a b : XReg) (s : State) : Out :=
  onCore s fun s =>
    let h := s.rx a
    let i := (s.rx b).toNat
    let c := s.ctxOf s.cur
    if 4096 ≤ i then .next s.illegal
    else atHome s d h (.bind (Handle.pkg h) (c.getD 0) h i) (·.bindAway h) (·.bindHere h c i)

/-- What HQUERY reads of a live object (R372). -/
def HandleSlot.query (x : HandleSlot) : Word :=
  BitVec.ofNat 64 ((2 ^ x.exp - x.returned) + 2 ^ 49 * x.exp + (if x.proxy.isSome then 2 ^ 55 else 0)
    + (if x.fin.isSome then 2 ^ 56 else 0))

/-- HQUERY at a unit here (R372). -/
def State.queryHere (s : State) (h : Word) : Word :=
  match s.liveSlot h with
  | some x => x.query
  | none => 0x8000000000000000

/-- What another package answers to HQUERY (R372): what some live slot reads as, or 2^63, which free values choose; no object
has generation 0. A proxy's total is 2^32 and it has no finaliser unless one is bound. -/
def State.queryAway (s : State) (h : Word) : Word × State :=
  let (v, s) := s.draw 128
  let n := v.toNat
  let proxy := n / 2 % 2 == 1
  let e := if proxy then 32 else n / 8 % 49
  let x : HandleSlot := {
    exp := e, returned := n / 2 ^ 16 % 2 ^ e
    proxy := if proxy then some 0 else none
    fin := if n / 4 % 2 = 1 then some 0 else none }
  (if Handle.gen h = 0 ∨ n % 2 = 1 then 0x8000000000000000 else x.query, s)

/-- HQUERY (R372). -/
def execHquery (d a : XReg) (s : State) : Out :=
  onCore s fun s =>
    let h := s.rx a
    atHome s d h (.query (Handle.pkg h) ((s.ctxOf s.cur).getD 0) h) (·.queryAway h) (fun s => (s.queryHere h, s))

end Sys2Proof.Machine
end

