-- ==== Sys2Proof/Machine/Links.lean ====
section
/-! DEFINITION. What arrives over a chip link (R204, R289, R290, R338, R363, R370 to R372), and what is answered. -/

namespace Sys2Proof.Machine

/-- A message leaves over the chip links. -/
def State.send (s : State) (m : LinkMsg) : State := { s with linkOut := s.linkOut ++ [m] }

/-- A piece, a read or a PUTQ is answered with a status. -/
def answered (spkg : Nat) (r : BitVec 8 × State) : State := r.2.send (.status spkg r.1 [])

/-- A source read is answered with its bytes, or with its cause. -/
def answeredRead (spkg : Nat) (r : Except Cause (List Byte) × State) : State :=
  match r.1 with
  | .ok b => r.2.send (.status spkg 0 b)
  | .error c => r.2.send (.status spkg c [])

/-- A value answers the package that asked for it. -/
def answeredValue (spkg : Nat) (r : Word × State) : State := r.2.send (.value spkg r.1)

/-- An arrival that the inbound context table maps to context c. -/
def State.arrive (s : State) (c : Nat) (kind : LinkKind) (spkg : Nat) (addr : Word) (data : List Byte) : State :=
  match kind with
  | .copyPiece => answered spkg (s.pieceHere c spkg addr data)
  | .sourceRead n => answeredRead spkg (s.sourceHere c addr (Nat.min n 64))
  | .putqQueue => answered spkg (s.queueHere c spkg addr data)
  | .putqInbox => answered spkg (s.inboxHere c spkg (addr.toNat % 512) data)
  | .sigs add => s.hubSignal c (Target.addr addr) (BitVec.ofNat 64 (leNat (data.take 8))) add
  | .sigw h nowait => s.sigwFrom c spkg h addr (BitVec.ofNat 64 (leNat (data.take 8))) nowait
  | .sigDrop _ | .wake _ | .post | .bind _ | .query | .uncounted _ => s

/-- An arrival that the inbound context table refuses: a piece, a read and a PUTQ end with PERM (R204); a signal has no
context to tell. -/
def State.refuse (s : State) (kind : LinkKind) (spkg : Nat) : State :=
  match kind with
  | .copyPiece | .sourceRead _ | .putqQueue | .putqInbox => s.send (.status spkg cPERM [])
  | .sigs _ | .sigw .. | .sigDrop _ | .wake _ | .post | .bind _ | .query | .uncounted _ => s

/-- CHIP_LINK_ARRIVAL: what needs a context is looked up, translated, and performed or refused (R204); a wake, the end of a
strand's registrations, a handle unit's operations and the report of a post need none (R289, R290, R363; log 101). -/
def execChipLinkArrival (kind : LinkKind) (spkg sctx : Nat) (addr : Word) (data : List Byte) (s : State) : Out :=
  onPackage s fun s =>
    let c := s.inbound spkg sctx
    match kind with
    | .sigDrop h => .next { s with sigs := s.sigs.filter (fun r => !(r.hart == h && r.away.map (·.1) == some spkg)) }
    | .wake h => .next (s.wakeAway spkg h addr (BitVec.ofNat 64 (leNat (data.take 8))))
    | .post => .next (s.countPost { handle := addr, ctx := none, hart := none, away := some (spkg, sctx) })
    | .uncounted n => .next (s.handleEvent (some n) 1 addr 0 0)
    | .bind i => .next (answeredValue spkg (s.bindHere addr c i))
    | .query => .next (s.send (.value spkg (s.queryHere addr)))
    | .copyPiece | .sourceRead _ | .putqQueue | .putqInbox | .sigs _ | .sigw .. =>
      .next (match c with
        | some c => s.arrive c kind spkg addr (data.take 64)
        | none => s.refuse kind spkg)

end Sys2Proof.Machine
end

