-- ==== Sys2Proof/Machine/Task.lean ====
section
/-! DEFINITION. The TASK group but for its signals (R280, R285 to R288, R350), and SCALL (R131, R292). -/

namespace Sys2Proof.Machine

/-! ## INBX (R286) -/

/-- INBX. -/
def execInbx (d a : XReg) (poll : Bool) (s : State) : Out :=
  onT s fun s =>
    let va := s.rx a
    let t := tileOf s.cur
    if va.toNat % 64 ≠ 0 then .next (s.trap cMISALIGN va)
    else match classify va.toNat with
      | .own off =>
        if (s.tile t).lockBars t va.toNat 64 false then .next (s.trap cRANGELOCK va)
        else match (s.tile t).inbox with
          | [] => if poll then .next (s.resultV1 (.x d (BitVec.allOnes 64))).advance else .next s.hold
          | e :: es =>
            let s := s.mapTile t (fun x => { x with inbox := es })
            .next ((s.storeLoc e (.scratch t off)).resultV1 (.x d (BitVec.ofNat 64 es.length))).advance
      | _ => .next (s.trap cPERM va)

/-! ## JNEXT (R280, R350) -/

/-- The started launch with coverage whose card lies at a place, or that a tile of it names by the card's address. -/
def State.coveredAt (s : State) (t k : Nat) (va : Word) : Option Launch :=
  let started := s.launches.filter (fun m => m.2.begun && Card.on m.2.card)
  match started.find? (·.2.cardPa == k) with
  | some m => some m.2
  | none => (started.find? (fun m => (s.tile t).launch == some m.1 && Rec.card m.2.bytes == va.toNat)).map (·.2)

/-- The deal of the card b that lies at a place: with coverage under the screen of its launch, or, where no launch has started with
it, under the card's own, a free one with an exposure channel (R349, R350; log 122). -/
def State.dealAt (s : State) (t k : Nat) (va : Word) (b : List Byte) : (Nat × Nat × Nat) × State :=
  match s.coveredAt t k va with
  | some l => (dealCovered b (dealt l.card l.screen), s)
  | none =>
    if !Card.on b then (dealPlain b, s)
    else if Card.expo b = 0 then (dealCovered b (dealt b (Card.screen b)), s)
    else
      let (n, s) := s.draw 8
      (dealCovered b (dealt b (n.toNat % 5)), s)

/-- The pair of a JNEXT is delivered. -/
def State.deal (s : State) (d : XReg) (p : Word × Word) : State :=
  let s := { s with issue := { s.issue with dealt := some p } }
  ((s.resultV1 (.x d p.1)).resultV1 (.x (d + 1) p.2)).advance

/-- A deal from the card at X(xa): as R280 says, or with coverage as R350 does. A follower of a consist delivers its
leader's pair. -/
def jnext (s : State) (d a : XReg) : Out :=
  onT s fun s =>
    match s.issue.fwd with
    | some w => .next (s.deal d (w.dealt.getD (0, 0)))
    | none =>
      let va := s.rx a
      accessing s va 64 64 .atomic false fun s ls =>
        if s.partsBad ls then .next ((s.foundParts ls).lateDataErr va).advance
        else
          let (b, s) := s.readParts ls
          let (r, s) := s.dealAt (tileOf s.cur) (keyOf ls) va b
          let s := s.writeParts (b.take 32 ++ leBytes 8 r.2.2 ++ b.drop 40) ls
          .next (s.deal d (BitVec.ofNat 64 r.1, BitVec.ofNat 64 r.2.1))

/-- JNEXT (R280). -/
def execJnext (d a : XReg) (s : State) : Out := jnext s d a
/-- JNEXT_COVERED: JNEXT on the card of a launch with coverage (R350). -/
def execJnextCovered (d a : XReg) (s : State) : Out := jnext s d a

/-! ## LARM, GDISP, GJOIN (R287, R288) -/

/-- LARM (R287): it waits while the resident kernel is down (R383). -/
def execLarm (d a : XReg) (s : State) : Out :=
  onT s fun s =>
    if s.crashed then .next s.hold else
    let (st, _, s) := s.arm (s.ctxOf s.cur) (s.rx a).toNat none
    .next (s.resultV1 (.x d (BitVec.ofNat 64 st))).advance

/-- The argument words that GDISP stores: X(x10) to X(x17) (R288). -/
def State.gdispArgs (s : State) : List Byte :=
  (List.range 8).flatMap (fun j => leBytes 4 ((s.rx (Fin.ofNat 32 (10 + j))).toNat % 2 ^ 32))

/-- GDISP (R288): it waits while the resident kernel is down (R383). -/
def execGdisp (d a : XReg) (s : State) : Out :=
  onG s fun s =>
    if s.crashed then .next s.hold else
    let i := (s.rx a).toNat
    let (st, g, s) := s.arm (s.ctxOf s.cur) i (some s.gdispArgs)
    let v : Word := if st = 0 then BitVec.ofNat 64 (g * 4096 + i) else BitVec.ofNat 64 (2 ^ 63 + st)
    .next (s.resultV1 (.x d v)).advance

/-- The record that a join token names, in the context bound to the moving core. -/
def State.joined (s : State) (i : Nat) : Option DepotRec :=
  match s.ctxOf s.cur with
  | none => none
  | some c => if i < (s.ctx c).drecs then some (s.depot c i) else none

/-- GJOIN (R288). On a core without a binding, or for a record the depot does not have, the manual states no result: it
is a free value. -/
def execGjoin (d a : XReg) (poll : Bool) (s : State) : Out :=
  onG s fun s =>
    let t := (s.rx a).toNat
    let g := t / 4096
    match s.joined (t % 4096) with
    | none =>
      let (v, s) : Word × State := s.draw 64
      .next (s.resultV1 (.x d v)).advance
    | some r =>
      if g < r.dones.toNat then
        .next (s.resultV1 (.x d (BitVec.ofNat 64 (r.status.toNat + (if g + 1 < r.dones.toNat then 256 else 0))))).advance
      else if poll then .next (s.resultV1 (.x d (BitVec.allOnes 64))).advance
      else .next s.hold

/-! ## SCALL (R131, R292) -/

/-- The word at hand, by the address of its bundle and its index. -/
def State.callPlace (s : State) : Word := s.me.pc + (if s.issue.w1 then 4 else 0)

/-- The next slot of a context's call ring is claimed: its address, none when the ring is full, or the cause of a fault (R131, R292). -/
def State.claimCall (s : State) (c : Nat) : Except Cause (Option Word) × State :=
  let va := (s.ctx c).callring
  if (s.ctx c).valid = false ∨ va = 0 then (.ok none, s)
  else match s.hubRead c va.toNat 64 with
    | (.error e, s) => (.error e, s)
    | (.ok b, s) =>
      let slots := field b 8 4
      let tail := field b 24 8
      if !isPow2 slots 1 16 || decide (slots + field b 16 8 ≤ tail) then (.ok none, s)
      else match s.hubWrite c (va.toNat + 24) (leBytes 8 (tail + 1)) with
        | (some e, s) => (.error e, s)
        | (none, s) => (.ok (some (BitVec.ofNat 64 (field b 0 8 + tail % slots * 128))), s)

/-- A call record is posted in a context's call ring, with RESULT cleared (log 111): the address of the slot's state word, 0 when the
ring is full, or the cause of a fault. The slot is claimed before it is written; one that could not be written stays claimed for the
SCALL when it runs again (log 48). -/
def State.postCall (s : State) (c : Nat) (token : Nat) (call : List Byte) : Except Cause Word × State :=
  let (r, s) : Except Cause (Option Word) × State := match s.me.claim.filter (·.1 == s.callPlace) with
    | some m => (.ok (some m.2), s)
    | none => s.claimCall c
  match r with
  | .error e => (.error e, s)
  | .ok none => (.ok 0, s)
  | .ok (some slot) =>
    match s.hubWrite c slot.toNat (leBytes 8 1 ++ leBytes 2 token ++ List.replicate 54 0 ++ call) with
    | (some e, s) => (.error e, s.mapMe (fun x => { x with claim := some (s.callPlace, slot) }))
    | (none, s) => (.ok slot, s.mapMe (fun x => { x with claim := none }))

/-- The strand's own trap registers, which DOUBLE overlays while it is frozen. -/
def Hart.trapRegs (x : Hart) : Undelivered :=
  { tcause := x.tcause, tval := x.tval, tpc := x.tpc, tseq := x.tseq, tstatus := x.tstatus }

/-- SCALL: a fault in reading the caller's record traps; a fault in writing the ring freezes the strand, and
stops its consist (R330). -/
def execScall (d a b : XReg) (s : State) : Out :=
  onCore s fun s =>
    let va := s.rx a
    accessing s va 64 64 .load false fun s ls =>
      if s.partsBad ls then .next ((s.foundParts ls).trap cDATAERR va)
      else
        let (call, s) := s.readParts ls
        match s.ctxOf s.cur with
        | none => .next (s.resultV1 (.x d 0)).advance
        | some c =>
          match s.postCall c ((s.rx b).toNat % 65536) call with
          | (.ok v, s) => .next (s.resultV1 (.x d v)).advance
          | (.error e, s) =>
            let s := if isT s.cur then s.markRest (tileOf s.cur) else s
            let s := s.hold.freeze s.cur .callRing 0 e s.me.trapRegs
            .next (if isT s.cur then s.stopMates (tileOf s.cur) else s)

end Sys2Proof.Machine
end

