-- ==== Sys2Proof/Machine/Frames.lean ====
section
/-! DEFINITION. Frame transactions and the waybill's own events (R311 to R317, R378). -/

namespace Sys2Proof.Machine

/-! ## Statuses (R311) -/

def stOK : Nat := 0
def stBADFRAME : Nat := 1
def stNOTOWNER : Nat := 2
def stBADSTATE : Nat := 3
def stBADTAG : Nat := 4
def stBADPEER : Nat := 5
def stBADARG : Nat := 6
def stLATE : Nat := 7

/-! ## The parts of a transaction (R312) -/

/-- The frame's bytes become 0, and no error is left in them. -/
def State.zeroFrame (s : State) (f : Nat) : State :=
  { s with
    mem := memClear s.mem (f * 0x10000) (f * 0x10000 + 0x10000), sealed := unsealed (1024 * f) (1024 * f + 1024) s.sealed
    bad := s.bad.filter (fun g => g / 1024 != f) }

/-- The frame goes to the pool: FREE, MONITOR's, under key 0 and zeroed. A worn frame enters QUARANTINE instead (R378). -/
def State.freeFrame (s : State) (f : Nat) (e : BitVec 128) : State :=
  if s.worn.contains f then
    let s := (s.shootDown none f).setWb f (wbSet e 0 3 5)
    s.mgmtEvents (.monitor :: (Kernel.ofCode? (wbOwner e)).toList) 6 0 0 (f * 0x10000) 0
  else (s.setWb f (wbSet (wbSet (wbSet e 0 3 0) 3 2 0) 8 10 0)).zeroFrame f

/-- A key that a kernel may bind (R315, R316). -/
def State.keyOk (s : State) (k : Nat) (key : Nat) : Bool :=
  let f := 0x08FE00000020 + k * 0x10000
  decide (s.ioRead f 2 % 1024 ≤ key) && decide (key ≤ s.ioRead (f + 2) 2 % 1024)

/-- A waybill event for the kernel of a code, if there is one. -/
def State.wbEventTo (s : State) (k kind f other : Nat) (e : BitVec 128) : State :=
  match Kernel.ofCode? k with
  | some k => s.wbEvent k kind f other e
  | none => s

/-- Translations of the kernel of a code that map a frame go. -/
def State.shootDownOf (s : State) (k f : Nat) : State :=
  match Kernel.ofCode? k with
  | some k => s.shootDown (some k) f
  | none => s

/-- What a transaction does when no earlier status applies: frame number, entry, caller; the status and the state. -/
abbrev FrameAct := State → Nat → BitVec 128 → Kernel → Nat × State

/-- Status of a FRAME word on X(xa): BADFRAME, then NOTOWNER, then BADPEER or BADARG, then what the transaction answers
(R311). What elements of write streams wait are performed before its shoot-down (R305). -/
def State.frameTxn (s : State) (fa : Nat) (role : BitVec 128 → Kernel → Bool) (bad : State → BitVec 128 → Kernel → Nat)
    (act : FrameAct) : Nat × State :=
  let s := s.performElems
  let f := fa / 0x10000
  match if fa % 0x10000 = 0 then s.wb f else none with
  | none => (stBADFRAME, s)
  | some e =>
    if wbLocked e then (stBADFRAME, s)
    else match gcoreKn (gcoreOf s.cur) with
      | none => (stNOTOWNER, s)
      | some k =>
        if !role e k then (stNOTOWNER, s)
        else match bad s e k with
          | 0 => act s f e k
          | n => (n, s)

/-- A FRAME word that writes a status: KERNEL or MONITOR of profile G (R48, R311). -/
def frameWord (s : State) (d : XReg) (go : State → Nat × State) : Out :=
  onG s fun s => above s fun s =>
    let (st, s) := go s
    .next (s.resultV1 (.x d (BitVec.ofNat 64 st))).advance

/-- The caller is OWNER, or PEER. -/
def isOwner (e : BitVec 128) (k : Kernel) : Bool := wbOwner e == k.code
def isPeer (e : BitVec 128) (k : Kernel) : Bool := wbPeer e == k.code

/-! ## The transactions (R312) -/

/-- The first bad operand of FOFFER. -/
def offerBad (v : Nat) (s : State) (_ : BitVec 128) (k : Kernel) : Nat :=
  let p := v / 2 ^ 16 % 4
  let grant := v / 2 ^ 18 % 2 == 1
  if p = 3 ∨ p = k.code then stBADPEER
  else if v / 2 ^ 19 % 2 = 1 ∨ 2 ^ 30 ≤ v then stBADARG
  else if grant && (k != .monitor || !s.keyOk p (v / 2 ^ 20 % 1024)) then stBADARG else 0

/-- FOFFER on an entry. -/
def offerAct (v : Nat) : FrameAct := fun s f e k =>
  let p := v / 2 ^ 16 % 4
  let grant := v / 2 ^ 18 % 2 == 1
  let offered (e : BitVec 128) : BitVec 128 := wbSet (wbSet (wbSet e 0 3 2) 5 2 p) 18 16 (v % 2 ^ 16)
  match wbState e, grant with
  | 0, true => (stOK, (s.setWb f (wbSet (wbSet (wbSet e 0 3 1) 3 2 p) 8 10 (v / 2 ^ 20 % 1024))).zeroFrame f)
  | 0, false =>
    let e := offered e
    (stOK, (s.setWb f e).wbEventTo p 1 f k.code e)
  | 1, false =>
    let e := wbSet (offered e) 7 1 0
    (stOK, ((s.shootDownOf k.code f).setWb f e).wbEventTo p 1 f k.code e)
  | _, _ => (stBADSTATE, s)

/-- FOFFER. -/
def execFoffer (d a b : XReg) (s : State) : Out :=
  frameWord s d fun s =>
    let v := (s.rx b).toNat
    s.frameTxn (s.rx a).toNat isOwner (offerBad v) (offerAct v)

/-- The first bad operand of FACCEPT: the key counts only when OWNER is MONITOR. -/
def acceptBad (v : Nat) (s : State) (e : BitVec 128) (k : Kernel) : Nat :=
  if 2 ^ 26 ≤ v then stBADARG
  else if wbOwner e == 0 && !s.keyOk k.code (v / 2 ^ 16 % 1024) then stBADARG else 0

/-- FACCEPT on an entry. -/
def acceptAct (v : Nat) : FrameAct := fun s f e _ =>
  if wbState e ≠ 2 then (stBADSTATE, s)
  else if wbTag e ≠ v % 2 ^ 16 then (stBADTAG, s)
  else
    let e' := wbSet (wbSet e 0 3 1) 3 2 (wbPeer e)
    if wbOwner e = 0 then (stOK, (s.setWb f (wbSet e' 8 10 (v / 2 ^ 16 % 1024))).zeroFrame f)
    else (stOK, s.setWb f e')

/-- FACCEPT. -/
def execFaccept (d a b : XReg) (s : State) : Out :=
  frameWord s d fun s =>
    let v := (s.rx b).toNat
    s.frameTxn (s.rx a).toNat isPeer (acceptBad v) (acceptAct v)

/-- The first bad operand of FLEND. -/
def lendBad (v : Nat) (_ : State) (_ : BitVec 128) (k : Kernel) : Nat :=
  let p := v / 2 ^ 16 % 4
  if p = 3 ∨ p = k.code then stBADPEER else if v % 2 ^ 16 ≠ 0 ∨ 2 ^ 18 ≤ v then stBADARG else 0

/-- FLEND on an entry. -/
def lendAct (v : Nat) : FrameAct := fun s f e _ =>
  if wbState e ≠ 1 then (stBADSTATE, s)
  else (stOK, s.setWb f (wbSet (wbSet (wbSet e 0 3 3) 5 2 (v / 2 ^ 16 % 4)) 7 1 0))

/-- FLEND. -/
def execFlend (d a b : XReg) (s : State) : Out :=
  frameWord s d fun s =>
    let v := (s.rx b).toNat
    s.frameTxn (s.rx a).toNat isOwner (lendBad v) (lendAct v)

/-- The grace of FRECALL in ns: 0 means 100,000. -/
def graceOf (v : Nat) : Nat := if v = 0 then 100000 else v

/-- FRECALL on an entry: a second recall keeps the earlier deadline, which no cached translation may outlive (R303). -/
def recallAct (v : Nat) : FrameAct := fun s f e k =>
  let dl := s.dtime + (3 * graceOf v + 1) / 2
  if wbState e = 3 then
    let e := wbSet (wbSet e 0 3 4) 64 64 dl
    (stOK, ((s.shootDownOf (wbPeer e) f).setWb f e).wbEventTo (wbPeer e) 2 f k.code e)
  else if wbState e = 4 then
    (stOK, (s.shootDownOf (wbPeer e) f).setWb f (wbSet e 64 64 (Nat.min dl (wbDeadline e))))
  else (stBADSTATE, s)

/-- FRECALL. -/
def execFrecall (d a b : XReg) (s : State) : Out :=
  frameWord s d fun s =>
    let v := (s.rx b).toNat
    s.frameTxn (s.rx a).toNat isOwner
      (fun _ _ _ => if graceOf v < 1000 ∨ 10000000 < graceOf v then stBADARG else 0) (recallAct v)

/-- A role for FRELEASE: MONITOR in QUARANTINE; any kernel while OWNED, where a past owner meets BADSTATE (R315);
otherwise OWNER or PEER. -/
def releaseRole (e : BitVec 128) (k : Kernel) : Bool :=
  if wbState e = 5 then k == .monitor else wbState e == 1 || isOwner e k || isPeer e k

/-- FRELEASE on an entry. -/
def releaseAct : FrameAct := fun s f e k =>
  match wbState e with
  | 1 => if isOwner e k && k != .monitor then (stOK, (s.shootDownOf k.code f).freeFrame f e) else (stBADSTATE, s)
  | 2 =>
    if !isOwner e k then (stBADSTATE, s)
    else if k ≠ .monitor then (stOK, s.setWb f (wbSet e 0 3 1))
    else if s.worn.contains f then (stOK, s.freeFrame f e)
    else (stOK, s.setWb f (wbSet e 0 3 0))
  | 3 | 4 =>
    if !isPeer e k then (stBADSTATE, s)
    else if wbState e = 4 ∧ wbDeadline e ≤ s.dtime then (stLATE, s)
    else
      let e' := wbSet e 0 3 1
      (stOK, ((s.shootDownOf k.code f).setWb f e').wbEventTo (wbOwner e) 3 f k.code e')
  | 5 => (stOK, s.freeFrame f e)
  | _ => (stBADSTATE, s)

/-- FRELEASE. -/
def execFrelease (d a : XReg) (s : State) : Out :=
  frameWord s d fun s => s.frameTxn (s.rx a).toNat releaseRole (fun _ _ _ => 0) releaseAct

/-- What FQUERY reads of a frame (R314): the status, the fields, and the deadline. -/
def State.frameQuery (s : State) (fa : Nat) : Word × Word :=
  let st (n : Nat) (v : Nat) : Word := BitVec.ofNat 64 (n * 2 ^ 56 + v)
  match if fa % 0x10000 = 0 then s.wb (fa / 0x10000) else none with
  | none => (st stBADFRAME 0, 0)
  | some e =>
    if wbLocked e then (st stBADFRAME 0, 0)
    else match gcoreKn (gcoreOf s.cur) with
      | none => (st stNOTOWNER 0, 0)
      | some k =>
        if isOwner e k || isPeer e k || k == .monitor then (st stOK (e.toNat % 2 ^ 56), BitVec.ofNat 64 (wbDeadline e))
        else (st stNOTOWNER (wbState e + 8 * wbOwner e), 0)

/-- FQUERY (R314). -/
def execFquery (d a : XReg) (s : State) : Out :=
  onG s fun s => above s fun s =>
    let r := s.frameQuery (s.rx a).toNat
    .next ((s.resultV1 (.x d r.1)).resultV1 (.x (d + 1) r.2)).advance

/-! ## Deadlines (R312, R313) -/

/-- The elements of a port that its engine moves next: a transfer, or a tile of a RING stream. -/
def State.nextElems (s : State) (h : Nat) (p : PortNo) : List Nat :=
  let q := s.port h p
  let r := (s.tile (tileOf h)).rings[Fin.ofNat 8 q.aux]
  let lo := if q.mode = .ring then q.done * r.tbytes / q.w else q.done * q.l
  let hi := if q.mode = .ring then ((q.done + 1) * r.tbytes + q.w - 1) / q.w else (q.done + 1) * q.l
  ((List.range (hi - lo)).map (lo + ·)).filter (fun e => decide (e < q.elems))

/-- The index that an INDEXED port uses as its j-th from now: one it has taken, one that its index port has staged, or one still to be
fetched; none where that cannot be read. -/
def State.indexAhead (s : State) (h : Nat) (p : PortNo) (j : Nat) : Option Int :=
  let q := s.port h p
  let ip : PortNo := Fin.ofNat 8 q.aux
  let iq := s.port h ip
  let l := q.taken ++ iq.stage.flatMap iq.signedElems
  match l[j]? with
  | some i => some i
  | none => match (s.fetchAffine h ip iq (iq.pos * iq.l + iq.part + (j - q.taken.length))).1 with
    | .bytes b => (iq.signedElems b).head?
    | .cause .. => none

/-- The address of an element, at its index for INDEXED. -/
def State.elemAddr (s : State) (h : Nat) (p : PortNo) (e : Nat) : Option Word :=
  let q := s.port h p
  if q.mode ≠ .indexed then some (q.addr e) else (s.indexAhead h p (e - q.done * q.l)).map q.indexed

/-- An engine's access to an address meets RECALLED. -/
def State.meetsRecalled (s : State) (u : EngineUnit) (sys : Bool) (since : Nat) (va : Word) (n : Nat) (k : AccKind) : Bool :=
  match (s.enginePlace u sys since va n k).1 with
  | .error c => c == cRECALLED
  | .ok _ => false

/-- A port whose next elements lie on a frame that its kernel has lost is faulted at the first of them (R84, R313). -/
def State.recallPort (s : State) (h : Nat) (p : PortNo) : State :=
  let q := s.port h p
  if !q.cfg || q.fault || q.wait then s
  else
    let lost := fun e => ((s.elemAddr h p e).filter (fun va =>
      s.meetsRecalled (.port h p) q.sys q.since va q.w (if q.write then .store else .load))).map (e, ·)
    match (s.nextElems h p).findSome? lost with
    | some (e, va) => s.faultPort h p e va cRECALLED
    | none => s

/-- The address of the first piece of a transfer, of at most n that are left, that lies on such a frame. -/
def State.recalledPiece (s : State) (u : Nat) (c : ChanNo) : Nat → Xfer → Option Word
  | 0, _ => none
  | n + 1, x =>
    if x.p.rows ≤ x.row then none
    else if !x.p.srcRemote s.pkgnum && s.meetsRecalled (.chan u c) x.sys x.since x.srcAt x.pieceLen .load then some x.srcAt
    else if !x.p.dstRemote s.pkgnum && s.meetsRecalled (.chan u c) x.sys x.since x.dstAt x.pieceLen .store then some x.dstAt
    else s.recalledPiece u c n x.next

/-- Every transfer of a channel that has such a piece left ends with RECALLED (R211, R313). -/
def State.recallChan (s : State) (u : Nat) (c : ChanNo) : State :=
  (s.chan u c).live.foldl (fun s x =>
    if !x.handed then s
    else match s.recalledPiece u c (x.p.rows * (x.p.len0 / 64 + 2)) x with
      | some va => s.endXfer u c x cRECALLED va
      | none => s) s

/-- The tile's engines meet a lost frame now; those of a tile that a gang switch has stopped or saved do so after it resumes
(R334). -/
def Tile.recallsNow (x : Tile) : Bool := x.presence == .present || x.presence == .crashed

/-- Streams and copies on a lost frame fault and end (R313). -/
def State.recallEngines (s : State) : State :=
  let hs := ((s.harts.map (·.1)).eraseDups).filter (fun h => isT h && (s.tile (tileOf h)).recallsNow)
  let us := ((s.chans.map (·.1)).eraseDups).filter (fun u => decide (512 ≤ u) || (s.tile u).recallsNow)
  let s := hs.foldl (fun s h => ([0, 1, 2, 3, 4, 5, 6, 7] : List PortNo).foldl (fun s p => s.recallPort h p) s) s
  us.foldl (fun s u => ([0, 1, 2, 3] : List ChanNo).foldl (fun s c => s.recallChan u c) s) s

/-- PEER has lost a frame at its deadline: its translations of it hold no longer, every stream of it that stands at the frame is
faulted and every copy with a piece of it left ends, and what it issued before then meets RECALLED at a later access too, though
the frame may be lent again (R313; log 104). -/
def State.loseFrame (s : State) (f : Nat) (e : BitVec 128) : State :=
  let s := s.shootDownOf (wbPeer e) f
  { s with revoked := put s.revoked (f * 4 + wbPeer e) (wbDeadline e) }.recallEngines

/-- RECALL_DEADLINE of a frame. Elements that passed their checks before it are performed (R313). -/
def execRecallDeadline (f : Nat) (s : State) : Out :=
  onPackage s fun s =>
    let s := s.performElems
    match s.wb f with
    | none => .next s
    | some e =>
      if wbState e = 4 ∧ wbDeadline e ≤ s.dtime then .next (s.loseFrame f e) else .next s

/-- RECALL_DRAIN_DONE of a frame: what PEER's accesses have passed their checks are performed, then it is OWNED again, REVOKED, and both
kernels are told. -/
def execRecallDrainDone (f : Nat) (s : State) : Out :=
  onPackage s fun s =>
    let s := s.performElems
    match s.wb f with
    | none => .next s
    | some e =>
      if wbState e = 4 ∧ wbDeadline e ≤ s.dtime then
        let e' := wbSet (wbSet e 0 3 1) 7 1 1
        let o := 0x08FE00000018 + wbPeer e * 0x10000
        let s := (s.loseFrame f e).setWb f e'
        let s := s.ioWrite o 8 (s.ioRead o 8 + 1)
        .next ((s.wbEventTo (wbOwner e) 4 f (wbPeer e) e').wbEventTo (wbPeer e) 4 f (wbOwner e) e')
      else .next s

/-! ## Memory keys (R317) -/

/-- The data key and the tweak key of slot k. -/
def State.key (s : State) (k : Nat) : BitVec 512 := KeyRef.key ⟨s.keyFill, k, look 0 s.keyGen k⟩

/-- KEY_REGENERATE of slot k: ignored while any entry holds it; every unlisted entry holds slot 0. -/
def execKeyRegenerate (k : Nat) (s : State) : Out :=
  onPackage s fun s =>
    if k = 0 ∨ 1024 ≤ k ∨ s.waybill.any (fun e => wbKey e.2 == k) = true then .next s
    else .next { s with keyGen := put s.keyGen k (look 0 s.keyGen k + 1) }

end Sys2Proof.Machine
end

