-- ==== Sys2Proof/Machine/SysMem.lean ====
section
/-! DEFINITION. TLBI, FLUSH and INVAL (R304 to R306), translation fills (R300), and DMA below the root ports (R250). -/

namespace Sys2Proof.Machine

/-! ## TLBI (R304, R305) -/

/-- The caches that a TLBI by a core reaches. -/
def tlbiReaches (scope : TlbiScope) (h unit : Nat) : Bool :=
  match scope with
  | .core => unit == 2000 + gcoreOf h
  | .device => decide (unit < 512) || (decide (1000 ≤ unit) && decide (unit < 1004))
  | .package => true

/-- The entries of the issuing kernel that a TLBI removes. -/
def tlbiMatches (kind : TlbiKind) (va asn : Nat) (e : TlbEntry) : Bool :=
  let page := decide (e.va ≤ va) && decide (va < e.va + 2 ^ e.sz)
  match kind with
  | .all => true
  | .asn => e.asn == asn && !e.glob
  | .page => page && (e.asn == asn || e.glob)
  | .gpage => page

/-- TLBI: it completes at once, since every access of this model is performed when it issues (log 2); what elements of write streams
wait are performed first. -/
def execTlbi (scope : TlbiScope) (a b : XReg) (kind : TlbiKind) (s : State) : Out :=
  onG s fun s => above s fun s =>
    match gcoreKn (gcoreOf s.cur) with
    | none => .next s.advance
    | some k =>
      let va := (s.rx a).toNat
      let asn := (s.rx b).toNat % 4096
      .next (s.performElems.dropTlb (tlbiReaches scope s.cur) (fun e => e.kn == k && tlbiMatches kind va asn e)).advance

/-! ## FLUSH and INVAL (R306) -/

/-- The first address of page number i of a range that starts at va. -/
def pageStart (va i : Nat) : Nat := if i = 0 then va else (va / 0x10000 + i) * 0x10000

/-- The pages of a range are translated as loads: the first that fails, with its address. -/
def State.touchPages (s : State) (va : Nat) : Nat → Nat → Option (Cause × Nat) × State
  | _, 0 => (none, s)
  | i, n + 1 =>
    let a := pageStart va i
    if 2 ^ 48 ≤ a then (some (cPERM, a), s)
    else match s.placePart (s.requester s.cur s.me.priv) (if isT s.cur then some (tileOf s.cur) else none) .load true (a, 1) with
      | (.error c, s) => (some (c, a), s)
      | (.ok _, s) => s.touchPages va (i + 1) n

/-- A page of a range, from its first address to its last: what other hosts have stored in its granules of a shared extent is
fetched (R251). -/
def State.invalPage (s : State) (lo hi : Nat) : State :=
  match s.translate (s.requester s.cur s.me.priv) (BitVec.ofNat 64 lo) .load with
  | (.error _, s) => s
  | (.ok pa, s) => s.fetchForeign (pa / 64 * 64) ((pa + (hi - lo)) / 64 * 64 + 64)

/-- The pages of a range that lie in translated space. -/
def State.invalRange (s : State) (va n : Nat) : State :=
  if s.foreign.isEmpty then s
  else (List.range ((va + n - 1) / 0x10000 - va / 0x10000 + 1)).foldl (fun s i =>
    let lo := pageStart va i
    if isT s.cur && classify lo != .xlated then s
    else s.invalPage lo (Nat.min (va + n - 1) (lo / 0x10000 * 0x10000 + 0xFFFF))) s

/-- A range operation: a failing page traps; otherwise every page is done. -/
def rangeWord (s : State) (a b : XReg) (done : State → Nat → Nat → State) : Out :=
  onCore s fun s =>
    let va := (s.rx a).toNat
    let n := (s.rx b).toNat
    let pages := if n = 0 then 0 else (va + n - 1) / 0x10000 - va / 0x10000 + 1
    match s.touchPages va 0 pages with
    | (some (c, x), s) => .next (s.trap c (BitVec.ofNat 64 x))
    | (none, s) => .next (if n = 0 then s else done s va n).advance

/-- FLUSH: the package is coherent, so no value of it changes. -/
def execFlush (a b : XReg) (s : State) : Out := rangeWord s a b fun s _ _ => s
/-- INVAL: no value changes either, but for the bytes of a shared extent that other hosts have stored. -/
def execInval (a b : XReg) (s : State) : Out := rangeWord s a b State.invalRange

/-! ## Fills (R300) -/

/-- TRANSLATION_FILL for a strand or core at its privilege. -/
def execTranslationFill (h : Nat) (va : Word) (k : AccKind) (s : State) : Out :=
  onPackage s fun s =>
    if isCore h then .next (s.translate (s.requester h (s.hart h).priv) va k).2 else .next s

/-! ## DMA (R250, R295, R296, R301) -/

/-- The places of a DMA access in device memory, or none when it ends with a completer abort, as one to an I/O page does (log 131). -/
def State.dmaPlaces (s : State) (port : Nat) (va : Word) (n : Nat) (k : AccKind) : Option (List (Loc × Nat)) × State :=
  if 4 ≤ port ∨ (s.power = .safelight ∧ port ≠ 0) ∨ 2 ^ 48 < va.toNat + n then (none, s)
  else match s.placeParts (s.portRequester port) none k false (splitPages va.toNat (n / 0x10000 + 2) n) with
    | (.error _, s) => (none, s)
    | (.ok ls, s) => (some ls, s)

/-- DMA_WRITE: the device's bytes are performed where its port's table maps them. -/
def execDmaWrite (port : Nat) (va : Word) (data : List Byte) (s : State) : Out :=
  onLit s fun s =>
    match s.dmaPlaces port va data.length .store with
    | (none, s) => .next s
    | (some ls, s) => .next (s.writeParts data ls)

/-- A DMA read-modify-write: the bytes are read and, where no error is found, replaced (R301, R380). -/
def execDmaAtomic (port : Nat) (va : Word) (data : List Byte) (s : State) : Out :=
  onLit s fun s =>
    match s.dmaPlaces port va data.length .atomic with
    | (none, s) => .next s
    | (some ls, s) => .next (if s.partsBad ls then s.foundParts ls else s.writeParts data ls)

/-- Another host stores into frames of shared extents (R251): no load here returns the bytes before an INVAL of them (log 100). -/
def State.hostStore (s : State) (pa : Nat) (data : List Byte) : State :=
  let shared := (List.range data.length).all (fun i => look false s.extents ((pa + i) / 0x10000))
  if shared then
    { s with foreign := (data.zipIdx).foldl (fun m b => put m (pa + b.2) b.1) s.foreign }
  else s

/-- DMA_READ: the device reads, which may find an error (R380). -/
def execDmaRead (port : Nat) (va : Word) (n : Nat) (s : State) : Out :=
  onLit s fun s =>
    match s.dmaPlaces port va n .load with
    | (none, s) => .next s
    | (some ls, s) => .next (s.foundParts ls)

end Sys2Proof.Machine
end

