-- ==== Sys2Proof/Machine/Exceptions.lean ====
section
/-! DEFINITION. ERET and the start of a launch (R128, R266, R277, R325), entries at issue boundaries (R322 to R324), kicks
(R323, R330), and waiting fault records (R329). -/

namespace Sys2Proof.Machine

/-! ## ERET -/

/-- A member of tile t's consist that an ERET waits for no longer: it is here, and waits in ERET itself, in a HALT that it has
issued (R266; log 39), or in an SCALL that a kick restarts (R330). -/
def State.resumes (s : State) (t m : Nat) : Bool :=
  let x := s.hart (4 * m)
  s.partHere (s.tile t).launch m && (x.ereting || x.run == .halting || x.restarted)

/-- A member that was frozen in its SCALL issues it anew after n cycles, and its results in flight stay as far from it (R62, R330). -/
def Hart.resumeCall (x : Hart) (n : Nat) : Hart :=
  { x with
    run := .running, restarted := false, bubble := 2
    flight := x.flight.map (fun f => { f with due := f.due.map (· + n) }) }

/-- Every member that is still coupled in tile t's consist waits in ERET: the consist resumes in one cycle, in which only
tile u moves (R266). The first resumed words issue after two bubbles. -/
def State.consistResume (s : State) (t : Nat) (u : Option Nat) : State :=
  let ms := s.members t .consist
  if ms.all (s.resumes t) then
    ms.foldl (fun s m =>
      if (s.hart (4 * m)).ereting then s.eretReturn (4 * m) (if u = some m then 3 else 2)
      else if (s.hart (4 * m)).restarted then s.mapHart (4 * m) (·.resumeCall 2)
      else s) s
  else s

/-- CONSIST_RESUME. -/
def execConsistResume (t : Nat) (s : State) : Out :=
  onPackage s fun s => .next (if 1 < (s.tile t).csize then s.consistResume t none else s)

/-- ERET of the moving strand or core with START clear (R325): in a consist it waits for the other members (R266). -/
def State.eretBack (s : State) : State :=
  let t := tileOf s.cur
  if isT s.cur && decide (1 < (s.tile t).csize) then
    let s := (s.mapMe (fun x => { x with ereting := true })).consistResume t (some t)
    if s.me.ereting then s.hold else { s with issue := { s.issue with ctl := .taken } }
  else { s.eretReturn s.cur 3 with issue := { s.issue with ctl := .taken } }

/-- ERET. -/
def execEret (s : State) : Out :=
  onCore s fun s => above s fun s =>
    if isT s.cur && tsStart s.me then .next (s.startLaunch (tileOf s.cur)) else .next s.eretBack

/-- ERET_START: ERET on a tile whose TSTATUS.START is 1 (R277). -/
def execEretStart (s : State) : Out :=
  onT s fun s => above s fun s => if tsStart s.me then .next (s.startLaunch (tileOf s.cur)) else .next s.eretBack

/-! ## Entries at an issue boundary (R322 to R324) -/

/-- The late fault that a strand takes first: the one whose instruction issued earliest. Above USER only those issued
above USER are taken (R324). -/
def Hart.firstLate (x : Hart) : Option LateFault :=
  least (fun a b => decide (a.org.order < b.org.order)) (x.late.filter (fun f => x.priv == .user || f.org.sys))

/-- The entry of a late fault. -/
def LateFault.entry (f : LateFault) : Entry :=
  { code := f.cause, tval := f.tval, seq := if f.org.vx then f.org.seq else 0xFFFF, late := true, faddr := f.faddr
    replay := f.replay, order := f.org.order }

/-- A word that STEP follows has not retired: in shared mode its results are still on their way (R341). -/
def Hart.stepWaits (x : Hart) (shared : Bool) : Bool := shared && x.step.isSome && !x.flight.isEmpty

/-- The first pending entry of a strand or core at its issue boundary, before the next word is looked at (R322, rows 1 to
3), and the strand without it. A strand that waits in HALT takes only late faults (log 39). -/
def Hart.pendingEntry (x : Hart) (shared : Bool) : Option (Entry × Hart) :=
  match x.firstLate with
  | some f => some (f.entry, { x with late := x.late.erase f })
  | none =>
    if x.run ≠ .running ∨ x.priv ≠ .user ∨ x.stepWaits shared = true then none
    else match x.step with
      | some v => some ({ code := cSTEP, tval := v }, { x with step := none })
      | none => match x.irqs with
        | [] => none
        | (code, v) :: q => some ({ int := true, code := code, tval := v }, { x with irqs := q })

/-- A member of tile t's consist is still to finish the COUPLE that has formed it (R263). -/
def State.finishing (s : State) (t : Nat) : Bool :=
  (s.members t .consist).any (fun m => (s.hart (4 * m)).coupled && (s.hart (4 * m)).priv == .user)

/-- A strand or core stands at a boundary at which it can take an entry: its tile is there (R332), and at USER its consist, once
formed, stands behind every COUPLE that has formed it (R263). -/
def State.atBoundary (s : State) (h : Nat) : Bool :=
  let x := s.hart h
  (x.run == .running || x.run == .halting)
    && (!isT h || ((s.tile (tileOf h)).presence == .present && (x.priv != .user || !s.finishing (tileOf h))))

/-- The pending entry of a strand or core, taken. A follower of a consist that waits in HALT is to wait there again (log 39). -/
def State.boundary (s : State) (h : Nat) : Option State :=
  let x := s.hart h
  let t := s.tile (tileOf h)
  if s.atBoundary h then
    match x.pendingEntry (isT h && t.shared) with
    | none => none
    | some (e, y) =>
      let halts := isT h && x.run == .halting && decide (1 < t.csize) && decide (t.cpos ≠ 0)
      some ((s.setHart h { y with run := .running, halts := y.halts || halts }).takeEntry h e)
  else none

/-- An entry that waits for its fault-ring slot tries again (R329). -/
def State.redeliver (s : State) (h : Nat) : State :=
  match (s.hart h).run, (s.hart h).undelivered with
  | .delivering, some u => s.deliver h u
  | _, _ => s

/-- TRAP_ENTRY of a strand or core: the entry that is pending at its boundary is taken, or a waiting one delivered. -/
def execTrapEntry (h : Nat) (s : State) : Out :=
  onPackage s fun s =>
    match s.boundary h with
    | some s => .next s
    | none => .next (s.redeliver h)

/-! ## Kicks (R323, R330) -/

/-- The strands that a kick names. -/
def kicked (t : Nat) (v : Word) : List Nat := (([0, 1, 2, 3] : List Nat).filter (fun i => v.getLsbD i)).map (fun i => 4 * t + i)

/-- KICK_INTERRUPT: a store to tile t's kick register with bit 63 clear. -/
def execKickInterrupt (t : Nat) (v : Word) (s : State) : Out :=
  onPackage s fun s =>
    if v.msb ∨ 512 ≤ t then .next s
    else .next ((kicked t v).foldl (fun s h =>
      if (s.hart h).run = .inactive then s else s.mapHart h (·.addIrq false ((v >>> 4).setWidth 8) v)) s)

/-- A strand that DOUBLE froze restarts its delivery where it stopped (R330): step 4 of R321 is made anew, with a slot
claimed for it (log 86). An SCALL in a consist runs again when the consist resumes, for which it counts as ready (R266). -/
def State.restart (s : State) (h : Nat) : State :=
  let x := s.hart h
  match x.run, x.undelivered with
  | .frozen d, some u =>
    let y := { x with run := .running, tcause := u.tcause, tval := u.tval }
    match d with
    | .record | .vector => (s.setHart h y).deliver h { u with slot := none }
    | .fetch => s.setHart h y
    | .callRing =>
      let y := { y with undelivered := none, since := none }
      if isT h ∧ 1 < (s.tile (tileOf h)).csize ∧ x.priv = .user then
        (s.setHart h { y with run := .frozen .callRing, restarted := true }).consistResume (tileOf h) none
      else s.setHart h y
    | .nested =>
      if tsRE x then ((s.setHart h { x with run := .running }).mapHart h (·.writeEntry u)).deliver h { u with slot := none }
      else s.freeze h .nested (u.tcause.setWidth 8) cDOUBLE u
  | _, _ => s

/-- KICK_RESTART: a store with bit 63 set. -/
def execKickRestart (t : Nat) (v : Word) (s : State) : Out :=
  onPackage s fun s =>
    if v.msb = false ∨ 512 ≤ t then .next s else .next ((kicked t v).foldl (fun s h => s.restart h) s)

/-! ## Waiting fault records (R329) -/

/-- Record number i that waits for its slot is written when the slot is free. One that cannot be written is dropped, and
the engine that waits for it is refused. -/
def State.writeWaiting (s : State) (i : Nat) : State :=
  match s.recs[i]? with
  | none => s
  | some r => match r.slot with
    | none => s
    | some slot =>
      match s.writeRecord (s.hubIn r.ctx) slot r.bytes with
      | (.ok _, s) => { s with recs := s.recs.eraseIdx i }
      | (.wait, s) => s
      | (.fail _, s) =>
        let s := { s with recs := s.recs.eraseIdx i }
        match r.unit with
        | some u => s.engineReplay u true
        | none => s

/-- FAULT_RECORD_WRITE. -/
def execFaultRecordWrite (i : Nat) (s : State) : Out := onPackage s fun s => .next (s.writeWaiting i)

/-- FREEZE is set and no work is in flight: FROZEN is set (R342). -/
def State.freezeDone (s : State) (t : Nat) : State :=
  let x := s.tile t
  if x.dbgctl.getLsbD 0 && !x.frozen && x.cmds.all (·.started.isNone) then s.setTile t { x with frozen := true } else s

/-- ENGINE_FROZEN of a tile. -/
def execEngineFrozen (t : Nat) (s : State) : Out := onPackage s fun s => .next (s.freezeDone t)

end Sys2Proof.Machine
end

