-- ==== Sys2Proof/Machine/Switch.lean ====
section
/-! DEFINITION. Gang switches of resident partitions (R331 to R338), and tiles that stop and resume (R61, R62, R332). -/

namespace Sys2Proof.Machine

/-! ## Stopping and resuming a tile -/

/-- A tile stops issuing, with this presence: a fixed-mode tile captures its results in flight; elsewhere they land
(R332, R334). Its consist keeps what each member has before it (R266). -/
def State.stopTile (s : State) (t : Nat) (p : Presence) : State :=
  let s := s.markRest t
  let s := ([0, 1, 2, 3] : List Nat).foldl (fun s i =>
    if (s.hart (4 * t + i)).run = .inactive then s else s.drainFlight (4 * t + i)) s
  s.mapTile t (fun x => { x with presence := p })

/-- The cycles before the first word that a strand issues. -/
def Hart.before (x : Hart) : Nat := x.bubble + x.rest

/-- The pipe shadow of a strand lands again, counted from the cycle in which the tile resumes (R62). -/
def Hart.reland (x : Hart) (adv : Nat) : Hart :=
  { x with
    flight := x.flight ++ x.shadow.map (fun f =>
      ({ due := some (adv + f.rem), land := f.land, fl := f.fl, en := f.en, tern := f.tern, org := f.org, float := f.float } : InFlight))
    shadow := [] }

/-- A tile resumes: the shadows of a fixed-mode tile's strands at USER land again. -/
def State.resumeTile (s : State) (t : Nat) : State :=
  let x := s.tile t
  let s := s.mapTile t (fun x => { x with presence := .present, cmds := x.cmds.map (fun c => { c with starved := none }) })
  if x.shared then s
  else s.mapHart (4 * t) (fun y =>
    if y.priv = .user then
      { y.reland (x.adv + y.before) with bubble := if x.cpos = 0 then y.before else y.bubble, rest := 0 }
    else y)

/-- SHADOW_RELAND of a strand that its program has resumed (R62). -/
def execShadowReland (h : Nat) (s : State) : Out :=
  onPackage s fun s =>
    let x := s.tile (tileOf h)
    let y := s.hart h
    if isT h ∧ x.presence = .present ∧ x.shared = false ∧ y.priv = .user ∧ y.run = .running then
      .next (s.setHart h (y.reland (x.adv + y.before)))
    else .next s

/-! ## Switch frames (R331) -/

def switchFrame (p : Nat) : Nat := 0x08FB00000000 + p * 0x10000
def State.switchStatus (s : State) (p n : Nat) : State := s.ioWrite (switchFrame p + 24) 1 n

/-- The logical tiles of a partition (R294). -/
def State.partition (s : State) (p : Nat) : List Nat :=
  let m := s.ioRead (0x08F10000C000 + 128 * p) 64
  (List.range 512).filter (fun t => m.testBit t)

def State.switch? (s : State) (p : Nat) : Option Switch := (s.switches.find? (·.1 == p)).map (·.2)

/-- SWITCH_ARM: a store to SWT. -/
def execSwitchArm (p : Nat) (v : Word) (s : State) : Out :=
  onPackage s fun s =>
    if 16 ≤ p then .next s
    else if (s.switch? p).isSome then .next (s.switchStatus p 5)
    else
      let s := s.ioWrite (switchFrame p) 8 v.toNat
      if v.toNat < s.dtime + 3000 then .next (s.switchStatus p 4)
      else
        let w : Switch := { swt := v.toNat, inctx := s.ioRead (switchFrame p + 8) 2 }
        .next (({ s with switches := put s.switches p w }).switchStatus p 1)

/-! ## The bounce ring at restore (R338) -/

/-- An entry of the bounce ring, slot number n: target, context, length, kind, package, payload. -/
def State.bounceEntry (s : State) (n : Nat) : Nat × Nat × Nat × Nat × Nat × List Byte :=
  let f := 0x08FA00000000
  let a := s.ioRead f 8 + n % s.ioRead (f + 8) 4 * 128
  let b := s.memRd a 128
  (field b 0 8, field b 8 2, field b 10 1, field b 11 1, field b 12 4, (b.drop 64).take (field b 10 1))

/-- The tile that an entry's target names. -/
def bounceTile (va : Nat) : Nat :=
  match classify va with
  | .slice u _ => u
  | _ => va % 512

/-- One bounce entry of context c is performed as the original write or enqueue, and freed: its length becomes 0. An entry
for a tile whose part is still away stays. -/
def State.performBounce (s : State) (c n : Nat) : State :=
  let (va, c', len, kind, pkg, data) := s.bounceEntry n
  if c' ≠ c ∨ len = 0 ∨ s.absent c (bounceTile va) then s
  else
    let s := if kind = 1 then (s.pieceHere c pkg (BitVec.ofNat 64 va) data).2
      else if va < 512 then (s.inboxHere c pkg va data).2 else (s.queueHere c pkg (BitVec.ofNat 64 va) data).2
    let f := 0x08FA00000000
    s.memPut (s.ioRead f 8 + n % s.ioRead (f + 8) 4 * 128 + 10) 1 0

/-- The context's entries of the bounce ring, in ring order from its head; then the head passes the freed ones (R338,
R397). -/
def State.performBounces (s : State) (c : Nat) : State :=
  let f := 0x08FA00000000
  let head := s.ioRead (f + 12) 4
  let used := Nat.min (s.ioRead (f + 8) 4) ((s.ioRead (f + 16) 4 + 2 ^ 32 - head) % 2 ^ 32)
  let ns := (List.range used).map (head + ·)
  let s := ns.foldl (fun s n => s.performBounce c n) s
  let freed := (ns.takeWhile (fun n => (s.bounceEntry n).2.2.1 == 0)).length
  if freed = 0 then s else s.ioWrite (f + 12) 4 ((head + freed) % 2 ^ 32)

/-! ## The end of a switch -/

/-- The last tile has been restored: the context's bounce entries are performed (R337); every tile of the partition resumes,
or after RESUME if the resident kernel is down (R383, R384), and the switch is done (R294, R331). -/
def State.switchDone (s : State) (p : Nat) (w : Switch) : State :=
  let s := { s with switches := s.switches.filter (·.1 != p) }.ioWrite (0x08F10000C040 + 128 * p) 2 w.inctx
  let s := if w.inctx < 256 then s.performBounces w.inctx else s
  let s := (s.partition p).foldl (fun s t =>
    if (s.tile t).presence ≠ .stopped then s
    else if s.crashed then s.mapTile t (fun x => { x with presence := .crashed }) else s.resumeTile t) s
  (s.switchStatus p 3).interrupt .resident 0x03 p

/-- Every tile has been saved: the incoming context's tiles are to be restored. -/
def State.switchIn (s : State) (p : Nat) (w : Switch) : State :=
  let ts := if w.inctx < 256 then (s.partition p).filter (fun t => (s.tile t).presence == .absent) else []
  let w := { w with stage := .restoring, todo := ts }
  let s := { s with switches := put s.switches p w }
  if ts.isEmpty then s.switchDone p w else s

/-- SWITCH_STOP: at SWT every tile of the partition stops. -/
def State.switchStop (s : State) (p : Nat) : State :=
  match s.switch? p with
  | none => s
  | some w =>
    if w.stage = .armed ∧ w.swt ≤ s.dtime then
      let ts := (s.partition p).filter (fun t => (s.tile t).presence == .present || (s.tile t).presence == .crashed)
      let s := (ts.foldl (fun s t => s.stopTile t .stopped) s).switchStatus p 2
      let w := { w with stage := .saving, todo := ts }
      let s := { s with switches := put s.switches p w }
      if ts.isEmpty then s.switchIn p w else s
    else s

/-- SWITCH_STOP. -/
def execSwitchStop (p : Nat) (s : State) : Out := onPackage s fun s => .next (s.switchStop p)

/-! ## Images (R334 to R336) -/

/-- The tag and payload of a granule (R336), after the granule before it. -/
def granuleCode (prev : Option (List Byte)) (b : List Byte) : Nat × List Byte :=
  let w := b.take 4
  if b.all (· == 0) then (0, [])
  else if prev = some b then (1, [])
  else if (List.range 16).all (fun i => (b.drop (4 * i)).take 4 == w) then (2, w)
  else (3, b)

/-- The granules of a region from number g on, with the one before: tags as a number, and payloads. -/
def regionCode (m : List Host.Cell) (base : Nat) (prev : Option (List Byte)) (g : Nat) : Nat → Nat × List Byte
  | 0 => (0, [])
  | n + 1 =>
    let b := memRead m (base + 64 * g) 64
    let (tag, p) := granuleCode prev b
    let (tags, ps) := regionCode m base (some b) (g + 1) n
    (tag * 4 ^ g + tags, p ++ ps)

/-- The dirty regions of a scratchpad image, each as its tag block and payloads, in increasing number. -/
def imageRegions (x : Tile) : List Byte :=
  ((List.range 192).filter (fun k => x.dirty.getLsbD k)).flatMap (fun k =>
    let r := regionCode x.scratch (4096 * k) none 0 64
    leBytes 16 r.1 ++ r.2)

/-- The bytes of an image with a state section of n bytes, which are free values. -/
def State.imageBytes (s : State) (x : Tile) (n : Nat) : List Byte × State :=
  let (v, s) := s.draw (8 * n)
  let r := imageRegions x
  ([0x53, 0x56, 0x49, 0x01] ++ leBytes 4 (64 + n + r.length) ++ leBytes 4 n ++ leBytes 24 x.dirty.toNat
    ++ List.replicate 28 0 ++ leBytes n v.toNat ++ r, s)

/-- The slot of a tile in a context's save area (R331). -/
def State.saveSlot (s : State) (c t : Nat) : Nat := s.ioRead (0x08F800000000 + 8 * c) 8 + t * 0x100000

/-- What the shadow store holds of one tile (R335). -/
def shadowSize : Nat := 0x60000

/-- An image moves to its context's save area, from byte lo on. -/
def State.spill (s : State) (i : Image) (lo : Nat) : State :=
  let (b, s) := s.imageBytes i.st Config.stateSection
  s.memWr (s.saveSlot i.ctx i.tile + lo) (b.drop lo)

/-- The registrations of a tile's strands name them in the image from now on, or here again. -/
def State.renameRegs (s : State) (c t : Nat) (away : Bool) : State :=
  let rename := fun (r : SigReg) =>
    if r.away.isSome then r
    else if away ∧ r.hart < 2 ^ 20 ∧ isT r.hart ∧ tileOf r.hart = t then { r with hart := absentHart c r.hart }
    else if !away ∧ absentHart c (r.hart % 2 ^ 20) = r.hart ∧ tileOf (r.hart % 2 ^ 20) = t then { r with hart := r.hart % 2 ^ 20 }
    else r
  { s with sigs := s.sigs.map rename, sigsAway := s.sigsAway.map rename }

/-- A stopped tile has drained (R334): no command that has started is left, and no status of a PUTQ is owed, unless it waits in a
siding (R333). -/
def State.drained (s : State) (t : Nat) : Bool :=
  (s.tile t).cmds.all (·.started.isNone) && s.movingPutqs.all (fun m => !(isT m.hart && tileOf m.hart == t))

/-- Pushes that can be written are, on every port of a tile (R334). -/
def State.flushPorts (s : State) (t : Nat) : State :=
  ([0, 1, 2, 3] : List Nat).foldl (fun s i => ([0, 1, 2, 3, 4, 5, 6, 7] : List PortNo).foldl (fun s p =>
    s.writeAll (4 * t + i) p (s.port (4 * t + i) p).pend.length) s) s

/-- SWITCH_SAVE of a tile of partition p, once what it and the tiles still to save have pushed is written: its image goes to the shadow store. What the store cannot hold, and the image
of another context that it displaces there, move to save areas. -/
def State.saveTile (s : State) (p : Nat) (w : Switch) (t : Nat) : State :=
  let s := w.todo.foldl (fun s u => s.flushPorts u) s
  let c := s.current p
  let x := s.tile t
  let i : Image :=
    { ctx := c, tile := t, st := { x with cmds := x.cmds.map (fun k => { k with starved := none }) }
      harts := ([0, 1, 2, 3] : List Nat).map (fun j => s.hart (4 * t + j)), chans := s.chanSet t }
  let s := (s.images.filter (fun (j : Image) => j.tile == t && j.ctx != w.inctx && j.ctx != c)).foldl (fun (s : State) (j : Image) => s.spill j 0) s
  let s := if shadowSize < 64 + Config.stateSection + (imageRegions x).length then s.spill i shadowSize else s
  let s := { s with images := s.images.filter (fun (j : Image) => !(j.ctx == c && j.tile == t)) ++ [i] }
  let s := (s.renameRegs c t true).mapTile t (fun x => { x with presence := if x.presence = .retired then .retired else .absent })
  let w := { w with todo := w.todo.filter (· != t) }
  let s := { s with switches := put s.switches p w }
  if w.todo.isEmpty then s.switchIn p w else s

/-- The partition of a tile whose switch is at a stage, with the tile still to do. -/
def State.switchOf (s : State) (t : Nat) (g : SwitchStage) : Option (Nat × Switch) :=
  s.switches.find? (fun w => w.2.stage == g && w.2.todo.contains t)

/-- SWITCH_SAVE of a tile. -/
def execSwitchSave (t : Nat) (s : State) : Out :=
  onPackage s fun s =>
    match s.switchOf t .saving with
    | none => .next s
    | some (p, w) => if s.drained t then .next (s.saveTile p w t) else .next s

/-! ## Restoring (R337, R338) -/

/-- SWITCH_RESTORE of a tile: its image, or a tile that runs its monitor when the context has none there. -/
def State.restoreTile (s : State) (p : Nat) (w : Switch) (t : Nat) : State :=
  let c := w.inctx
  let here := s.tile t
  let s : State := match s.images.find? (fun i => i.ctx == c && i.tile == t) with
    | some i =>
      let s := s.setTile t { i.st with presence := if here.presence = .retired then .retired else .stopped, born := here.born, bad := here.bad }
      let s := ([0, 1, 2, 3] : List Nat).foldl (fun s j => s.setHart (4 * t + j) (i.harts.getD j {})) s
      let s := { s with chans := put s.chans t i.chans, images := s.images.filter (fun (j : Image) => !(j.ctx == c && j.tile == t)) }
      s.renameRegs c t false
    | none =>
      let s := s.setTile t { (Tile.initial t) with
        ctx := c, presence := if here.presence = .retired then .retired else .stopped, born := here.born, bad := here.bad, adv := here.adv }
      let s := ([0, 1, 2, 3] : List Nat).foldl (fun s j => s.setHart (4 * t + j) (Hart.initial (4 * t + j))) s
      ({ s with chans := put s.chans t (Vector.replicate 4 {}) }).monitorStart t
  let w := { w with todo := w.todo.filter (· != t) }
  let s := { s with switches := put s.switches p w }
  if w.todo.isEmpty then s.switchDone p w else s

/-- SWITCH_RESTORE. -/
def execSwitchRestore (t : Nat) (s : State) : Out :=
  onPackage s fun s =>
    match s.switchOf t .restoring with
    | none => .next s
    | some (p, w) => .next (s.restoreTile p w t)

/-- The partitions whose switch time has come stop. -/
def State.switchTick (s : State) : State :=
  (s.switches.filter (fun w => w.2.stage == .armed)).foldl (fun s w => s.switchStop w.1) s

end Sys2Proof.Machine
end

