-- ==== Sys2Proof/Machine/Hub.lean ====
section
/-! DEFINITION. Stores to the hub's registers: contexts and partitions (R294), roots (R296), event frames (R315, R375),
the package number (R400), and the fields without a behaviour of their own. -/

namespace Sys2Proof.Machine

/-- The bytes that a store of size bytes of v writes, each with its offset from off. -/
def storeBytes (off size : Nat) (v : Word) : List (Nat × Nat) :=
  (List.range size).map (fun i => (off + i, v.toNat / 256 ^ i % 256))

/-- An old byte with the bits of a mask replaced. -/
def maskByte (old new mask : Nat) : Nat := (old &&& (255 - mask)) ||| (new &&& mask)

/-- The hub's bytes from base on after a store: of each byte, the bits of its mask. -/
def State.ioMasked (s : State) (base : Nat) (mask : Nat → Nat) (bs : List (Nat × Nat)) : State :=
  bs.foldl (fun s b => s.ioWrite (base + b.1) 1 (maskByte (s.ioRead (base + b.1) 1) b.2 (mask b.1))) s

/-- A field of n bytes at offset lo, as it reads after a store of size bytes of v at offset off. -/
def State.merged (s : State) (base lo n off size : Nat) (v : Word) : Nat :=
  leRead (s.ioMasked base (fun _ => 255) (storeBytes off size v)).io (base + lo) n

/-! ## Contexts (R281, R294) -/

/-- An entry of the context table that is refused before its depot is read. -/
def ctxRefused (depot drecs callring part : Nat) : Bool :=
  (depot != 0 && (depot % 64 != 0 || drecs == 0 || decide (4096 < drecs))) || callring % 64 != 0 || decide (15 < part)

/-- The depot read through the context's table, record by record; none when a record cannot be read. -/
def State.readDepot (s : State) (c base : Nat) : Nat → Option (List (List Byte)) × State
  | 0 => (some [], s)
  | n + 1 =>
    match s.hubRead c base 64 with
    | (.error _, s) => (none, s)
    | (.ok b, s) =>
      match s.readDepot c (base + 64) n with
      | (none, s) => (none, s)
      | (some bs, s) => (some (b :: bs), s)

/-- Records from number i on, each IDLE, with no arm or completion counted (R294). -/
def State.fillDepot (s : State) (c : Nat) : Nat → List (List Byte) → State
  | _, [] => s
  | i, b :: bs => (s.setDepot c i { bytes := b }).fillDepot c (i + 1) bs

/-- The records of a context are IDLE again: those that were READY have no launch to be placed (R294). -/
def State.dropReady (s : State) (c : Nat) : State :=
  { s with launches := s.launches.filter (fun l => !(l.2.ctx == c && l.2.record.isSome && !l.2.begun)) }

/-- CONTEXT_REGISTER: a store of 1 to CVALID. -/
def execContextRegister (c : Nat) (s : State) : Out :=
  onPackage s fun s =>
    let e := 0x08F100000000 + 128 * c
    let depot := s.ioRead e 8
    let drecs := s.ioRead (e + 8) 2
    let ring := s.ioRead (e + 16) 8
    let part := s.ioRead (e + 24) 1
    let refuse := fun (s : State) => (s.setCtx c { s.ctx c with valid := false }).ioWrite (e + 25) 1 0
    if 256 ≤ c then .next s
    else if ctxRefused depot drecs ring part then .next (refuse s)
    else
      let n := if depot = 0 then 0 else drecs
      match s.readDepot c depot n with
      | (none, s) => .next (refuse s)
      | (some bs, s) =>
        let x : Ctx := { s.ctx c with
          valid := true, depot := BitVec.ofNat 64 depot, drecs := n, callring := BitVec.ofNat 64 ring, part := part }
        .next ((((s.dropReady c).setCtx c x).fillDepot c 0 bs).ioWrite (e + 25) 1 1)

/-- A record of the context is READY or RUNNING. -/
def State.ctxBusy (s : State) (c : Nat) : Bool :=
  (List.range (s.ctx c).drecs).any (fun i => (s.depot c i).st == .ready || (s.depot c i).st == .running)

/-- CONTEXT_UNREGISTER: a store of 0 to CVALID, refused while a record is READY or RUNNING. -/
def execContextUnregister (c : Nat) (s : State) : Out :=
  onPackage s fun s =>
    if 256 ≤ c ∨ s.ctxBusy c = true then .next s
    else .next ((s.setCtx c { s.ctx c with valid := false }).ioWrite (0x08F100000000 + 128 * c + 25) 1 0)

/-! ## Partitions (R294) -/

/-- A store that changes the map of partition p to m is ignored: a tile would be in two partitions, or a tile of the map
holds a running launch. -/
def State.mapRefused (s : State) (p m : Nat) : Bool :=
  let b := 0x08F10000C000
  (List.range 16).any (fun q => q != p && (s.ioRead (b + 128 * q) 64 &&& m) != 0)
    || (m != s.ioRead (b + 128 * p) 64 && (s.partition p).any (fun t => (s.tile t).launch.isSome))

/-- PARTITION_WRITE: a store of size bytes at offset off of entry p. -/
def execPartitionWrite (p : Nat) (off : Nat) (size : Nat) (v : Word) (s : State) : Out :=
  onPackage s fun s =>
    let b := 0x08F10000C000 + 128 * p
    if 16 ≤ p ∨ (off < 64 ∧ s.mapRefused p (s.merged b 0 64 off size v) = true) then .next s
    else .next (s.ioMasked b (fun i => if i < 66 then 255 else 0) (storeBytes off size v))

/-! ## Roots (R296) -/

/-- The address of the root entry that holds an address of a root frame. -/
def rootEntry (pa : Nat) : Option Nat :=
  let f := pa / 0x10000
  let off := pa % 0x10000
  if (0x08FF0000 ≤ f ∧ f < 0x08FF0010 ∧ off < 16) ∨ (0x08FC0000 ≤ f ∧ f < 0x08FC0004 ∧ off < 16)
      ∨ (f = 0x08FD0000 ∧ off < 4096) then some (pa / 16 * 16) else none

/-- ROOT_WRITE: a store that leaves a bit set that must be zero is ignored. -/
def execRootWrite (pa : Nat) (size : Nat) (v : Word) (s : State) : Out :=
  onPackage s fun s =>
    match rootEntry pa with
    | none => .next s
    | some e =>
      if s.merged e 0 2 (pa - e) size v ≠ 0 ∨ s.merged e 10 6 (pa - e) size v ≠ 0 then .next s
      else .next (s.ioMasked e (fun _ => 255) (storeBytes (pa - e) size v))

/-! ## Event frames (R315, R375) -/

/-- ICORE after a store: a core that is not the kernel's, and any store in MONITOR's frame, leave it. -/
def icoreAfter (kn : Kernel) (old new : Nat) : Nat :=
  let c := new % 32
  if kn ≠ .monitor ∧ c < Config.mgmtCore ∧ Config.gcoreKernel c = kn then c else old

/-- EVENT_FRAME_WRITE: a store of size bytes at offset off of the kernel's waybill event frame, by that kernel or by
MONITOR. -/
def execEventFrameWrite (kn : Kernel) (byMonitor : Bool) (off : Nat) (size : Nat) (v : Word) (s : State) : Out :=
  onPackage s fun s =>
    let b := 0x08FE00000000 + kn.code * 0x10000
    let mask := fun i =>
      if i < 16 then 255 else if byMonitor = true ∧ (i = 32 ∨ i = 34) then 255
      else if byMonitor = true ∧ (i = 33 ∨ i = 35) then 3 else 0
    let bs := storeBytes off size v
    let s := s.ioMasked b mask bs
    match bs.find? (fun x => x.1 == 36) with
    | none => .next s
    | some x => .next (s.ioWrite (b + 36) 1 (icoreAfter kn (s.ioRead (b + 36) 1) x.2))

/-! ## The package number (R390, R400) -/

/-- BOOTOK has been set since the last reset. -/
def State.bootok (s : State) : Bool := s.ioRead 0x08F400000001 1 / 8 % 2 == 1

/-- PKGNUM_WRITE: the eight bytes of PKGNUM as a store leaves them. -/
def execPkgnumWrite (v : Word) (s : State) : Out :=
  onLit s fun s => if s.bootok then .next s else .next (s.ioWrite 0x08F400000008 8 (v.toNat % 2 ^ 13))

/-! ## Fields without a behaviour of their own -/

/-- The bits of byte off of hub frame f that a store writes: those of a field that software writes and that nothing
else happens to. -/
def plainMask (f off : Nat) : Nat :=
  if f = 0x08F00000 then if off < 0x8000 ∧ off % 32 < 11 then 255 else 0
  else if f = 0x08F10000 then
    if off < 0x8000 then if off % 128 < 10 ∨ (16 ≤ off % 128 ∧ off % 128 < 25) then 255 else 0
    else if off < 0x8080 then if off % 8 = 0 then 255 else if off % 8 = 1 then 1 else 0
    else 0
  else if f = 0x08F10001 then
    if 0x2000 ≤ off then 0 else if off % 8 < 3 then 255 else if off % 8 = 3 then 0x3F else 0
  else if f = 0x08F20000 then if off < 8 then 255 else 0
  else if f = 0x08F50000 then if 16 ≤ off ∧ off < 22 then 255 else 0
  else if 0x08F60000 ≤ f ∧ f < 0x08F60003 then if off < 16 then 255 else 0
  else if f = 0x08F80000 then if off < 0x800 then 255 else 0
  else if f = 0x08FA0000 then if off < 20 then 255 else 0
  else if 0x08FB0000 ≤ f ∧ f < 0x08FB0010 then if off = 8 ∨ off = 9 then 255 else 0
  else 0

/-- A switch frame whose switch is armed or in progress: INCTX is kept (R331). -/
def State.switchBusy (s : State) (f : Nat) : Bool :=
  decide (0x08FB0000 ≤ f ∧ f < 0x08FB0010) && (s.switch? (f - 0x08FB0000)).isSome

/-- The plain effect of a store to a hub frame. -/
def State.plainStore (s : State) (pa size : Nat) (v : Word) : State :=
  let f := pa / 0x10000
  if s.switchBusy f then s
  else s.ioMasked (f * 0x10000) (plainMask f) (storeBytes (pa % 0x10000) size v)

/-- HUB_REGISTER_WRITE. -/
def execHubRegisterWrite (pa : Nat) (size : Nat) (v : Word) (s : State) : Out :=
  onLit s fun s => .next (s.plainStore pa size v)

end Sys2Proof.Machine
end

