-- ==== Sys2Proof/Machine/Ras.lean ====
section
/-! DEFINITION. Errors, repairs and retirement (R11, R12, R376 to R381), the resident kernel's watchdog (R382 to R384), CXL
extents (R385, R386), sensors (R391, R392), and the links (R393). -/

namespace Sys2Proof.Machine

/-! ## Corrected errors (R376, R377) -/

/-- Cycles of DTIME in a bucket: 60 s. -/
def bucketSpan : Nat := 90000000000

/-- The count of a unit in the window of a bucket: that bucket and the 59 before it (R376). -/
def State.errCount (s : State) (u : ErrUnit) (k : Nat) : Nat :=
  ((s.buckets.filter (fun b => b.1 == u && decide (b.2.1 ≤ k) && decide (k < b.2.1 + 60))).map (·.2.2)).sum

/-- One more error of a unit in bucket k. -/
def bumpBucket (u : ErrUnit) (k : Nat) : List (ErrUnit × Nat × Nat) → List (ErrUnit × Nat × Nat)
  | [] => [(u, k, 1)]
  | b :: bs => if b.1 = u ∧ b.2.1 = k then (u, k, b.2.2 + 1) :: bs else b :: bumpBucket u k bs

/-- The threshold of R377. -/
def errThreshold : ErrUnit → Nat
  | .sramRow .. => 4
  | .hbmRow .. => 8
  | .lane .. => 16

/-- UNIT of an event about the unit (R375). -/
def errCode : ErrUnit → Nat
  | .sramRow t _ => t
  | .hbmRow st b _ => st + 8 * b
  | .lane l n => l + 16 * n

/-- A frame becomes worn; while the list is full it enters QUARANTINE at once (R378). -/
def State.wear (s : State) (f : Nat) : State :=
  if s.worn.contains f then s
  else if s.worn.length < 4096 then { s with worn := s.worn ++ [f] }
  else s.foundPhys (f * 0x10000)

/-- The link is down (R393). -/
def State.linkDown (s : State) (l : Nat) : State :=
  (s.setLink l { s.link l with up := false }).mgmtEvents [.monitor, .resident] 7 0 l 0 0

/-- The physical columns of a row that are not retired, in order: logical column c lies on the c-th (R11). -/
def columns (gone : List Nat) : List Nat := (List.range 17).filter (fun p => !gone.contains p)
/-- The physical column of a logical column, none for a lost number (R12). -/
def physCol (gone : List Nat) (c : Nat) : Option Nat := (columns gone)[c]?

/-- The physical tile on which logical tile t lies: 17 to a row; none for a lost number (R12). Its rows and their spares are its own
(R15, R377). -/
def State.physTile (s : State) (t : Nat) : Option Nat :=
  (physCol (look [] s.retired (t / 16)) (t % 16)).map (17 * (t / 16) + ·)

/-- The unit as it is counted, if the package has it (R6, R9, R12, R15): 512 tiles of 24 data banks and two spare banks, 8 stacks, 16
links of 8 lanes. An SRAM row belongs to the physical tile. -/
def State.counted (s : State) : ErrUnit → Option ErrUnit
  | .sramRow t row => if t < 512 then (s.physTile t).map (.sramRow · row) else none
  | .hbmRow st b row => if st < 8 ∧ b < 32 then some (.hbmRow st b row) else none
  | .lane l n => if l < 16 ∧ n < 8 then some (.lane l n) else none

/-- The package has the unit. -/
def State.hasUnit (s : State) (u : ErrUnit) : Bool := (s.counted u).isSome

/-- The action of a unit whose count has reached its threshold (R377). -/
def State.repair (s : State) : ErrUnit → State
  | .sramRow t row =>
    match s.physTile t with
    | none => s
    | some p =>
      if look 0 s.spares p < Config.spareRows then
        { s with spares := put s.spares p (look 0 s.spares p + 1), sparing := s.sparing ++ [(p, row)] }
      else s.retireTile t
  | .hbmRow st b row =>
    let n := st + 8 * b
    if look 0 s.repairs n < Config.hbmRepairs st b then
      { s with repairs := put s.repairs n (look 0 s.repairs n + 1), repairing := s.repairing ++ [(st, b, row)] }
    else (Config.rowFrames st b row).foldl (fun s f => s.wear f) s
  | .lane l n =>
    let x := s.link l
    if x.lanes = 8 then s.setLink l { x with lanes := 7, retrain := true, lane := n } else s.linkDown l

/-- CORRECTED_ERROR: the count, and at the threshold the THRESHOLD event, the action and the cleared buckets. -/
def execCorrectedError (u : ErrUnit) (s : State) : Out :=
  onPackage s fun s =>
    match s.counted u with
    | none => .next s
    | some c =>
      let k := s.dtime / bucketSpan
      let s := { s with buckets := bumpBucket c k s.buckets }
      let n := s.errCount c k
      if n < errThreshold u then .next s
      else
        let s := (s.mgmtEvent .monitor 2 0 (errCode u) 0 n).repair u
        .next { s with buckets := s.buckets.filter (fun b => b.1 != c) }

/-- ROW_SPARE_DONE: the row reads from its spare. Accesses that the copy holds lose only time. -/
def execRowSpareDone (tile : Nat) (row : Nat) (s : State) : Out :=
  onPackage s fun s =>
    match (s.physTile tile).filter (fun p => s.sparing.contains (p, row)) with
    | some p => .next ({ s with sparing := s.sparing.erase (p, row) }.mgmtEvent .monitor 3 0 tile 0 0)
    | none => .next s

/-- HBM_REPAIR_DONE. -/
def execHbmRepairDone (stack : Nat) (bank : Nat) (row : Nat) (s : State) : Out :=
  onPackage s fun s =>
    if s.repairing.contains (stack, bank, row) then
      .next ({ s with repairing := s.repairing.erase (stack, bank, row) }.mgmtEvent .monitor 3 0 (stack + 8 * bank) 0 0)
    else .next s

/-- LINK_RETRAIN_DONE: the link runs on 7 lanes. -/
def execLinkRetrainDone (link : Nat) (s : State) : Out :=
  onPackage s fun s =>
    let x := s.link link
    if x.retrain then .next ((s.setLink link { x with retrain := false }).mgmtEvent .monitor 3 0 (link + 16 * x.lane) 0 0)
    else .next s

/-! ## Uncorrectable errors (R380) -/

/-- The place of a granule by its number: device memory, or a tile's scratchpad from 2^54 on. -/
def granulePlace (g : Nat) : Loc :=
  if g < 2 ^ 54 then .phys (64 * g) else .scratch ((g - 2 ^ 54) / 2 ^ 14) ((g - 2 ^ 54) % 2 ^ 14 * 64)

/-- UNCORRECTABLE_ERROR: an access has read the granule; its frame enters QUARANTINE, or its tile is retired. -/
def execUncorrectableError (g : Nat) (s : State) : Out :=
  onPackage s fun s => .next (s.found (granulePlace g) 64)

/-- PATROL_SCRUB reads a granule of HBM. -/
def execPatrolScrub (g : Nat) (s : State) : Out :=
  onPackage s fun s => if physKind (64 * g) = .hbm then .next (s.found (.phys (64 * g)) 64) else .next s

/-! ## Retirement (R11, R12, R379, R381) -/

/-- A launch holds tile u: it has placed a part there that has not ended, here or in a saved image, or is CONCURRENT and has
not completed. -/
def State.holdsTile (s : State) (u : Nat) : Bool :=
  s.launches.any (fun l => l.2.tiles.contains u
    && (recClass l.2.bytes == 2 || (s.tile u).launch == some l.1 || s.images.any (fun i => i.tile == u && i.st.launch == some l.1)))

/-- The bits of a set of tiles. -/
def tileBits (ok : Nat → Bool) : Nat := ((List.range 512).filter ok).foldl (fun m t => m ||| 2 ^ t) 0

/-- The row's logical columns whose physical column changes when one more is retired. -/
def movedCols (gone gone' : List Nat) : List Nat := (List.range 16).filter (fun c => physCol gone c != physCol gone' c)

/-- Logical tile u starts on another physical column: its scratchpad reads 0, its monitor enters, and no state comes with
the number (R379). -/
def State.freshTile (s : State) (u : Nat) (p : Presence) : State :=
  let x := s.tile u
  let s := s.setTile u { Tile.initial u with presence := p, ctx := x.ctx, born := x.born }
  let s := ([0, 1, 2, 3] : List Nat).foldl (fun s j => s.setHart (4 * u + j) (Hart.initial (4 * u + j))) s
  let s := { s with chans := put s.chans u (Vector.replicate 4 {}), tlb := s.tlb.filter (fun e => e.unit != u) }
  s.monitorStart u

/-- The presence of a logical tile on its new column: it stays away in a switch, and frozen in a crash (R332, R383). -/
def State.presenceAfter (s : State) (u : Nat) : Presence :=
  match (s.tile u).presence with
  | .retired => if s.crashed then .crashed else .present
  | p => p

/-- The remap of the row of a retired tile: columns, maps, EPOCH last, and the event (R381). -/
def State.remap (s : State) (t : Nat) : State :=
  let row := t / 16
  let gone := look [] s.retired row
  match physCol gone (t % 16) with
  | none => s
  | some f =>
    let gone' := gone ++ [f]
    let moved := movedCols gone gone'
    let broken := (s.pendingRet.filter (fun u => u / 16 == row && u != t)).filterMap (fun u => physCol gone (u % 16))
    let worn := (List.range 16).filter (fun c => match physCol gone' c with | some p => broken.contains p | none => false)
    let s := moved.foldl (fun s c =>
      match physCol gone' c with
      | some p => s.freshTile (16 * row + c) (if broken.contains p then .retired else s.presenceAfter (16 * row + c))
      | none => s.mapTile (16 * row + c) (fun x => { x with presence := .retired })) s
    let pend := s.pendingRet.filter (fun u => u / 16 != row) ++ worn.map (16 * row + ·)
    let s := { s with retired := put s.retired row gone', pendingRet := pend }
    let at' := fun (u : Nat) => physCol (look [] s.retired (u / 16)) (u % 16)
    let lost := tileBits (fun u => (at' u).isNone)
    let f := 0x08F700000000
    let s := s.ioWrite (f + 0x40) 64 lost
    let s := s.ioWrite (f + 0x80) 64 (tileBits (fun u => match at' u with | some p => decide (u % 16 < p) | none => false))
    let s := s.ioWrite (f + 0xC0) 64 (tileBits (pend.contains ·))
    let s := s.ioWrite (f + 8) 8 ((List.range 512).filter (fun u => (at' u).isNone)).length
    let s := s.ioWrite f 8 (s.ioRead f 8 + 1)
    s.mgmtEvents [.monitor, .resident] 4 2 t 0 0

/-- TILE_REMAP of a tile whose retirement is pending: once no launch holds it or a tile whose number moves. -/
def execTileRemap (t : Nat) (s : State) : Out :=
  onPackage s fun s =>
    let gone := look [] s.retired (t / 16)
    match physCol gone (t % 16) with
    | none => .next s
    | some f =>
      let ts := t :: (movedCols gone (gone ++ [f])).map (16 * (t / 16) + ·)
      if s.pendingRet.contains t && !ts.any s.holdsTile then .next (s.remap t) else .next s

/-! ## The resident kernel (R382 to R384) -/

def rctl : Nat := 0x08F500000000
/-- RSTATE and FAILS. -/
def State.rstate (s : State) : Nat := s.ioRead (rctl + 10) 1 % 4
def State.fails (s : State) : Nat := s.ioRead (rctl + 10) 1 / 4 % 4
def State.setRstate (s : State) (r f : Nat) : State := s.ioWrite (rctl + 10) 1 (r + 4 * f)

/-- WATCHDOG_BEAT. -/
def execWatchdogBeat (s : State) : Out := onPackage s fun s => .next { s with beatAt := s.dtime }

/-- WATCHDOG_PERIOD_WRITE: the period as a store leaves it, 14 bits; the two above are not written. -/
def execWatchdogPeriodWrite (v : Word) (s : State) : Out :=
  onPackage s fun s =>
    let n := v.toNat % 2 ^ 14
    if 10 ≤ n ∧ n ≤ 10000 then .next (s.ioWrite (rctl + 8) 2 n) else .next s

/-- The RESIDENT G-cores, by core number. -/
def residentCores : List Nat :=
  ((List.range Config.mgmtCore).filter (fun c => Config.gcoreKernel c == .resident)).map (Config.strands + ·)

/-- A crash is due (R383). -/
def State.crashDue (s : State) : Bool :=
  (s.rstate == 0 && decide (s.beatAt + s.ioRead (rctl + 8) 2 * 1500000 ≤ s.dtime))
    || residentCores.any (fun h => match (s.hart h).run with | .frozen _ => true | _ => false)

/-- Every tile of a partition stops, with no save (R383). -/
def State.freezePart (s : State) (p : Nat) : State :=
  ((s.partition p).filter (fun t => (s.tile t).presence == .present)).foldl (fun s t => s.stopTile t .crashed) s

/-- Every launch ends with status 0xF0, and every registration of a context with them (R383). -/
def State.endContexts (s : State) : State :=
  let s := { s with ctxs := s.ctxs.map (fun (c : Nat × Ctx) => (c.1, { c.2 with valid := false })) }
  let s := s.launches.foldl (fun (s : State) (l : Nat × Launch) =>
    match s.launch? l.1 with
    | some x => (s.endLaunch l.1 x 0xF0).launchEnded l.1
    | none => s) s
  { s with launches := [], images := [], finals := [] }

/-- Every RESIDENT frame that is not LOCKED goes to FREE, zeroed (R312, R383). -/
def State.freeResident (s : State) : State :=
  let s := s.performElems
  s.waybill.foldl (fun s w =>
    let e := (s.wb w.1).getD 0
    if wbOwner e == Kernel.resident.code && !wbLocked e && decide (1 ≤ wbState e) && decide (wbState e < 5) then
      (s.shootDown none w.1).freeFrame w.1 e
    else s) s

/-- WATCHDOG_EXPIRY: RSTATE passes FROZEN, in which every partition stops, to REBOOT, in which the RESIDENT cores are reset. At
the third crash the contexts end and the kernel's frames go first. -/
def execWatchdogExpiry (s : State) : Out :=
  onPackage s fun s =>
    if s.crashDue = false then .next s
    else
      let f := Nat.min 3 (s.fails + 1)
      let s := (List.range 16).foldl (fun s p => s.freezePart p) (s.setRstate 1 f)
      let s := if f = 3 then s.endContexts.freeResident else s
      let s := residentCores.foldl (fun s h => s.setHart h { Hart.initial h with run := .inactive }) s
      .next (s.setRstate 2 f)

/-- A measurement register is extended with a measurement, which is a free value: new := SHA-384(old ‖ measurement) (R388). -/
def State.extendMeas (s : State) (i : Fin 16) : State :=
  let (m, s) := s.draw 384
  { s with meas := s.meas.set i (sha384 s.meas[i] m) }

/-- RESIDENT_ADOPT: the resident image has been loaded and measured into MEAS4, and runs with x10 = REGBASE on a warm start.
Its entry address is a free value. -/
def execResidentAdopt (s : State) : Out :=
  onPackage s fun s =>
    if s.rstate ≠ 2 then .next s
    else
      let f := s.fails
      let (e, s) := (s.extendMeas 4).draw 64
      let base := BitVec.ofNat 64 (s.ioRead (rctl + 16) 6)
      let s := residentCores.foldl (fun s h => s.mapHart h (fun x => { x with
        run := .running, pc := e &&& 0x0000FFFFFFFFFFF8, x := if f < 3 then x.x.set 10 base else x.x })) s
      .next (s.setRstate 3 f)

/-- RESIDENT_RESUME: a store of 1 to RESUME in state ADOPT; every frozen partition resumes in one cycle, and the finalisers that
waited are armed. -/
def execResidentResume (s : State) : Out :=
  onPackage s fun s =>
    if s.rstate ≠ 3 then .next s
    else
      let ts := (List.range 512).filter (fun t => (s.tile t).presence == .crashed)
      let fs := s.finals
      let s : State := { (ts.foldl (fun s t => s.resumeTile t) s).setRstate 0 0 with beatAt := s.dtime, finals := [] }
      .next (fs.foldl (fun s f => s.finalise f) s)

/-! ## CXL extents (R385, R386) -/

/-- The frames of an extent. -/
def extentFrames (frame n : Nat) : List Nat := (List.range n).map (frame + ·)

/-- The frame lies in the CXL window of a port (R239). -/
def inPortWindow (port f : Nat) : Bool := decide (0x10000000 + port * 0x1000000 ≤ f) && decide (f < 0x10000000 + (port + 1) * 0x1000000)

/-- The hub answers the fabric manager. -/
def State.tellFabric (s : State) (r : FabricReply) : State := { s with fabric := s.fabric ++ [r] }

/-- EXTENT_ADD: refused unless 64 KiB divides the block size and the frames lie in the port's CXL window. -/
def execExtentAdd (port : Nat) (frame : Nat) (n : Nat) (block : Nat) (shared : Bool) (s : State) : Out :=
  onPackage s fun s =>
    let fs := extentFrames frame n
    if 4 ≤ port ∨ block % 0x10000 ≠ 0 ∨ block = 0 ∨ fs.isEmpty = true ∨ fs.all (inPortWindow port) = false then
      .next (s.tellFabric (.refused frame))
    else
      let s := fs.foldl (fun s f => { s with extents := put s.extents f shared }.setWb f 0) s
      .next ((s.tellFabric (.added frame)).mgmtEvent .monitor 9 1 0 (frame * 0x10000) 0)

/-- The bytes of frames whose entries go stand as they were written, under the keys they have (R317). -/
def State.sealFrames (s : State) (fs : List Nat) : State := fs.foldl (fun u f => u.sealFrame f (s.frameKey f)) s

/-- EXTENT_RELEASE: the steps of R386 in order. -/
def execExtentRelease (frame : Nat) (n : Nat) (s : State) : Out :=
  onPackage s fun s =>
    let fs := (extentFrames frame n).filter (fun f => s.extents.any (·.1 == f))
    if fs.isEmpty then .next s
    else
      let s := s.performElems
      let ks := .monitor :: fs.flatMap (fun f => (Kernel.ofCode? (wbOwner (look 0 s.waybill f))).toList)
      let s := s.mgmtEvents ks 9 2 0 (frame * 0x10000) 0
      let s := (fs.foldl (fun s f => s.shootDown none f) s).sealFrames fs
      let s := { s with
        extents := s.extents.filter (fun e => !fs.contains e.1)
        waybill := s.waybill.filter (fun e => !fs.contains e.1)
        foreign := s.foreign.filter (fun c => !fs.contains (c.1 / 0x10000)) }
      .next ((s.tellFabric (.released frame)).mgmtEvents ks 9 3 0 (frame * 0x10000) 0)

/-! ## Sensors (R391, R392) -/

/-- The reading passes a threshold: those that end a condition are no threshold of the table. -/
def sensorPosts : SensorEvent → Bool
  | .tempWarn | .tempCritical | .tempTrip | .volt5 | .volt8 => true
  | _ => false

/-- The sensors of a die (R391): 16 temperature sensors, 8 voltage monitors and 8 process monitors on a compute die, 4
temperature sensors on the hub die, which is die 4. A reading's number is 32 × die and its place in that order. -/
def sensorNumber (die idx : Nat) (e : SensorEvent) : Option Nat :=
  let voltage := e = .volt5 ∨ e = .volt5Clear ∨ e = .volt8
  if die < 4 then
    if voltage then (if idx < 8 then some (32 * die + 16 + idx) else none)
    else if idx < 16 then some (32 * die + idx) else none
  else if die = 4 ∧ ¬ voltage ∧ idx < 4 then some (128 + idx) else none

/-- A sensor among those for which a condition holds, and one no longer. -/
def withSensor (n : Nat) (l : List Nat) : List Nat := if l.contains n then l else n :: l
def withoutSensor (n : Nat) (l : List Nat) : List Nat := l.filter (· != n)

/-- What the package does about a reading of sensor n of a die: each condition lasts while some sensor's reading keeps it up. -/
def State.heed (s : State) (die n : Nat) (e : SensorEvent) : State :=
  let c := look {} s.clocks die
  let setC := fun (c : DieClock) => { s with clocks := put s.clocks die c }
  match e with
  | .tempWarn => setC { c with warm := withSensor n c.warm }
  | .tempWarnClear => setC { c with warm := withoutSensor n c.warm }
  | .tempCritical => setC { c with half := withSensor n c.half }
  | .tempCriticalClear => setC { c with half := withoutSensor n c.half }
  | .volt5 => setC { c with volt := withSensor n c.volt }
  | .volt5Clear => setC { c with volt := withoutSensor n c.volt }
  | .tempTrip => { s with power := .off, trips := withSensor n s.trips }
  | .tripCool => { s with trips := withoutSensor n s.trips }
  | .volt8 => ({ s with power := .off }).ioWrite 0x08F400000000 1 0x07

/-- The package has the sensor of a number: a compute die's temperature sensors, voltage monitors and process monitors, or one of the
hub die's temperature sensors (R391). -/
def isSensor (n : Nat) : Bool := decide (n < 132)

/-- A sensor takes a reading, a free value: a temperature, a voltage, or a process monitor's count over 1 ms (R391). -/
def State.sense (s : State) (n : Nat) : State :=
  if isSensor n then
    let (v, s) := s.draw 64
    { s with sensors := put s.sensors n v }
  else s

/-- SENSOR_THRESHOLD: the sensor's reading, a free value, is kept; a SENSOR event tells it, and the package acts. A package that
has tripped still cools. -/
def execSensorThreshold (die : Nat) (idx : Nat) (e : SensorEvent) (s : State) : Out :=
  match sensorNumber die idx e with
  | none => onLit s fun s => .next s
  | some n =>
    if s.power = .off then (if e = .tripCool then .next (s.heed die n e) else .fault .poweredOff)
    else
      let (v, s) := s.draw 64
      let s : State := { s with sensors := put s.sensors n v }
      .next ((if sensorPosts e then s.mgmtEvent .monitor 8 0 idx 0 v.toNat else s).heed die n e)

/-- THERMAL_CLOCK_STEP: a warm die's clock steps down by a sixteenth, and never to a stop. -/
def execThermalClockStep (die : Nat) (s : State) : Out :=
  onLit s fun s =>
    let c := look {} s.clocks die
    if !c.warm.isEmpty then .next { s with clocks := put s.clocks die { c with steps := Nat.min 15 (c.steps + 1) } } else .next s

/-! ## Links (R393) -/

/-- HEARTBEAT_SEND: every 100 µs on a link that is up. -/
def execHeartbeatSend (link : Nat) (s : State) : Out :=
  onPackage s fun s =>
    let x := s.link link
    if 16 ≤ link ∨ x.up = false ∨ s.dtime < x.sent + 150000 then .next s
    else .next { s.setLink link { x with sent := s.dtime } with linkOut := s.linkOut ++ [.heartbeat link] }

/-- HEARTBEAT_ARRIVAL. -/
def execHeartbeatArrival (link : Nat) (s : State) : Out :=
  onPackage s fun s => if 16 ≤ link then .next s else .next (s.setLink link { s.link link with heard := s.dtime })

/-- LINKDOWN: a link that is up has heard nothing for 50 ms. -/
def execLinkdown (link : Nat) (s : State) : Out :=
  onPackage s fun s =>
    let x := s.link link
    if 16 ≤ link ∨ x.up = false ∨ s.dtime < x.heard + 75000000 then .next s else .next (s.linkDown link)

/-- The resident kernel floods a freeze flit over the links that are up, with the job tag of its partition p (R393; log 75). -/
def State.floodFreeze (s : State) (p : Nat) : State :=
  let ls := (List.range 16).filter (fun l => (s.link l).up)
  { s with linkOut := s.linkOut ++ ls.map (fun l => .freeze l (Config.jobTag p (s.current p))) }

/-- FREEZE_FLIT_ARRIVAL: the partitions whose job tag it names stop as in a crash, and FREEZE is posted. -/
def execFreezeFlitArrival (tag : Nat) (s : State) : Out :=
  onPackage s fun s =>
    let ps := (List.range 16).filter (fun p => Config.jobTag p (s.current p) == tag)
    .next ((ps.foldl (fun s p => s.freezePart p) s).mgmtEvent .resident 10 0 0 0 0)

end Sys2Proof.Machine
end

