-- ==== Sys2Proof/Machine/Boot.lean ====
section
/-! DEFINITION. Resets, failed starts and safelight mode (R388, R390), and the sideband port (R389). -/

namespace Sys2Proof.Machine

/-! ## Resets (log 30) -/

/-- The tiles of the package after a reset: those whose number is lost, or whose retirement is pending, stay retired. -/
def State.tilesAfter (s : State) : Table Tile :=
  ((List.range 512).filter (fun t => s.lost t || s.pendingRet.contains t)).map
    (fun t => (t, ({ Tile.initial t with presence := .retired } : Tile)))

/-- The keys under which device memory stands after a reset (R316, R317): after a warm one those of every frame, in the CXL windows
for the extents' frames, and for HBM where no entry is listed the key that slot 0 held. -/
def State.sealsAfter (s : State) (warm : Bool) : List Seal :=
  let frame := fun (f : Nat) => (⟨1024 * f, 1024 * f + 1024, s.frameKey f⟩ : Seal)
  (if warm then s.sealed ++ (s.extents.map (fun e => frame e.1)) ++ (s.waybill.map (fun e => frame e.1)) else [])
    ++ [⟨0, 0xC000000000 / 64, some ⟨s.keyFill, 0, look 0 s.keyGen 0⟩⟩]

/-- The package after a reset: State.reset, with DTIME 0 (R376), but for what the package's parts have lost for good, the
account of starts (R390), and what the outside has seen. A reset fills every key slot anew (R316): device memory stands as it was
written, after a warm reset with its bytes (log 3). -/
def State.afterReset (s : State) (warm : Bool) : State :=
  let f := 0x08F700000000
  let r : State := { State.reset with
    tiles := s.tilesAfter
    mem := if warm then s.mem else []
    keyFill := s.keyFill + 1, sealed := s.sealsAfter warm
    bad := if warm then s.bad else []
    spares := s.spares, repairs := s.repairs, worn := s.worn, retired := s.retired, pendingRet := s.pendingRet
    links := s.links.map (fun l => (l.1, ({ lanes := l.2.lanes } : Link)))
    linkOut := s.linkOut, replies := s.replies, fabric := s.fabric, trips := s.trips, free := s.free
    power := if s.power = .safelight then .safelight else .on }
  let r := r.ioWrite 0x08F400000000 2 (s.ioRead 0x08F400000000 2 % 2 ^ 11)
  (r.ioWrite (f + 8) 8 (s.ioRead (f + 8) 8)).ioWrite (f + 0x40) 192 (s.ioRead (f + 0x40) 192)

/-! ## Starts (R390) -/

/-- STARTS of the management frame. -/
def State.starts (s : State) : Nat := s.ioRead 0x08F400000001 1 % 4
/-- SAFE of the management frame. -/
def State.safe (s : State) : Bool := s.ioRead 0x08F400000001 1 / 4 % 2 == 1
/-- REASON, STARTS and SAFE, with BOOTOK clear. -/
def State.setSlreason (s : State) (reason starts : Nat) (safe : Bool) : State :=
  (s.ioWrite 0x08F400000000 1 reason).ioWrite 0x08F400000001 1 (starts + if safe then 4 else 0)

/-- A start fails; after the third in a row the package is in safelight mode. -/
def State.failStart (s : State) (reason : Nat) : State :=
  let n := Nat.min 3 (s.starts + 1)
  if n = 3 then { s.setSlreason reason 3 true with power := .safelight } else s.setSlreason reason n false

/-- COLD_RESET: it leaves safelight mode; during boot it is a failed start, and after a trip the start fails while the
package is hot (R392). -/
def execColdReset (s : State) : Out :=
  let r := s.afterReset false
  let lit : State := if s.safe then { r.setSlreason (s.ioRead 0x08F400000000 1) 0 false with power := .on } else r
  match s.power with
  | .safelight => .next lit
  | .off => .next (if s.trips.isEmpty then lit else { lit with power := .off }.failStart 0x06)
  | .on => if s.bootok then .next r else .next (r.failStart 0x09)

/-- WARM_RESET. -/
def execWarmReset (s : State) : Out := onLit s fun s => .next (s.afterReset true)

/-- BOOT_TIMEOUT: 120 s of a start without BOOTOK. The next start begins. -/
def execBootTimeout (s : State) : Out :=
  onPackage s fun s =>
    if s.bootok ∨ s.dtime < 180000000000 then .next s else .next ((s.afterReset false).failStart 0x05)

/-- A start fails before BOOTOK with a reason of its own (R390): a signature that does not verify (R388), a version rollback,
HBM training, a die bridge, or a fuse mismatch. The next start begins. -/
def execStartFails (reason : Nat) (s : State) : Out :=
  onPackage s fun s =>
    if s.bootok ∨ (reason = 0 ∨ (4 < reason ∧ reason ≠ 8)) then .next s else .next ((s.afterReset false).failStart reason)

/-- What is loaded is measured into its register (R388): 0 to 6 during boot, the resident kernel's first load among them, 8 to 15 on a
kernel's request. A warm reboot of the resident kernel (RESIDENT_ADOPT) and a recovery image have their own steps. -/
def execMeasure (i : Fin 16) (s : State) : Out :=
  onPackage s fun s => if i = 7 then .next s else .next (s.extendMeas i)

/-- In safelight mode a recovery image read below PCIe port 0 verifies, and is measured into MEAS7 (R390). -/
def execRecovery (s : State) : Out :=
  onLit s fun s => if s.power = .safelight then .next (s.extendMeas 7) else .next s

/-- BOOTOK_WRITE: BOOTOK is set, and STARTS is 0. -/
def execBootokWrite (s : State) : Out :=
  onLit s fun s => .next (s.ioWrite 0x08F400000001 1 (s.ioRead 0x08F400000001 1 / 4 % 2 * 4 + 8))

/-! ## The sideband port (R389) -/

/-- The port answers. -/
def State.reply (s : State) (r : Reply) : State := { s with replies := s.replies ++ [r] }

/-- MCTP_CONTROL: an MCTP control message is answered. -/
def execMctpControl (data : List Byte) (s : State) : Out := onLit s fun s => .next (s.reply (.control data))

/-- SIDEBAND_OTHER_MESSAGE: a message type that the port does not accept gets an MCTP error completion. A number from 256 on
stands for an SPDM request code that the responder does not implement. -/
def execSidebandOtherMessage (ty : Nat) (s : State) : Out :=
  onLit s fun s => .next (s.reply (if ty < 256 then .error else .unsupported))

/-- A reset message: byte 0 is 1 for a warm reset and 2 for a cold one; any other is answered with an error. -/
def execResetMessage (b : Byte) (s : State) : Out :=
  if b = 1 then execWarmReset s
  else if b = 2 then execColdReset s
  else onLit s fun s => .next (s.reply .error)

/-- GET_VERSION at any time restarts the sequence; the responder implements version 1.3 only. -/
def execGetVersion (s : State) : Out := onLit s fun s => .next ({ s with spdm := 1 }.reply (.version 0x13))

/-- GET_CAPABILITIES comes second. -/
def execGetCapabilities (s : State) : Out :=
  onLit s fun s => if s.spdm = 1 then .next ({ s with spdm := 2 }.reply .capabilities) else .next (s.reply .unexpected)

/-- NEGOTIATE_ALGORITHMS comes third. -/
def execNegotiateAlgorithms (s : State) : Out :=
  onLit s fun s => if s.spdm = 2 then .next ({ s with spdm := 3 }.reply (.algorithms .ecdsaP384 .sha384 .sha384)) else .next (s.reply .unexpected)

/-- A request of any order after the first three. -/
def State.answer (s : State) (r : Reply) : State := if s.spdm = 3 then s.reply r else s.reply .unexpected

/-- GET_DIGESTS. -/
def execGetDigests (s : State) : Out := onLit s fun s => .next (s.answer (.digests 0 .sha384))
/-- GET_CERTIFICATE. -/
def execGetCertificate (s : State) : Out := onLit s fun s => .next (s.answer (.certificate 0))
/-- CHALLENGE. -/
def execChallenge (s : State) : Out := onLit s fun s => .next (s.answer (.challengeAuth 0 .ecdsaP384))

/-- The measurements of an index: 1 to 16 one register, 0xFF all sixteen. -/
def State.measurements (s : State) (n : Nat) : Option (List (BitVec 384)) :=
  if n = 0xFF then some s.meas.toList else if n = 0 then none else (s.meas[n - 1]?).map (fun m => [m])

/-- GET_MEASUREMENTS of an index. The manual gives no answer for another index: the port answers with no block. -/
def execGetMeasurements (n : Nat) (s : State) : Out :=
  onLit s fun s => .next (s.answer (.measurements .sha384 ((s.measurements n).getD [])))

end Sys2Proof.Machine
end

