-- ==== Sys2Proof/Machine/Hazards.lean ====
section
/-! DEFINITION. What a word reads and writes, for the interlocks of R60 and R63 and the pairing check of R29; and where a
word may run (R48, R53). -/

namespace Sys2Proof.Machine

/-- A register that a word names. -/
inductive RegName where
  | x (n : XReg)
  | v (n : VReg)
  | k (n : KReg)
  deriving DecidableEq, Repr

/-- The argument registers of GDISP (R288). -/
def dispatchArgs : List RegName := (List.range 8).map (fun j => .x (Fin.ofNat 32 (10 + j)))

/-- The registers a word reads; a port is among them as its vector number. -/
def reads : Instr → List RegName
  | .add _ a b | .sub _ a b | .and _ a b | .or _ a b | .xor _ a b | .andn _ a b | .sll _ a b | .srl _ a b
  | .sra _ a b | .rol _ a b | .slt _ a b | .sltu _ a b | .min _ a b | .max _ a b | .minu _ a b | .maxu _ a b
  | .mul _ a b | .mulh _ a b | .mulhu _ a b | .div _ a b | .divu _ a b | .rem _ a b | .remu _ a b
  | .lea _ a b _ | .faddS _ a b | .fsubS _ a b | .fmulS _ a b | .fminS _ a b | .fmaxS _ a b | .feqS _ a b
  | .fltS _ a b | .fleS _ a b | .beq a b _ | .bne a b _ | .blt a b _ | .bge a b _ | .bltu a b _ | .bgeu a b _
  | .scall _ a b | .stl a b _ _ _ | .amoadd _ a b _ _ _ | .amoand _ a b _ _ _ | .amoor _ a b _ _ _
  | .amoxor _ a b _ _ _ | .amomin _ a b _ _ _ | .amomax _ a b _ _ _ | .amominu _ a b _ _ _
  | .amomaxu _ a b _ _ _ | .amoswap _ a b _ _ _ | .putq _ a b _ | .sigw _ a b _ | .sigs a b _ | .hnew _ a b
  | .hbind _ a b | .foffer _ a b | .faccept _ a b | .flend _ a b | .frecall _ a b | .tlbi _ a b _ | .flush a b
  | .inval a b => [.x a, .x b]
  | .clz _ a | .ctz _ a | .popc _ a | .bfx _ a _ _ | .fcvtSW _ a | .fcvtWS _ a | .fcvtSBf _ a | .fcvtBfS _ a
  | .addi _ a _ | .andi _ a _ | .ori _ a _ | .xori _ a _ | .slli _ a _ | .srli _ a _ | .srai _ a _
  | .slti _ a _ | .jalr _ a _ | .loop a _ | .trap a | .wfe a | .mtc a _ | .lb _ a _ | .lbu _ a _ | .lh _ a _
  | .lhu _ a _ | .lw _ a _ | .lwu _ a _ | .ld _ a _ | .vld _ a _ | .lda _ a _ _ _ | .qcfg _ a | .qput _ a
  | .cpyset _ a _ | .cpygo _ a _ | .cpywait _ a | .barw a _ | .couple a | .inbx _ a _ | .jnext _ a | .larm _ a
  | .gjoin _ a _ | .hquery _ a | .frelease _ a | .fquery _ a | .kset _ a | .mdrains _ a _ _ _ _ | .mcbk _ a
  | .mrset _ a | .mradv _ a => [.x a]
  | .sel d a b | .fmaS d a b | .amocas d a b _ _ _ => [.x d, .x a, .x b]
  | .bfi d a _ _ => [.x d, .x a]
  | .lui _ _ | .jal _ _ | .beos _ _ | .eret | .yield | .halt | .brk | .mfc _ _ | .fence _ _ | .qget _ _
  | .qclose _ | .qstat _ _ _ | .cpysetClrerr _ | .cpystat _ _ _ | .bar _ _ | .phase _ _ | .uncouple | .mzero _
  | .mdrain _ _ _ _ _ _ | .mchainSend _ _ _ | .mchainRecv _ _ _ _ | .mchainRelay _ _ _ _ | .mrstat _ _ | .mwait
  | .mseq _ | .macc _ _ _ => []
  | .luih d _ => [.x d]
  | .sb s a _ | .sh s a _ | .sw s a _ | .sd s a _ => [.x s, .x a]
  | .vst v a _ => [.v v, .x a]
  | .vlds _ a b k _ => [.x a, .x b, .k k]
  | .vsts v a b k _ => [.v v, .x a, .x b, .k k]
  | .vgth _ a i k _ => [.x a, .v i, .k k]
  | .vsct v a i k _ => [.v v, .x a, .v i, .k k]
  | .gdisp _ a => .x a :: dispatchArgs
  | .hcopy _ s | .hdrop s | .mma _ _ _ _ _ _ _ s | .mmasN6 _ _ _ _ _ _ _ s | .mmasN8 _ _ _ _ _ _ _ s
  | .mmasN12 _ _ _ _ _ _ _ s => [.x s]
  | .vadd _ a b k _ _ | .vsub _ a b k _ _ | .vmul _ a b k _ _ | .vmulh _ a b k _ _ | .vmin _ a b k _ _
  | .vmax _ a b k _ _ | .vminu _ a b k _ _ | .vmaxu _ a b k _ _ | .vand _ a b k _ _ | .vor _ a b k _ _
  | .vxor _ a b k _ _ | .vandn _ a b k _ _ | .vsll _ a b k _ _ | .vsrl _ a b k _ _ | .vsra _ a b k _ _
  | .vrol _ a b k _ _ | .vsadd _ a b k _ _ | .vssub _ a b k _ _ | .vavg _ a b k _ _ | .vfadd _ a b k _ _
  | .vfsub _ a b k _ _ | .vfmul _ a b k _ _ | .vfabd _ a b k _ _ | .vfmin _ a b k _ _ | .vfmax _ a b k _ _
  | .vfdiv _ a b k _ | .vcmpEq _ a b k _ _ | .vcmpNe _ a b k _ _ | .vcmpLt _ a b k _ _ | .vcmpLe _ a b k _ _
  | .vfcmpEq _ a b k _ _ | .vfcmpNe _ a b k _ _ | .vfcmpLt _ a b k _ _ | .vfcmpLe _ a b k _ _
  | .vperm _ a b k _ _ | .vzip _ a b k _ _ | .vunzip _ a b k _ _ | .vlut _ a b k _ _ => [.v a, .v b, .k k]
  | .vabs _ a k _ _ | .vfneg _ a k _ _ | .vfabs _ a k _ _ | .vfsqrt _ a k _ | .vfrcp _ a k _ | .vfrsq _ a k _
  | .vfexp2 _ a k _ | .vflog2 _ a k _ | .vftanh _ a k _ | .vfsigm _ a k _ | .vmov _ a k _ _ | .vrsum _ a k _ _
  | .vrmax _ a k _ _ | .vrfmax _ a k _ _ | .vrmin _ a k _ _ | .vrfmin _ a k _ _ | .vrfsum _ a k _ _
  | .vpack _ a _ k _ _ | .vunpk _ a _ k _ _ => [.v a, .k k]
  | .vfma d a b k _ _ | .vfms d a b k _ _ | .vfnma d a b k _ _ | .vfnms d a b k _ _ | .vsel d a b k _ _ => [.v d, .v a, .v b, .k k]
  | .kand _ a b | .kor _ a b | .kxor _ a b | .kandn _ a b => [.k a, .k b]
  | .knot _ a | .kpop _ a | .kfirst _ a => [.k a]
  | .vbcast _ b k _ => [.x b, .k k]
  | .vins d a b _ => [.v d, .x a, .x b]
  | .vext _ a b _ _ => [.v a, .x b]
  | .vslide d a b k _ _ => [.v d, .v a, .x b, .k k]
  | .vrot _ a b k _ _ | .vscale _ a b k _ _ => [.v a, .x b, .k k]
  | .vcvt _ a _ _ _ _ k => [.v a, .k (k.castLE (by decide))]
  | .vmovi _ _ k _ => [.k k]
  | .wfeDeadline .. | .haltRetire .. | .modeWrite .. | .arbWrite .. | .vshareWrite .. | .mownerWrite ..
  | .fflagsWrite .. | .mstatWrite .. | .loopcWrite .. | .jnextCovered .. | .resultLand ..
  | .variableResultLand .. | .shadowReland .. | .vectorPartBind .. | .seqCommandStart .. | .mmaRetire ..
  | .mzeroRetire .. | .maccRetire .. | .mdrainRetire .. | .mdrainsRetire .. | .chainSendDone ..
  | .chainMessageArrival .. | .chainReceiveRetire .. | .ringstarved .. | .streamFetch .. | .streamWrite ..
  | .ringTileAdvance .. | .streamCloseDone .. | .copyTransferStart .. | .copyTransferComplete ..
  | .putqDelivery .. | .chipLinkArrival .. | .enginePageFault .. | .engineReplay .. | .translationFill ..
  | .barrierCompletion .. | .consistForm .. | .consistResume .. | .trapEntry .. | .faultRecordWrite ..
  | .kickInterrupt .. | .kickRestart .. | .breakpointTableLoad .. | .engineFreeze .. | .engineFrozen ..
  | .engineUnfreeze .. | .switchArm .. | .switchStop .. | .switchSave .. | .switchRestore .. | .notifyWrite ..
  | .yardAdmit .. | .yardPriorityAge .. | .yardIdleRelease .. | .packetTake .. | .signalBoxEvent
  | .launchPlace .. | .monitorEntry .. | .eretStart .. | .launchCompletion .. | .endRequest ..
  | .launchEndDone .. | .queueRegister .. | .queueRemove .. | .contextRegister .. | .contextUnregister ..
  | .partitionWrite .. | .handlePost | .recallDeadline .. | .recallDrainDone .. | .rootWrite ..
  | .eventFrameWrite .. | .keyRegenerate .. | .pkgnumWrite .. | .hubRegisterWrite .. | .dmaWrite ..
  | .dmaRead .. | .correctedError .. | .linkRetrainDone .. | .uncorrectableError .. | .tileRemap ..
  | .patrolScrub .. | .watchdogBeat .. | .watchdogPeriodWrite .. | .watchdogExpiry .. | .residentAdopt ..
  | .residentResume .. | .extentAdd .. | .extentRelease .. | .coldReset .. | .warmReset .. | .bootTimeout ..
  | .bootokWrite .. | .mctpControl .. | .sidebandOtherMessage .. | .getVersion .. | .getCapabilities ..
  | .negotiateAlgorithms .. | .getDigests .. | .getCertificate .. | .challenge .. | .getMeasurements ..
  | .sensorThreshold .. | .thermalClockStep .. | .heartbeatSend .. | .linkdown .. | .freezeFlitArrival ..
  | .heartbeatArrival .. | .rowSpareDone .. | .hbmRepairDone .. | .handlePostLost => []

/-- The registers a word writes; a port it pushes is among them (R29). -/
def writes : Instr → List RegName
  | .add d _ _ | .sub d _ _ | .and d _ _ | .or d _ _ | .xor d _ _ | .andn d _ _ | .sll d _ _ | .srl d _ _
  | .sra d _ _ | .rol d _ _ | .slt d _ _ | .sltu d _ _ | .min d _ _ | .max d _ _ | .minu d _ _ | .maxu d _ _
  | .clz d _ | .ctz d _ | .popc d _ | .sel d _ _ | .mul d _ _ | .mulh d _ _ | .mulhu d _ _ | .div d _ _
  | .divu d _ _ | .rem d _ _ | .remu d _ _ | .lea d _ _ _ | .bfx d _ _ _ | .bfi d _ _ _ | .faddS d _ _
  | .fsubS d _ _ | .fmulS d _ _ | .fminS d _ _ | .fmaxS d _ _ | .fcvtSW d _ | .fcvtWS d _ | .feqS d _ _
  | .fltS d _ _ | .fleS d _ _ | .fmaS d _ _ | .fcvtSBf d _ | .fcvtBfS d _ | .addi d _ _ | .andi d _ _
  | .ori d _ _ | .xori d _ _ | .slli d _ _ | .srli d _ _ | .srai d _ _ | .slti d _ _ | .lui d _ | .luih d _
  | .jal d _ | .jalr d _ _ | .scall d _ _ | .mfc d _ | .lb d _ _ | .lbu d _ _ | .lh d _ _ | .lhu d _ _
  | .lw d _ _ | .lwu d _ _ | .ld d _ _ | .lda d _ _ _ _ | .amoadd d _ _ _ _ _ | .amoand d _ _ _ _ _
  | .amoor d _ _ _ _ _ | .amoxor d _ _ _ _ _ | .amomin d _ _ _ _ _ | .amomax d _ _ _ _ _ | .amominu d _ _ _ _ _
  | .amomaxu d _ _ _ _ _ | .amoswap d _ _ _ _ _ | .amocas d _ _ _ _ _ | .putq d _ _ _ | .qget d _
  | .qstat d _ _ | .cpygo d _ _ | .cpystat d _ _ | .bar d _ | .phase d _ | .inbx d _ _ | .larm d _ | .gdisp d _
  | .gjoin d _ _ | .sigw d _ _ _ | .hnew d _ _ | .hbind d _ _ | .hquery d _ | .foffer d _ _ | .faccept d _ _
  | .flend d _ _ | .frecall d _ _ | .frelease d _ | .kpop d _ | .kfirst d _ | .vext d _ _ _ _ | .mrstat _ d
  | .mseq d => [.x d]
  | .beq _ _ _ | .bne _ _ _ | .blt _ _ _ | .bge _ _ _ | .bltu _ _ _ | .bgeu _ _ _ | .loop _ _ | .beos _ _
  | .trap _ | .eret | .wfe _ | .yield | .halt | .brk | .mtc _ _ | .sb _ _ _ | .sh _ _ _ | .sw _ _ _ | .sd _ _ _
  | .vst _ _ _ | .vsts _ _ _ _ _ | .vsct _ _ _ _ _ | .stl _ _ _ _ _ | .fence _ _ | .qcfg _ _ | .qclose _
  | .cpyset _ _ _ | .cpysetClrerr _ | .cpywait _ _ | .barw _ _ | .couple _ | .uncouple | .sigs _ _ _
  | .tlbi _ _ _ _ | .flush _ _ | .inval _ _ | .mma _ _ _ _ _ _ _ _ | .mmasN6 _ _ _ _ _ _ _ _
  | .mmasN8 _ _ _ _ _ _ _ _ | .mmasN12 _ _ _ _ _ _ _ _ | .mzero _ | .mdrains _ _ _ _ _ _ | .mchainSend _ _ _
  | .mchainRecv _ _ _ _ | .mchainRelay _ _ _ _ | .mcbk _ _ | .mrset _ _ | .mradv _ _ | .mwait | .macc _ _ _ => []
  | .vld v _ _ | .vlds v _ _ _ _ | .vgth v _ _ _ _ | .mdrain _ v _ _ _ _ => [.v v]
  | .qput p _ => [.v (Fin.ofNat 32 (24 + p.val))]
  | .jnext d _ | .fquery d _ => [.x d, .x (d + 1)]
  | .hcopy d s => [.x d, .x s]
  | .hdrop s => [.x s]
  | .vadd d _ _ _ _ _ | .vsub d _ _ _ _ _ | .vmul d _ _ _ _ _ | .vmulh d _ _ _ _ _ | .vmin d _ _ _ _ _
  | .vmax d _ _ _ _ _ | .vminu d _ _ _ _ _ | .vmaxu d _ _ _ _ _ | .vand d _ _ _ _ _ | .vor d _ _ _ _ _
  | .vxor d _ _ _ _ _ | .vandn d _ _ _ _ _ | .vsll d _ _ _ _ _ | .vsrl d _ _ _ _ _ | .vsra d _ _ _ _ _
  | .vrol d _ _ _ _ _ | .vsadd d _ _ _ _ _ | .vssub d _ _ _ _ _ | .vavg d _ _ _ _ _ | .vabs d _ _ _ _
  | .vfadd d _ _ _ _ _ | .vfsub d _ _ _ _ _ | .vfmul d _ _ _ _ _ | .vfabd d _ _ _ _ _ | .vfma d _ _ _ _ _
  | .vfms d _ _ _ _ _ | .vfnma d _ _ _ _ _ | .vfnms d _ _ _ _ _ | .vfmin d _ _ _ _ _ | .vfmax d _ _ _ _ _
  | .vfneg d _ _ _ _ | .vfabs d _ _ _ _ | .vfdiv d _ _ _ _ | .vfsqrt d _ _ _ | .vfrcp d _ _ _ | .vfrsq d _ _ _
  | .vfexp2 d _ _ _ | .vflog2 d _ _ _ | .vftanh d _ _ _ | .vfsigm d _ _ _ | .vsel d _ _ _ _ _ | .vmov d _ _ _ _
  | .vbcast d _ _ _ | .vins d _ _ _ | .vslide d _ _ _ _ _ | .vperm d _ _ _ _ _ | .vrot d _ _ _ _ _
  | .vzip d _ _ _ _ _ | .vunzip d _ _ _ _ _ | .vrsum d _ _ _ _ | .vrmax d _ _ _ _ | .vrfmax d _ _ _ _
  | .vrmin d _ _ _ _ | .vrfmin d _ _ _ _ | .vrfsum d _ _ _ _ | .vcvt d _ _ _ _ _ _ | .vpack d _ _ _ _ _
  | .vunpk d _ _ _ _ _ | .vlut d _ _ _ _ _ | .vscale d _ _ _ _ _ | .vmovi d _ _ _ => [.v d]
  | .vcmpEq d _ _ _ _ _ | .vcmpNe d _ _ _ _ _ | .vcmpLt d _ _ _ _ _ | .vcmpLe d _ _ _ _ _
  | .vfcmpEq d _ _ _ _ _ | .vfcmpNe d _ _ _ _ _ | .vfcmpLt d _ _ _ _ _ | .vfcmpLe d _ _ _ _ _ | .kand d _ _
  | .kor d _ _ | .kxor d _ _ | .kandn d _ _ | .knot d _ | .kset d _ => [.k d]
  | .wfeDeadline .. | .haltRetire .. | .modeWrite .. | .arbWrite .. | .vshareWrite .. | .mownerWrite ..
  | .fflagsWrite .. | .mstatWrite .. | .loopcWrite .. | .jnextCovered .. | .resultLand ..
  | .variableResultLand .. | .shadowReland .. | .vectorPartBind .. | .seqCommandStart .. | .mmaRetire ..
  | .mzeroRetire .. | .maccRetire .. | .mdrainRetire .. | .mdrainsRetire .. | .chainSendDone ..
  | .chainMessageArrival .. | .chainReceiveRetire .. | .ringstarved .. | .streamFetch .. | .streamWrite ..
  | .ringTileAdvance .. | .streamCloseDone .. | .copyTransferStart .. | .copyTransferComplete ..
  | .putqDelivery .. | .chipLinkArrival .. | .enginePageFault .. | .engineReplay .. | .translationFill ..
  | .barrierCompletion .. | .consistForm .. | .consistResume .. | .trapEntry .. | .faultRecordWrite ..
  | .kickInterrupt .. | .kickRestart .. | .breakpointTableLoad .. | .engineFreeze .. | .engineFrozen ..
  | .engineUnfreeze .. | .switchArm .. | .switchStop .. | .switchSave .. | .switchRestore .. | .notifyWrite ..
  | .yardAdmit .. | .yardPriorityAge .. | .yardIdleRelease .. | .packetTake .. | .signalBoxEvent
  | .launchPlace .. | .monitorEntry .. | .eretStart .. | .launchCompletion .. | .endRequest ..
  | .launchEndDone .. | .queueRegister .. | .queueRemove .. | .contextRegister .. | .contextUnregister ..
  | .partitionWrite .. | .handlePost | .recallDeadline .. | .recallDrainDone .. | .rootWrite ..
  | .eventFrameWrite .. | .keyRegenerate .. | .pkgnumWrite .. | .hubRegisterWrite .. | .dmaWrite ..
  | .dmaRead .. | .correctedError .. | .linkRetrainDone .. | .uncorrectableError .. | .tileRemap ..
  | .patrolScrub .. | .watchdogBeat .. | .watchdogPeriodWrite .. | .watchdogExpiry .. | .residentAdopt ..
  | .residentResume .. | .extentAdd .. | .extentRelease .. | .coldReset .. | .warmReset .. | .bootTimeout ..
  | .bootokWrite .. | .mctpControl .. | .sidebandOtherMessage .. | .getVersion .. | .getCapabilities ..
  | .negotiateAlgorithms .. | .getDigests .. | .getCertificate .. | .challenge .. | .getMeasurements ..
  | .sensorThreshold .. | .thermalClockStep .. | .heartbeatSend .. | .linkdown .. | .freezeFlitArrival ..
  | .heartbeatArrival .. | .rowSpareDone .. | .hbmRepairDone .. | .handlePostLost => []

/-- The cause that a word traps at decode on a profile (g: profile G) and at a privilege (user), if any (R48, R53). -/
def unavailable (g user : Bool) : Instr → Option Cause
  | .beos .. | .vld .. | .vst .. | .vlds .. | .vsts .. | .vgth .. | .vsct .. | .qcfg .. | .qget .. | .qput ..
  | .qclose .. | .qstat .. | .bar .. | .barw .. | .phase .. | .couple .. | .uncouple .. | .inbx .. | .jnext ..
  | .larm .. | .vadd .. | .vsub .. | .vmul .. | .vmulh .. | .vmin .. | .vmax .. | .vminu .. | .vmaxu ..
  | .vand .. | .vor .. | .vxor .. | .vandn .. | .vsll .. | .vsrl .. | .vsra .. | .vrol .. | .vsadd ..
  | .vssub .. | .vavg .. | .vabs .. | .vfadd .. | .vfsub .. | .vfmul .. | .vfabd .. | .vfma .. | .vfms ..
  | .vfnma .. | .vfnms .. | .vfmin .. | .vfmax .. | .vfneg .. | .vfabs .. | .vfdiv .. | .vfsqrt .. | .vfrcp ..
  | .vfrsq .. | .vfexp2 .. | .vflog2 .. | .vftanh .. | .vfsigm .. | .vcmpEq .. | .vcmpNe .. | .vcmpLt ..
  | .vcmpLe .. | .vfcmpEq .. | .vfcmpNe .. | .vfcmpLt .. | .vfcmpLe .. | .vsel .. | .vmov .. | .kand ..
  | .kor .. | .kxor .. | .kandn .. | .knot .. | .kpop .. | .kfirst .. | .kset .. | .vbcast .. | .vins ..
  | .vext .. | .vslide .. | .vperm .. | .vrot .. | .vzip .. | .vunzip .. | .vrsum .. | .vrmax .. | .vrfmax ..
  | .vrmin .. | .vrfmin .. | .vrfsum .. | .vcvt .. | .vpack .. | .vunpk .. | .vlut .. | .vscale .. | .vmovi ..
  | .mma .. | .mmasN6 .. | .mmasN8 .. | .mmasN12 .. | .mzero .. | .mdrain .. | .mdrains .. | .mchainSend ..
  | .mchainRecv .. | .mchainRelay .. | .mcbk .. | .mrset .. | .mradv .. | .mrstat .. | .mwait .. | .mseq ..
  | .macc .. => if g then some cILLEGAL else none
  | .gdisp .. | .gjoin .. => if g then none else some cILLEGAL
  | .foffer .. | .faccept .. | .flend .. | .frecall .. | .frelease .. | .fquery .. | .tlbi .. => if !g then some cILLEGAL else if user then some cPRIV else none
  | .eret => if user then some cPRIV else none
  | .halt => if g && user then some cPRIV else none
  | .mfc _ r => if !cregListed g r.toNat then some cILLEGAL else if cregReadH r.toNat && user then some cPRIV else none
  | .mtc _ r =>
    if !cregListed g r.toNat then some cILLEGAL
    else if cregWritable r.toNat && cregWriteH r.toNat && user then some cPRIV else none
  | .add .. | .sub .. | .and .. | .or .. | .xor .. | .andn .. | .sll .. | .srl .. | .sra .. | .rol .. | .slt ..
  | .sltu .. | .min .. | .max .. | .minu .. | .maxu .. | .clz .. | .ctz .. | .popc .. | .sel .. | .mul ..
  | .mulh .. | .mulhu .. | .div .. | .divu .. | .rem .. | .remu .. | .lea .. | .bfx .. | .bfi .. | .faddS ..
  | .fsubS .. | .fmulS .. | .fminS .. | .fmaxS .. | .fcvtSW .. | .fcvtWS .. | .feqS .. | .fltS .. | .fleS ..
  | .fmaS .. | .fcvtSBf .. | .fcvtBfS .. | .addi .. | .andi .. | .ori .. | .xori .. | .slli .. | .srli ..
  | .srai .. | .slti .. | .lui .. | .luih .. | .beq .. | .bne .. | .blt .. | .bge .. | .bltu .. | .bgeu ..
  | .jal .. | .jalr .. | .loop .. | .trap .. | .wfe .. | .yield .. | .brk .. | .scall .. | .lb .. | .lbu ..
  | .lh .. | .lhu .. | .lw .. | .lwu .. | .ld .. | .sb .. | .sh .. | .sw .. | .sd .. | .lda .. | .stl ..
  | .amoadd .. | .amoand .. | .amoor .. | .amoxor .. | .amomin .. | .amomax .. | .amominu .. | .amomaxu ..
  | .amoswap .. | .amocas .. | .fence .. | .putq .. | .cpyset .. | .cpysetClrerr .. | .cpygo .. | .cpywait ..
  | .cpystat .. | .sigw .. | .sigs .. | .hnew .. | .hcopy .. | .hdrop .. | .hbind .. | .hquery .. | .flush ..
  | .inval .. => none
  | .wfeDeadline .. | .haltRetire .. | .modeWrite .. | .arbWrite .. | .vshareWrite .. | .mownerWrite ..
  | .fflagsWrite .. | .mstatWrite .. | .loopcWrite .. | .jnextCovered .. | .resultLand ..
  | .variableResultLand .. | .shadowReland .. | .vectorPartBind .. | .seqCommandStart .. | .mmaRetire ..
  | .mzeroRetire .. | .maccRetire .. | .mdrainRetire .. | .mdrainsRetire .. | .chainSendDone ..
  | .chainMessageArrival .. | .chainReceiveRetire .. | .ringstarved .. | .streamFetch .. | .streamWrite ..
  | .ringTileAdvance .. | .streamCloseDone .. | .copyTransferStart .. | .copyTransferComplete ..
  | .putqDelivery .. | .chipLinkArrival .. | .enginePageFault .. | .engineReplay .. | .translationFill ..
  | .barrierCompletion .. | .consistForm .. | .consistResume .. | .trapEntry .. | .faultRecordWrite ..
  | .kickInterrupt .. | .kickRestart .. | .breakpointTableLoad .. | .engineFreeze .. | .engineFrozen ..
  | .engineUnfreeze .. | .switchArm .. | .switchStop .. | .switchSave .. | .switchRestore .. | .notifyWrite ..
  | .yardAdmit .. | .yardPriorityAge .. | .yardIdleRelease .. | .packetTake .. | .signalBoxEvent
  | .launchPlace .. | .monitorEntry .. | .eretStart .. | .launchCompletion .. | .endRequest ..
  | .launchEndDone .. | .queueRegister .. | .queueRemove .. | .contextRegister .. | .contextUnregister ..
  | .partitionWrite .. | .handlePost | .recallDeadline .. | .recallDrainDone .. | .rootWrite ..
  | .eventFrameWrite .. | .keyRegenerate .. | .pkgnumWrite .. | .hubRegisterWrite .. | .dmaWrite ..
  | .dmaRead .. | .correctedError .. | .linkRetrainDone .. | .uncorrectableError .. | .tileRemap ..
  | .patrolScrub .. | .watchdogBeat .. | .watchdogPeriodWrite .. | .watchdogExpiry .. | .residentAdopt ..
  | .residentResume .. | .extentAdd .. | .extentRelease .. | .coldReset .. | .warmReset .. | .bootTimeout ..
  | .bootokWrite .. | .mctpControl .. | .sidebandOtherMessage .. | .getVersion .. | .getCapabilities ..
  | .negotiateAlgorithms .. | .getDigests .. | .getCertificate .. | .challenge .. | .getMeasurements ..
  | .sensorThreshold .. | .thermalClockStep .. | .heartbeatSend .. | .linkdown .. | .freezeFlitArrival ..
  | .heartbeatArrival .. | .rowSpareDone .. | .hbmRepairDone .. | .handlePostLost => none

end Sys2Proof.Machine
end

