-- ==== Sys2Proof/Machine/Arbiter.lean ====
section
/-! DEFINITION. The choice of a strand (R65 to R67), the dealing of lane groups (R69 to R73), and results that land (R58,
R60). -/

namespace Sys2Proof.Machine

/-! ## The selection of R67 -/

/-- The four strands. -/
def four : List (Fin 4) := [0, 1, 2, 3]

/-- The sum of the weights of some strands. -/
def weightSum (w : Fin 4 → Nat) (cs : List (Fin 4)) : Nat := (cs.map w).sum

/-- Each candidate adds its weight to its counter. -/
def credit (w : Fin 4 → Nat) (cs : List (Fin 4)) (n : Vector Int 4) : Vector Int 4 :=
  cs.foldl (fun (m : Vector Int 4) (i : Fin 4) => m.set i (m[i] + (w i : Int))) n

/-- The chosen strand pays the sum of the weights of the candidates. -/
def charge (w : Fin 4 → Nat) (cs : List (Fin 4)) (i : Fin 4) (n : Vector Int 4) : Vector Int 4 :=
  n.set i (n[i] - (weightSum w cs : Int))

/-- The candidate with the largest counter, of equals the lowest number. -/
def largest (cs : List (Fin 4)) (n : Vector Int 4) : Option (Fin 4) := least (fun a b => decide (n[b] < n[a])) cs

/-- Weight i of a register of 4-bit weights whose first stands at bit lo. -/
def weightAt (r : Word) (lo : Nat) (i : Fin 4) : Nat := r.toNat / 2 ^ (lo + 4 * i.val) % 16

/-! ## Lane groups (R71 to R73) -/

/-- The head of a strand's vector queue. -/
def State.vqHead (s : State) (t : Nat) (i : Fin 4) : Option VqEntry := (s.hart (4 * t + i.val)).vq.head?

/-- The candidates of the deal of a group: a crossing head only at group 0 (R72). -/
def State.vqCands (s : State) (t g : Nat) : List (Fin 4) :=
  four.filter (fun i => match s.vqHead t i with
    | some e => !e.whole || g == 0
    | none => false)

/-- n more parts of a strand's head are bound; with its last part it leaves the queue, and its result has a landing
cycle (R73). -/
def State.bindParts (s : State) (t : Nat) (i : Fin 4) (n : Nat) : State :=
  let a := (s.tile t).adv
  s.mapHart (4 * t + i.val) (fun x => match x.vq with
    | [] => x
    | e :: es =>
      if e.bound + n < 4 then { x with vq := { e with bound := e.bound + n } :: es }
      else { x with
        vq := es
        flight := x.flight.map (fun f =>
          if f.org.order = e.order ∧ f.due.isNone ∧ f.lat ≠ 0 then { f with due := some (a + f.lat) } else f) })

/-- The deals of the groups from g on, n of them. -/
def State.dealGroups (s : State) (t : Nat) : Nat → Nat → State
  | _, 0 => s
  | g, n + 1 =>
    let w := weightAt (s.tile t).vshare 0
    let cs := s.vqCands t g
    let c := credit w cs (s.tile t).vCtr
    match largest cs c with
    | none => s
    | some i =>
      let c := charge w cs i c
      if ((s.vqHead t i).map (·.whole)).getD false then
        let again := fun (c : Vector Int 4) => charge w cs i (credit w cs c)
        (s.mapTile t (fun x => { x with vCtr := again (again (again c)) })).bindParts t i 4
      else ((s.mapTile t (fun x => { x with vCtr := c })).bindParts t i 1).dealGroups t (g + 1) n

/-- The four lane groups of a shared-mode tile are dealt, once in a cycle. -/
def State.bindCycle (s : State) (t : Nat) : State :=
  let x := s.tile t
  if x.shared = false ∨ x.dealtAt = some s.clk then s
  else (s.mapTile t (fun x => { x with dealtAt := some s.clk })).dealGroups t 0 4

/-- VECTOR_PART_BIND on tile t. -/
def execVectorPartBind (t : Nat) (s : State) : Out := onPackage s fun s => .next (s.bindCycle t)

/-! ## Landing (R58, R60) -/

/-- A result lands by advancing cycle a: it is due, or is a variable-latency result whose value is here. -/
def landsBy (a : Nat) (f : InFlight) : Bool :=
  match f.due with
  | some d => f.wait || decide (d ≤ a)
  | none => false

/-- The cycles that latencies of a strand or core count (R59, R403). -/
def State.cyclesOf (s : State) (h : Nat) : Nat := if isT h then (s.tile (tileOf h)).adv else s.clk

/-- RESULT_LAND of a strand or core: fixed-latency results that are due. -/
def execResultLand (h : Nat) (s : State) : Out :=
  onPackage s fun s => .next (s.landDue h (fun f => !f.wait && landsBy (s.cyclesOf h) f))

/-- VARIABLE_RESULT_LAND of a strand or core: results whose value is here. -/
def execVariableResultLand (h : Nat) (s : State) : Out :=
  onPackage s fun s => .next (s.landDue h (fun f => f.wait && landsBy (s.cyclesOf h) f))

/-! ## Issue arbitration of a shared-mode tile (R66, R67) -/

/-- Of the ready strands, those that have waited 64 cycles come first, the oldest of them. -/
def State.starving (s : State) (t : Nat) (ready : List (Fin 4)) : Option (Fin 4) :=
  (s.tile t).age.find? (fun i => ready.contains i && decide (64 ≤ (s.hart (4 * t + i.val)).waited))

/-- The strand that issues, and the tile with its counters, under the policy of ARB. WEIGHTED follows R67's numbered steps, also where a
ready strand of weight 0 stands beside one whose counter is negative (log 92). -/
def State.arbitrate (s : State) (t : Nat) (ready : List (Fin 4)) : Option (Fin 4 × Tile) :=
  let x := s.tile t
  if ready.isEmpty then none
  else match x.arb.toNat % 4 with
    | 0 =>
      let oldest := x.age.find? (ready.contains ·)
      let i := match s.starving t ready with
        | some i => some i
        | none => if ready.contains x.last && !x.yielded then some x.last else oldest
      i.map (fun i => (i, x))
    | 1 => (([1, 2, 3, 4] : List Nat).map (fun k => Fin.ofNat 4 (x.last.val + k))).find? (ready.contains ·) |>.map (fun i => (i, x))
    | _ =>
      let w := weightAt x.arb 4
      let c := credit w ready x.arbCtr
      let i := match s.starving t ready with
        | some i => some i
        | none => largest ready c
      i.map (fun i => (i, { x with arbCtr := charge w ready i c }))

end Sys2Proof.Machine
end

