-- ==== Sys2Proof/Machine/Fetch.lean ====
section
/-! DEFINITION. Fetching a bundle and its decode checks (R28, R29, R75, R122), breakpoints (R340), and the interlocks that
hold a bundle at issue (R60 to R63). -/

namespace Sys2Proof.Machine

/-! ## Fetch -/

/-- The address lies in the slice window of another tile, which no fetch reaches (R238; log 13). -/
def foreignSlice (t va : Nat) : Bool :=
  match classify va with
  | .slice u _ => u != t
  | _ => false

/-- The two words of the bundle at the pc of a strand or core, or the cause of the fault: PAGE, PERM, WAYBILL, RECALLED or DATAERR
(R122). A page of I/O gives PERM, whatever its X bit (log 131). -/
def State.fetch (s : State) (h : Nat) : Except Cause (Nat × Nat) × State :=
  let x := s.hart h
  let part := (x.pc.toNat, 8)
  let t : Option Nat := if isT h then some (tileOf h) else none
  if t.any (fun t => foreignSlice t x.pc.toNat) then (.error cPERM, s)
  else
    match s.placePart (s.requester h x.priv) t .fetch false part with
    | (.error c, s) => (.error c, s)
    | (.ok l, s) =>
      if s.readBad l 8 then (.error cDATAERR, s.found l 8)
      else
        let b := s.readLoc 8 l
        (.ok (leNat (b.take 4), leNat (b.drop 4)), s)

/-! ## Decode checks (R29) -/

/-- What a bundle issues next. -/
inductive Plan where
  /-- Both words together. -/
  | pair (i j : Instr)
  /-- One word alone. -/
  | one (i : Instr)
  deriving DecidableEq, Repr

/-- The instructions of a plan. -/
def Plan.words : Plan → List Instr
  | .pair i j => [i, j]
  | .one i => [i]

/-- TVAL of a decode trap of word w with index n. -/
def wordAt (w n : Nat) : Word := BitVec.ofNat 64 (w % 2 ^ 32 + n * 2 ^ 32)

/-- Step 4 of R29 on a word. -/
def checkWord (g user : Bool) (w n : Nat) : Except (Cause × Word) Instr :=
  match decodeWord w with
  | .error .extension => .error (cEXTENSION, wordAt w n)
  | .error _ => .error (cILLEGAL, wordAt w n)
  | .ok i => match unavailable g user i with
    | some c => .error (c, wordAt w n)
    | none => .ok i

/-- The registers that a word names as destinations; a word that is no instruction names none. -/
def destinations (w : Nat) : List RegName :=
  match decodeWord w with
  | .ok i => (writes i).filter (fun r => r != .x 0 && r != .k 0)
  | .error _ => []

/-- Both words of a paired bundle name one destination. -/
def shareDestination (w0 w1 : Nat) : Bool := (destinations w0).any ((destinations w1).contains ·)

/-- A row of R28 marked BUNDLE. -/
def badPair (w0 w1 : Nat) : Bool :=
  lBit w1 || (!lBit w0 && (decide (2 ≤ classOf w0) || decide (classOf w1 < 2)))

/-- DecodeChecks of R49 on a whole bundle. Of two words of all ones the first is the one that TVAL names (log 107). -/
def checkBundle (g user : Bool) (w0 w1 : Nat) : Except (Cause × Word) Plan :=
  if w0 = 0xFFFFFFFF then .error (cILLEGAL, wordAt w0 0)
  else if w1 = 0xFFFFFFFF then .error (cILLEGAL, wordAt w1 1)
  else if badPair w0 w1 || (!lBit w0 && shareDestination w0 w1) then
    .error (cBUNDLE, BitVec.ofNat 64 (w0 + w1 * 2 ^ 32))
  else match checkWord g user w0 0 with
    | .error e => .error e
    | .ok i => match checkWord g user w1 1 with
      | .error e => .error e
      | .ok j => if lBit w0 then .ok (.one i) else .ok (.pair i j)

/-- The checks before a strand or core issues: the whole bundle, or word 1 alone once word 0 has issued. -/
def State.decodeChecks (s : State) (h : Nat) (w0 w1 : Nat) : Except (Cause × Word) Plan :=
  let x := s.hart h
  let g := !isT h
  let user := x.priv == .user
  if x.w1 then match checkWord g user w1 1 with
    | .error e => .error e
    | .ok i => .ok (.one i)
  else checkBundle g user w0 w1

/-- A class X word stands among the words that have not issued, and the strand does not own the matrix unit (R75). -/
def State.notOwner (s : State) (h : Nat) (w0 w1 : Nat) : Bool :=
  (classOf w1 == 3 || (!(s.hart h).w1 && classOf w0 == 3)) && (s.tile (tileOf h)).owner.toNat != (strandOf h).val

/-! ## Breakpoints (R340) -/

/-- The first enabled breakpoint of a strand that the next word, or a word of the next paired bundle, meets. -/
def State.breakHit (s : State) (h : Nat) (paired : Bool) : Option Nat :=
  let x := s.hart h
  let i := strandOf h
  if !isT h || x.priv != .user || x.bpskip || !(s.tile (tileOf h)).dbgctl.getLsbD (5 + i.val) then none
  else
    let hit := fun (e : Word) =>
      e.getLsbD 0 && (e &&& 0x0000FFFFFFFFFFF8) == x.pc
        && ((e.getLsbD 2 == x.w1) || (paired && !x.w1))
    ([0, 1, 2, 3] : List (Fin 4)).findSome? (fun b => if hit x.bp[b] then some b.val else none)

/-! ## Interlocks (R60 to R63) -/

/-- The register that a result goes to. -/
def landsIn : Landing → Option RegName
  | .none => none
  | .x r _ => if r.val = 0 then none else some (.x r)
  | .v r _ _ => some (.v r)
  | .k r _ => if r.val = 0 then none else some (.k r)

/-- Readers wait for every result of the strand or core: shared mode, a handler, profile G (R62, R63). -/
def State.scoreboard (s : State) (h : Nat) : Bool :=
  !isT h || (s.tile (tileOf h)).shared || (s.hart h).priv != .user

/-- A register is pending: a result on its way goes to it, in fixed mode one of variable latency (R60). -/
def State.pendingReg (s : State) (h : Nat) (r : RegName) : Bool :=
  let all := s.scoreboard h
  (s.hart h).flight.any (fun f => landsIn f.land == some r && (all || f.wait || f.due.isNone) && !s.heldBack h f)

/-- The bundle stalls at issue. -/
def State.stalled (s : State) (h : Nat) (p : Plan) : Bool :=
  p.words.any (fun i => (reads i ++ writes i).any (s.pendingReg h))

end Sys2Proof.Machine
end

