-- ==== Sys2Proof/Machine/HubStores.lean ====
section
/-! DEFINITION. Scalar stores to hub registers (R240): what each does, once, when the hub performs it. -/

namespace Sys2Proof.Machine

/-- The store of size bytes at offset off covers byte b. -/
def covers (off size b : Nat) : Bool := decide (off ≤ b) && decide (b < off + size)

/-- Byte b of a value stored at offset off. -/
def storedByte (off v b : Nat) : Nat := v / 2 ^ (8 * (b - off)) % 256

/-- Effects one after the other; the first that is no next state ends them. -/
def inOrder : List (State → Out) → State → Out
  | [], s => .next s
  | f :: fs, s =>
    match f s with
    | .next s => inOrder fs s
    | o => o

/-- What a store to an entry's enable byte does: registers on 1, removes on 0. -/
def enable (off size v b : Nat) (on off' : State → Out) : List (State → Out) :=
  if covers off size b then
    if storedByte off v b = 1 then [on] else if storedByte off v b = 0 then [off'] else []
  else []

/-- The effects of a store of size bytes of v at offset off of hub frame f, in their order. -/
def storeEffects (s : State) (f off size : Nat) (v : Word) (byMonitor : Bool) : List (State → Out) :=
  let pa := f * 0x10000 + off
  let n := v.toNat
  let plain : State → Out := execHubRegisterWrite pa size v
  if 0x08000000 ≤ f ∧ f < 0x08000400 then
    if off = 0 ∧ size = 8 then [execNotifyWrite (f - 0x08000000) v] else []
  else if f = 0x08F00000 then
    let q := off / 32
    plain :: (if q < 1024 then enable off size n (32 * q + 11) (execQueueRegister q) (execQueueRemove q) else [])
  else if f = 0x08F10000 then
    if 0xC000 ≤ off then [execPartitionWrite ((off - 0xC000) / 128) ((off - 0xC000) % 128) size v]
    else
      let t := off / 128
      plain :: (if t < 256 then enable off size n (128 * t + 25) (execContextRegister t) (execContextUnregister t) else [])
  else if f = 0x08F30000 then if off = 0 ∧ size = 8 then [execEndRequest v] else []
  else if f = 0x08F40000 then
    (if 8 ≤ off ∧ off < 16 then [execPkgnumWrite (BitVec.ofNat 64 (s.merged (f * 0x10000) 8 8 off size v))] else [])
      ++ (if covers off size 1 && storedByte off n 1 / 8 % 2 == 1 then [execBootokWrite] else [])
  else if f = 0x08F50000 then
    (if off < 8 then [execWatchdogBeat] else [])
      ++ (if off < 10 ∧ 8 < off + size then [execWatchdogPeriodWrite (BitVec.ofNat 64 (s.merged (f * 0x10000) 8 2 off size v))] else [])
      ++ (if covers off size 10 && storedByte off n 10 / 16 % 2 == 1 then [execResidentResume] else [])
      ++ [plain]
  else if 0x08FE0000 ≤ f ∧ f < 0x08FE0003 then
    match Kernel.ofCode? (f - 0x08FE0000) with
    | some k => [execEventFrameWrite k byMonitor off size v]
    | none => []
  else if f = 0x08F90000 then
    if off % 8 = 0 ∧ size = 8 ∧ off / 8 < 512 then
      if v.msb then [execKickRestart (off / 8) v] else [execKickInterrupt (off / 8) v]
    else []
  else if 0x08FB0000 ≤ f ∧ f < 0x08FB0010 then
    if off < 8 then
      [execSwitchArm (f - 0x08FB0000) (BitVec.ofNat 64 (s.merged (f * 0x10000) 0 8 off size v))]
    else [plain]
  else if f = 0x08FD0000 ∨ (0x08FC0000 ≤ f ∧ f < 0x08FC0004) ∨ (0x08FF0000 ≤ f ∧ f < 0x08FF0010) then
    [execRootWrite pa size v]
  else [plain]

/-- The hub performs a scalar store. -/
def State.hubStore (s : State) (pa size : Nat) (v : Word) (byMonitor : Bool) : Out :=
  inOrder (storeEffects s (pa / 0x10000) (pa % 0x10000) size v byMonitor) s

end Sys2Proof.Machine
end

