-- ==== Sys2Proof/Machine/Dispatch.lean ====
section
/-! DEFINITION. The meaning of every instruction. -/

namespace Sys2Proof.Machine

def exec (i : Instr) (s : State) : Host.Outcome State Fault Refusal :=
  match i with
  | .add d a b => Sys2Proof.Machine.execAdd d a b s
  | .sub d a b => Sys2Proof.Machine.execSub d a b s
  | .and d a b => Sys2Proof.Machine.execAnd d a b s
  | .or d a b => Sys2Proof.Machine.execOr d a b s
  | .xor d a b => Sys2Proof.Machine.execXor d a b s
  | .andn d a b => Sys2Proof.Machine.execAndn d a b s
  | .sll d a b => Sys2Proof.Machine.execSll d a b s
  | .srl d a b => Sys2Proof.Machine.execSrl d a b s
  | .sra d a b => Sys2Proof.Machine.execSra d a b s
  | .rol d a b => Sys2Proof.Machine.execRol d a b s
  | .slt d a b => Sys2Proof.Machine.execSlt d a b s
  | .sltu d a b => Sys2Proof.Machine.execSltu d a b s
  | .min d a b => Sys2Proof.Machine.execMin d a b s
  | .max d a b => Sys2Proof.Machine.execMax d a b s
  | .minu d a b => Sys2Proof.Machine.execMinu d a b s
  | .maxu d a b => Sys2Proof.Machine.execMaxu d a b s
  | .clz d a => Sys2Proof.Machine.execClz d a s
  | .ctz d a => Sys2Proof.Machine.execCtz d a s
  | .popc d a => Sys2Proof.Machine.execPopc d a s
  | .sel d a b => Sys2Proof.Machine.execSel d a b s
  | .mul d a b => Sys2Proof.Machine.execMul d a b s
  | .mulh d a b => Sys2Proof.Machine.execMulh d a b s
  | .mulhu d a b => Sys2Proof.Machine.execMulhu d a b s
  | .div d a b => Sys2Proof.Machine.execDiv d a b s
  | .divu d a b => Sys2Proof.Machine.execDivu d a b s
  | .rem d a b => Sys2Proof.Machine.execRem d a b s
  | .remu d a b => Sys2Proof.Machine.execRemu d a b s
  | .lea d a b r0 => Sys2Proof.Machine.execLea d a b r0 s
  | .bfx d a n p => Sys2Proof.Machine.execBfx d a n p s
  | .bfi d a n p => Sys2Proof.Machine.execBfi d a n p s
  | .faddS d a b => Sys2Proof.Machine.execFaddS d a b s
  | .fsubS d a b => Sys2Proof.Machine.execFsubS d a b s
  | .fmulS d a b => Sys2Proof.Machine.execFmulS d a b s
  | .fminS d a b => Sys2Proof.Machine.execFminS d a b s
  | .fmaxS d a b => Sys2Proof.Machine.execFmaxS d a b s
  | .fcvtSW d a => Sys2Proof.Machine.execFcvtSW d a s
  | .fcvtWS d a => Sys2Proof.Machine.execFcvtWS d a s
  | .feqS d a b => Sys2Proof.Machine.execFeqS d a b s
  | .fltS d a b => Sys2Proof.Machine.execFltS d a b s
  | .fleS d a b => Sys2Proof.Machine.execFleS d a b s
  | .fmaS d a b => Sys2Proof.Machine.execFmaS d a b s
  | .fcvtSBf d a => Sys2Proof.Machine.execFcvtSBf d a s
  | .fcvtBfS d a => Sys2Proof.Machine.execFcvtBfS d a s
  | .addi d a imm => Sys2Proof.Machine.execAddi d a imm s
  | .andi d a imm => Sys2Proof.Machine.execAndi d a imm s
  | .ori d a imm => Sys2Proof.Machine.execOri d a imm s
  | .xori d a imm => Sys2Proof.Machine.execXori d a imm s
  | .slli d a r0 => Sys2Proof.Machine.execSlli d a r0 s
  | .srli d a r0 => Sys2Proof.Machine.execSrli d a r0 s
  | .srai d a r0 => Sys2Proof.Machine.execSrai d a r0 s
  | .slti d a imm => Sys2Proof.Machine.execSlti d a imm s
  | .lui d imm => Sys2Proof.Machine.execLui d imm s
  | .luih d imm => Sys2Proof.Machine.execLuih d imm s
  | .beq a b o => Sys2Proof.Machine.execBeq a b o s
  | .bne a b o => Sys2Proof.Machine.execBne a b o s
  | .blt a b o => Sys2Proof.Machine.execBlt a b o s
  | .bge a b o => Sys2Proof.Machine.execBge a b o s
  | .bltu a b o => Sys2Proof.Machine.execBltu a b o s
  | .bgeu a b o => Sys2Proof.Machine.execBgeu a b o s
  | .jal d o => Sys2Proof.Machine.execJal d o s
  | .jalr d a imm => Sys2Proof.Machine.execJalr d a imm s
  | .loop a o => Sys2Proof.Machine.execLoop a o s
  | .beos p o => Sys2Proof.Machine.execBeos p o s
  | .trap a => Sys2Proof.Machine.execTrap a s
  | .eret => Sys2Proof.Machine.execEret s
  | .wfe a => Sys2Proof.Machine.execWfe a s
  | .wfeDeadline h => Sys2Proof.Machine.execWfeDeadline h s
  | .yield => Sys2Proof.Machine.execYield s
  | .halt => Sys2Proof.Machine.execHalt s
  | .haltRetire h => Sys2Proof.Machine.execHaltRetire h s
  | .brk => Sys2Proof.Machine.execBrk s
  | .scall d a b => Sys2Proof.Machine.execScall d a b s
  | .mfc d r => Sys2Proof.Machine.execMfc d r s
  | .mtc a r => Sys2Proof.Machine.execMtc a r s
  | .modeWrite v => Sys2Proof.Machine.execModeWrite v s
  | .arbWrite v => Sys2Proof.Machine.execArbWrite v s
  | .vshareWrite v => Sys2Proof.Machine.execVshareWrite v s
  | .mownerWrite v => Sys2Proof.Machine.execMownerWrite v s
  | .fflagsWrite v => Sys2Proof.Machine.execFflagsWrite v s
  | .mstatWrite v => Sys2Proof.Machine.execMstatWrite v s
  | .loopcWrite v => Sys2Proof.Machine.execLoopcWrite v s
  | .lb d a o => Sys2Proof.Machine.execLb d a o s
  | .lbu d a o => Sys2Proof.Machine.execLbu d a o s
  | .lh d a o => Sys2Proof.Machine.execLh d a o s
  | .lhu d a o => Sys2Proof.Machine.execLhu d a o s
  | .lw d a o => Sys2Proof.Machine.execLw d a o s
  | .lwu d a o => Sys2Proof.Machine.execLwu d a o s
  | .ld d a o => Sys2Proof.Machine.execLd d a o s
  | .sb r0 a o => Sys2Proof.Machine.execSb r0 a o s
  | .sh r0 a o => Sys2Proof.Machine.execSh r0 a o s
  | .sw r0 a o => Sys2Proof.Machine.execSw r0 a o s
  | .sd r0 a o => Sys2Proof.Machine.execSd r0 a o s
  | .vld v a o => Sys2Proof.Machine.execVld v a o s
  | .vst v a o => Sys2Proof.Machine.execVst v a o s
  | .vlds v a b k d64 => Sys2Proof.Machine.execVlds v a b k d64 s
  | .vsts v a b k d64 => Sys2Proof.Machine.execVsts v a b k d64 s
  | .vgth v a idx k d64 => Sys2Proof.Machine.execVgth v a idx k d64 s
  | .vsct v a idx k d64 => Sys2Proof.Machine.execVsct v a idx k d64 s
  | .lda d a ord scope dbl => Sys2Proof.Machine.execLda d a ord scope dbl s
  | .stl a b ord scope dbl => Sys2Proof.Machine.execStl a b ord scope dbl s
  | .amoadd d a b ord scope dbl => Sys2Proof.Machine.execAmoadd d a b ord scope dbl s
  | .amoand d a b ord scope dbl => Sys2Proof.Machine.execAmoand d a b ord scope dbl s
  | .amoor d a b ord scope dbl => Sys2Proof.Machine.execAmoor d a b ord scope dbl s
  | .amoxor d a b ord scope dbl => Sys2Proof.Machine.execAmoxor d a b ord scope dbl s
  | .amomin d a b ord scope dbl => Sys2Proof.Machine.execAmomin d a b ord scope dbl s
  | .amomax d a b ord scope dbl => Sys2Proof.Machine.execAmomax d a b ord scope dbl s
  | .amominu d a b ord scope dbl => Sys2Proof.Machine.execAmominu d a b ord scope dbl s
  | .amomaxu d a b ord scope dbl => Sys2Proof.Machine.execAmomaxu d a b ord scope dbl s
  | .amoswap d a b ord scope dbl => Sys2Proof.Machine.execAmoswap d a b ord scope dbl s
  | .amocas d a b ord scope dbl => Sys2Proof.Machine.execAmocas d a b ord scope dbl s
  | .fence ord scope => Sys2Proof.Machine.execFence ord scope s
  | .putq d a b len => Sys2Proof.Machine.execPutq d a b len s
  | .qcfg p a => Sys2Proof.Machine.execQcfg p a s
  | .qget d p => Sys2Proof.Machine.execQget d p s
  | .qput p a => Sys2Proof.Machine.execQput p a s
  | .qclose p => Sys2Proof.Machine.execQclose p s
  | .qstat d p sel => Sys2Proof.Machine.execQstat d p sel s
  | .cpyset c a f => Sys2Proof.Machine.execCpyset c a f s
  | .cpysetClrerr c => Sys2Proof.Machine.execCpysetClrerr c s
  | .cpygo d a c => Sys2Proof.Machine.execCpygo d a c s
  | .cpywait c a => Sys2Proof.Machine.execCpywait c a s
  | .cpystat d c sel => Sys2Proof.Machine.execCpystat d c sel s
  | .bar d lv => Sys2Proof.Machine.execBar d lv s
  | .barw a lv => Sys2Proof.Machine.execBarw a lv s
  | .phase d lv => Sys2Proof.Machine.execPhase d lv s
  | .couple a => Sys2Proof.Machine.execCouple a s
  | .uncouple => Sys2Proof.Machine.execUncouple s
  | .inbx d a poll => Sys2Proof.Machine.execInbx d a poll s
  | .jnext d a => Sys2Proof.Machine.execJnext d a s
  | .jnextCovered d a => Sys2Proof.Machine.execJnextCovered d a s
  | .larm d a => Sys2Proof.Machine.execLarm d a s
  | .gdisp d a => Sys2Proof.Machine.execGdisp d a s
  | .gjoin d a poll => Sys2Proof.Machine.execGjoin d a poll s
  | .sigw d a b nowait => Sys2Proof.Machine.execSigw d a b nowait s
  | .sigs a b add => Sys2Proof.Machine.execSigs a b add s
  | .hnew d a b => Sys2Proof.Machine.execHnew d a b s
  | .hcopy d r0 => Sys2Proof.Machine.execHcopy d r0 s
  | .hdrop r0 => Sys2Proof.Machine.execHdrop r0 s
  | .hbind d a b => Sys2Proof.Machine.execHbind d a b s
  | .hquery d a => Sys2Proof.Machine.execHquery d a s
  | .foffer d a b => Sys2Proof.Machine.execFoffer d a b s
  | .faccept d a b => Sys2Proof.Machine.execFaccept d a b s
  | .flend d a b => Sys2Proof.Machine.execFlend d a b s
  | .frecall d a b => Sys2Proof.Machine.execFrecall d a b s
  | .frelease d a => Sys2Proof.Machine.execFrelease d a s
  | .fquery d a => Sys2Proof.Machine.execFquery d a s
  | .tlbi scope a b kind => Sys2Proof.Machine.execTlbi scope a b kind s
  | .flush a b => Sys2Proof.Machine.execFlush a b s
  | .inval a b => Sys2Proof.Machine.execInval a b s
  | .vadd d a b k e keep => Sys2Proof.Machine.execVadd d a b k e keep s
  | .vsub d a b k e keep => Sys2Proof.Machine.execVsub d a b k e keep s
  | .vmul d a b k e keep => Sys2Proof.Machine.execVmul d a b k e keep s
  | .vmulh d a b k e keep => Sys2Proof.Machine.execVmulh d a b k e keep s
  | .vmin d a b k e keep => Sys2Proof.Machine.execVmin d a b k e keep s
  | .vmax d a b k e keep => Sys2Proof.Machine.execVmax d a b k e keep s
  | .vminu d a b k e keep => Sys2Proof.Machine.execVminu d a b k e keep s
  | .vmaxu d a b k e keep => Sys2Proof.Machine.execVmaxu d a b k e keep s
  | .vand d a b k e keep => Sys2Proof.Machine.execVand d a b k e keep s
  | .vor d a b k e keep => Sys2Proof.Machine.execVor d a b k e keep s
  | .vxor d a b k e keep => Sys2Proof.Machine.execVxor d a b k e keep s
  | .vandn d a b k e keep => Sys2Proof.Machine.execVandn d a b k e keep s
  | .vsll d a b k e keep => Sys2Proof.Machine.execVsll d a b k e keep s
  | .vsrl d a b k e keep => Sys2Proof.Machine.execVsrl d a b k e keep s
  | .vsra d a b k e keep => Sys2Proof.Machine.execVsra d a b k e keep s
  | .vrol d a b k e keep => Sys2Proof.Machine.execVrol d a b k e keep s
  | .vsadd d a b k e keep => Sys2Proof.Machine.execVsadd d a b k e keep s
  | .vssub d a b k e keep => Sys2Proof.Machine.execVssub d a b k e keep s
  | .vavg d a b k e keep => Sys2Proof.Machine.execVavg d a b k e keep s
  | .vabs d a k e keep => Sys2Proof.Machine.execVabs d a k e keep s
  | .vfadd d a b k e keep => Sys2Proof.Machine.execVfadd d a b k e keep s
  | .vfsub d a b k e keep => Sys2Proof.Machine.execVfsub d a b k e keep s
  | .vfmul d a b k e keep => Sys2Proof.Machine.execVfmul d a b k e keep s
  | .vfabd d a b k e keep => Sys2Proof.Machine.execVfabd d a b k e keep s
  | .vfma d a b k e keep => Sys2Proof.Machine.execVfma d a b k e keep s
  | .vfms d a b k e keep => Sys2Proof.Machine.execVfms d a b k e keep s
  | .vfnma d a b k e keep => Sys2Proof.Machine.execVfnma d a b k e keep s
  | .vfnms d a b k e keep => Sys2Proof.Machine.execVfnms d a b k e keep s
  | .vfmin d a b k e keep => Sys2Proof.Machine.execVfmin d a b k e keep s
  | .vfmax d a b k e keep => Sys2Proof.Machine.execVfmax d a b k e keep s
  | .vfneg d a k e keep => Sys2Proof.Machine.execVfneg d a k e keep s
  | .vfabs d a k e keep => Sys2Proof.Machine.execVfabs d a k e keep s
  | .vfdiv d a b k keep => Sys2Proof.Machine.execVfdiv d a b k keep s
  | .vfsqrt d a k keep => Sys2Proof.Machine.execVfsqrt d a k keep s
  | .vfrcp d a k keep => Sys2Proof.Machine.execVfrcp d a k keep s
  | .vfrsq d a k keep => Sys2Proof.Machine.execVfrsq d a k keep s
  | .vfexp2 d a k keep => Sys2Proof.Machine.execVfexp2 d a k keep s
  | .vflog2 d a k keep => Sys2Proof.Machine.execVflog2 d a k keep s
  | .vftanh d a k keep => Sys2Proof.Machine.execVftanh d a k keep s
  | .vfsigm d a k keep => Sys2Proof.Machine.execVfsigm d a k keep s
  | .vcmpEq d a b k e keep => Sys2Proof.Machine.execVcmpEq d a b k e keep s
  | .vcmpNe d a b k e keep => Sys2Proof.Machine.execVcmpNe d a b k e keep s
  | .vcmpLt d a b k e keep => Sys2Proof.Machine.execVcmpLt d a b k e keep s
  | .vcmpLe d a b k e keep => Sys2Proof.Machine.execVcmpLe d a b k e keep s
  | .vfcmpEq d a b k e keep => Sys2Proof.Machine.execVfcmpEq d a b k e keep s
  | .vfcmpNe d a b k e keep => Sys2Proof.Machine.execVfcmpNe d a b k e keep s
  | .vfcmpLt d a b k e keep => Sys2Proof.Machine.execVfcmpLt d a b k e keep s
  | .vfcmpLe d a b k e keep => Sys2Proof.Machine.execVfcmpLe d a b k e keep s
  | .vsel d a b k e keep => Sys2Proof.Machine.execVsel d a b k e keep s
  | .vmov d a k e keep => Sys2Proof.Machine.execVmov d a k e keep s
  | .kand d a b => Sys2Proof.Machine.execKand d a b s
  | .kor d a b => Sys2Proof.Machine.execKor d a b s
  | .kxor d a b => Sys2Proof.Machine.execKxor d a b s
  | .kandn d a b => Sys2Proof.Machine.execKandn d a b s
  | .knot d a => Sys2Proof.Machine.execKnot d a s
  | .kpop d a => Sys2Proof.Machine.execKpop d a s
  | .kfirst d a => Sys2Proof.Machine.execKfirst d a s
  | .kset d a => Sys2Proof.Machine.execKset d a s
  | .vbcast d b k e => Sys2Proof.Machine.execVbcast d b k e s
  | .vins d a b e => Sys2Proof.Machine.execVins d a b e s
  | .vext d a b e keep => Sys2Proof.Machine.execVext d a b e keep s
  | .vslide d a b k e keep => Sys2Proof.Machine.execVslide d a b k e keep s
  | .vperm d a b k e keep => Sys2Proof.Machine.execVperm d a b k e keep s
  | .vrot d a b k e keep => Sys2Proof.Machine.execVrot d a b k e keep s
  | .vzip d a b k e keep => Sys2Proof.Machine.execVzip d a b k e keep s
  | .vunzip d a b k e keep => Sys2Proof.Machine.execVunzip d a b k e keep s
  | .vrsum d a k e keep => Sys2Proof.Machine.execVrsum d a k e keep s
  | .vrmax d a k e keep => Sys2Proof.Machine.execVrmax d a k e keep s
  | .vrfmax d a k e keep => Sys2Proof.Machine.execVrfmax d a k e keep s
  | .vrmin d a k e keep => Sys2Proof.Machine.execVrmin d a k e keep s
  | .vrfmin d a k e keep => Sys2Proof.Machine.execVrfmin d a k e keep s
  | .vrfsum d a k e keep => Sys2Proof.Machine.execVrfsum d a k e keep s
  | .vcvt d a src dst rm sat k => Sys2Proof.Machine.execVcvt d a src dst rm sat k s
  | .vpack d a nf k e keep => Sys2Proof.Machine.execVpack d a nf k e keep s
  | .vunpk d a nf k e keep => Sys2Proof.Machine.execVunpk d a nf k e keep s
  | .vlut d a b k e keep => Sys2Proof.Machine.execVlut d a b k e keep s
  | .vscale d a b k e keep => Sys2Proof.Machine.execVscale d a b k e keep s
  | .vmovi d imm k e => Sys2Proof.Machine.execVmovi d imm k e s
  | .mma c a b fa fb popA popB r0 => Sys2Proof.Machine.execMma c a b fa fb popA popB r0 s
  | .mmasN6 c a b fa fb popA popB r0 => Sys2Proof.Machine.execMmasN6 c a b fa fb popA popB r0 s
  | .mmasN8 c a b fa fb popA popB r0 => Sys2Proof.Machine.execMmasN8 c a b fa fb popA popB r0 s
  | .mmasN12 c a b fa fb popA popB r0 => Sys2Proof.Machine.execMmasN12 c a b fa fb popA popB r0 s
  | .mzero c => Sys2Proof.Machine.execMzero c s
  | .mdrain c v tf rm sat row => Sys2Proof.Machine.execMdrain c v tf rm sat row s
  | .mdrains c a tf rm sat row => Sys2Proof.Machine.execMdrains c a tf rm sat row s
  | .mchainSend c rows row => Sys2Proof.Machine.execMchainSend c rows row s
  | .mchainRecv c rows int row => Sys2Proof.Machine.execMchainRecv c rows int row s
  | .mchainRelay c rows int row => Sys2Proof.Machine.execMchainRelay c rows int row s
  | .mcbk r a => Sys2Proof.Machine.execMcbk r a s
  | .mrset r a => Sys2Proof.Machine.execMrset r a s
  | .mradv r a => Sys2Proof.Machine.execMradv r a s
  | .mrstat r d => Sys2Proof.Machine.execMrstat r d s
  | .mwait => Sys2Proof.Machine.execMwait s
  | .mseq d => Sys2Proof.Machine.execMseq d s
  | .macc c int r0 => Sys2Proof.Machine.execMacc c int r0 s
  | .resultLand h => Sys2Proof.Machine.execResultLand h s
  | .variableResultLand h => Sys2Proof.Machine.execVariableResultLand h s
  | .shadowReland h => Sys2Proof.Machine.execShadowReland h s
  | .vectorPartBind t => Sys2Proof.Machine.execVectorPartBind t s
  | .seqCommandStart t => Sys2Proof.Machine.execSeqCommandStart t s
  | .mmaRetire t => Sys2Proof.Machine.execMmaRetire t s
  | .mzeroRetire t => Sys2Proof.Machine.execMzeroRetire t s
  | .maccRetire t => Sys2Proof.Machine.execMaccRetire t s
  | .mdrainRetire t => Sys2Proof.Machine.execMdrainRetire t s
  | .mdrainsRetire t => Sys2Proof.Machine.execMdrainsRetire t s
  | .chainSendDone t => Sys2Proof.Machine.execChainSendDone t s
  | .chainMessageArrival t => Sys2Proof.Machine.execChainMessageArrival t s
  | .chainReceiveRetire t => Sys2Proof.Machine.execChainReceiveRetire t s
  | .ringstarved t => Sys2Proof.Machine.execRingstarved t s
  | .streamFetch h p => Sys2Proof.Machine.execStreamFetch h p s
  | .streamWrite h p => Sys2Proof.Machine.execStreamWrite h p s
  | .ringTileAdvance h p => Sys2Proof.Machine.execRingTileAdvance h p s
  | .streamCloseDone h p => Sys2Proof.Machine.execStreamCloseDone h p s
  | .copyTransferStart u c => Sys2Proof.Machine.execCopyTransferStart u c s
  | .copyTransferComplete u c id remote => Sys2Proof.Machine.execCopyTransferComplete u c id remote s
  | .putqDelivery remote => Sys2Proof.Machine.execPutqDelivery remote s
  | .chipLinkArrival kind spkg sctx addr data => Sys2Proof.Machine.execChipLinkArrival kind spkg sctx addr data s
  | .enginePageFault u => Sys2Proof.Machine.execEnginePageFault u s
  | .engineReplay u refuse => Sys2Proof.Machine.execEngineReplay u refuse s
  | .translationFill h va k => Sys2Proof.Machine.execTranslationFill h va k s
  | .barrierCompletion t lv => Sys2Proof.Machine.execBarrierCompletion t lv s
  | .consistForm t => Sys2Proof.Machine.execConsistForm t s
  | .consistResume t => Sys2Proof.Machine.execConsistResume t s
  | .trapEntry h => Sys2Proof.Machine.execTrapEntry h s
  | .faultRecordWrite unit => Sys2Proof.Machine.execFaultRecordWrite unit s
  | .kickInterrupt t v => Sys2Proof.Machine.execKickInterrupt t v s
  | .kickRestart t v => Sys2Proof.Machine.execKickRestart t v s
  | .breakpointTableLoad t => Sys2Proof.Machine.execBreakpointTableLoad t s
  | .engineFreeze t => Sys2Proof.Machine.execEngineFreeze t s
  | .engineFrozen t => Sys2Proof.Machine.execEngineFrozen t s
  | .engineUnfreeze t => Sys2Proof.Machine.execEngineUnfreeze t s
  | .switchArm p v => Sys2Proof.Machine.execSwitchArm p v s
  | .switchStop p => Sys2Proof.Machine.execSwitchStop p s
  | .switchSave t => Sys2Proof.Machine.execSwitchSave t s
  | .switchRestore t => Sys2Proof.Machine.execSwitchRestore t s
  | .notifyWrite q v => Sys2Proof.Machine.execNotifyWrite q v s
  | .yardAdmit => Sys2Proof.Machine.execYardAdmit s
  | .yardPriorityAge q => Sys2Proof.Machine.execYardPriorityAge q s
  | .yardIdleRelease q => Sys2Proof.Machine.execYardIdleRelease q s
  | .packetTake q => Sys2Proof.Machine.execPacketTake q s
  | .signalBoxEvent => Sys2Proof.Machine.execSignalBoxEvent s
  | .launchPlace l => Sys2Proof.Machine.execLaunchPlace l s
  | .monitorEntry t => Sys2Proof.Machine.execMonitorEntry t s
  | .eretStart => Sys2Proof.Machine.execEretStart s
  | .launchCompletion l => Sys2Proof.Machine.execLaunchCompletion l s
  | .endRequest v => Sys2Proof.Machine.execEndRequest v s
  | .launchEndDone l => Sys2Proof.Machine.execLaunchEndDone l s
  | .queueRegister q => Sys2Proof.Machine.execQueueRegister q s
  | .queueRemove q => Sys2Proof.Machine.execQueueRemove q s
  | .contextRegister c => Sys2Proof.Machine.execContextRegister c s
  | .contextUnregister c => Sys2Proof.Machine.execContextUnregister c s
  | .partitionWrite p off size v => Sys2Proof.Machine.execPartitionWrite p off size v s
  | .handlePost => Sys2Proof.Machine.execHandlePost s
  | .recallDeadline f => Sys2Proof.Machine.execRecallDeadline f s
  | .recallDrainDone f => Sys2Proof.Machine.execRecallDrainDone f s
  | .rootWrite pa size v => Sys2Proof.Machine.execRootWrite pa size v s
  | .eventFrameWrite kn byMonitor off size v => Sys2Proof.Machine.execEventFrameWrite kn byMonitor off size v s
  | .keyRegenerate k => Sys2Proof.Machine.execKeyRegenerate k s
  | .pkgnumWrite v => Sys2Proof.Machine.execPkgnumWrite v s
  | .hubRegisterWrite pa size v => Sys2Proof.Machine.execHubRegisterWrite pa size v s
  | .dmaWrite port va data => Sys2Proof.Machine.execDmaWrite port va data s
  | .dmaRead port va n => Sys2Proof.Machine.execDmaRead port va n s
  | .correctedError u => Sys2Proof.Machine.execCorrectedError u s
  | .linkRetrainDone link => Sys2Proof.Machine.execLinkRetrainDone link s
  | .uncorrectableError g => Sys2Proof.Machine.execUncorrectableError g s
  | .tileRemap t => Sys2Proof.Machine.execTileRemap t s
  | .patrolScrub g => Sys2Proof.Machine.execPatrolScrub g s
  | .watchdogBeat => Sys2Proof.Machine.execWatchdogBeat s
  | .watchdogPeriodWrite v => Sys2Proof.Machine.execWatchdogPeriodWrite v s
  | .watchdogExpiry => Sys2Proof.Machine.execWatchdogExpiry s
  | .residentAdopt => Sys2Proof.Machine.execResidentAdopt s
  | .residentResume => Sys2Proof.Machine.execResidentResume s
  | .extentAdd port frame n block shared => Sys2Proof.Machine.execExtentAdd port frame n block shared s
  | .extentRelease frame n => Sys2Proof.Machine.execExtentRelease frame n s
  | .coldReset => Sys2Proof.Machine.execColdReset s
  | .warmReset => Sys2Proof.Machine.execWarmReset s
  | .bootTimeout => Sys2Proof.Machine.execBootTimeout s
  | .bootokWrite => Sys2Proof.Machine.execBootokWrite s
  | .mctpControl data => Sys2Proof.Machine.execMctpControl data s
  | .sidebandOtherMessage ty => Sys2Proof.Machine.execSidebandOtherMessage ty s
  | .getVersion => Sys2Proof.Machine.execGetVersion s
  | .getCapabilities => Sys2Proof.Machine.execGetCapabilities s
  | .negotiateAlgorithms => Sys2Proof.Machine.execNegotiateAlgorithms s
  | .getDigests => Sys2Proof.Machine.execGetDigests s
  | .getCertificate => Sys2Proof.Machine.execGetCertificate s
  | .challenge => Sys2Proof.Machine.execChallenge s
  | .getMeasurements n => Sys2Proof.Machine.execGetMeasurements n s
  | .sensorThreshold die idx e => Sys2Proof.Machine.execSensorThreshold die idx e s
  | .thermalClockStep die => Sys2Proof.Machine.execThermalClockStep die s
  | .heartbeatSend link => Sys2Proof.Machine.execHeartbeatSend link s
  | .linkdown link => Sys2Proof.Machine.execLinkdown link s
  | .freezeFlitArrival tag => Sys2Proof.Machine.execFreezeFlitArrival tag s
  | .heartbeatArrival link => Sys2Proof.Machine.execHeartbeatArrival link s
  | .rowSpareDone tile row => Sys2Proof.Machine.execRowSpareDone tile row s
  | .hbmRepairDone stack bank row => Sys2Proof.Machine.execHbmRepairDone stack bank row s
  | .handlePostLost => Sys2Proof.Machine.execHandlePostLost s

end Sys2Proof.Machine
end

