-- ==== Sys2Proof/Machine/Cycle.lean ====
section
/-! DEFINITION. One cycle of a tile, of a consist or of a profile G core: entries at the boundary, the choice of a strand,
the issue of a bundle (R28 to R33, R58 to R68, R263 to R267, R322), and what engines and the hub do meanwhile. -/

namespace Sys2Proof.Machine

/-! ## Issue of a bundle -/

/-- The word ran, and the next follows. -/
def Ctl.issued : Ctl → Bool
  | .ran | .taken | .started => true
  | .trapped .. | .holds => false

/-- A paired bundle does not issue as a whole: it holds, or takes the precise trap of its word (R30, R31, R33). What s
was before it stands, with the count of free values. -/
def State.unpaired (s after : State) : State :=
  let s := { s with free := after.free, issue := { s.issue with w1 := false, paired := true } }
  match after.issue.ctl with
  | .trapped c v p => s.trapPort c v p
  | _ => s.hold

/-- ERET, which moves the strand, comes after its partner. -/
def isEret : Instr → Bool
  | .eret => true
  | _ => false

/-- What a word meets before its bundle issues: a hold, or the trap of a port that it names (R77, R84: neither word issues). The
subcodes of R196 from 16 on are those of a record, at execution. -/
def Ctl.beforeIssue : Ctl → Bool
  | .holds => true
  | .trapped c v _ => (c == cSTREAMCFG && decide (v.toNat % 256 < 16)) || c == cSTREAMFAULT
  | .ran | .taken | .started => false

/-- Word 0 has trapped at execution (R31), which it does only where its partner lets the bundle issue (R30): s was before
the bundle, s1 is after the trap. -/
def State.partnered (s s1 : State) (j : Instr) (raw : Nat) : State :=
  if s1.issue.ctl.beforeIssue then s1
  else match exec j { s with issue := { s.issue with raw := raw, w1 := true, paired := true } } with
    | .next s2 => if s2.issue.ctl.beforeIssue then s.unpaired s2 else s1
    | _ => s1

/-- The port that a QCFG or a QCLOSE sets up or ends. -/
def portSet : Instr → Option PortNo
  | .qcfg p _ => some p
  | .qclose p => some p
  | _ => none

/-- A word j beside a QCFG or a QCLOSE of port p, which has run: s was before the bundle, s1 is after it. The word meets the port, and
the locks of the tile, as they stood before (R30). What it pushes to that very port is lost with what the port held (log 43). -/
def State.runBeside (s s1 : State) (j : Instr) (p : PortNo) (raw : Nat) : Out :=
  let locks := fun (v o : State) => v.mapTile (tileOf s.cur) (fun x => { x with locks := (o.tile (tileOf s.cur)).locks })
  let u := locks (s1.setPort s.cur p (s.port s.cur p)) s
  match exec j { u with issue := { u.issue with raw := raw, w1 := true, paired := true, ctl := .ran } } with
  | .next s2 =>
    .next (if s2.issue.ctl.issued then locks (s2.setPort s.cur p (s1.port s.cur p)) s1 else s.unpaired s2)
  | o => o

/-- The words of a paired bundle, as they run: first and second, each with its bits and index (R30). -/
def runPair (s : State) (w0 w1 : Nat) (i j : Instr) : Out :=
  let (a, ra, xa, b, rb, xb) : Instr × Nat × Bool × Instr × Nat × Bool :=
    if isEret i then (j, w1, true, i, w0, false) else (i, w0, false, j, w1, true)
  match exec a { s with issue := { s.issue with raw := ra, w1 := xa, paired := true } } with
  | .next s1 =>
    if !s1.issue.ctl.issued then .next (if xa then s.unpaired s1 else s.partnered s1 b rb)
    else match portSet a with
      | some p => s.runBeside s1 b p rb
      | none =>
        match exec b { s1 with issue := { s1.issue with raw := rb, w1 := xb, paired := true, ctl := .ran } } with
        | .next s2 => .next (if s2.issue.ctl.issued || !xb then s2 else s.unpaired s2)
        | o => o
  | o => o

/-- A plan runs on the moving core. -/
def State.run (s : State) (w0 w1 : Nat) : Plan → Out
  | .one i => exec i { s with issue := { s.issue with raw := if s.issue.w1 then w1 else w0 } }
  | .pair i j => runPair s w0 w1 i j

/-- The fetch has faulted: precise at the target (R122), and DOUBLE for the first handler bundle (R330). -/
def State.fetchFault (s : State) (h : Nat) (c : Cause) : State :=
  let x := s.hart h
  match x.undelivered with
  | some u => { s with issue := { s.issue with ctl := .trapped c x.pc none } }.freeze h .fetch (u.tcause.setWidth 8) c u
  | none => s.trap c x.pc

/-- A breakpoint is taken (R340). -/
def State.breakEntry (s : State) (h b : Nat) : State :=
  { s with issue := { s.issue with ctl := .trapped cBREAK (BitVec.ofNat 64 (b + 1)) none } }.takeEntry h
    { code := cBREAK, tval := BitVec.ofNat 64 (b + 1), bpskip := true }

/-- MATOWN, whose TVAL the manual does not state. -/
def State.ownerTrap (s : State) : State :=
  let (v, s) := s.draw 64
  s.trap cMATOWN v

/-- The strand or core is the one that moves, with nothing done yet. -/
def State.at (s : State) (h : Nat) : State := { s with cur := h, issue := { w1 := (s.hart h).w1 } }

/-- What follows the breakpoints: decode checks, owner, interlocks, and the words. -/
def State.issueWords (s : State) (h w0 w1 : Nat) : Out :=
  match s.decodeChecks h w0 w1 with
  | .error (c, v) => .next (s.trap c v)
  | .ok p =>
    if isT h && s.notOwner h w0 w1 then .next s.ownerTrap
    else if s.stalled h p then .next s.hold
    else s.run w0 w1 p

/-- What follows the fetch. Word 1 of a split bundle is checked against the owner and the mode as word 0 has left them (log 108). -/
def State.issueBundle (s : State) (h w0 w1 : Nat) : Out :=
  match s.breakHit h (!lBit w0) with
  | some b => .next (s.breakEntry h b)
  | none => s.issueWords h w0 w1

/-- A strand that waits in COUPLE keeps the bundle that it has fetched: it finishes that when the consist has formed (R263). -/
def keepCouple (h : Nat) (pc : Word) (w0 w1 : Nat) : Out → Out
  | .next s => .next (if (s.hart h).coupling.isSome then s.mapHart h (fun x => { x with couple := some (pc, w0, w1) }) else s)
  | o => o

/-- A strand or core at its issue boundary, with no entry pending: it issues, holds or traps. A breakpoint on the next
word comes before the fault of its fetch (R322). -/
def State.attempt (s : State) (h : Nat) : Out :=
  let s := s.at h
  if (s.hart h).ereting then .next s.hold
  else match s.fetch h with
    | (.error c, s) => match s.breakHit h false with
      | some b => .next (s.breakEntry h b)
      | none => .next (s.fetchFault h c)
    | (.ok (w0, w1), s) => keepCouple h (s.hart h).pc w0 w1 (s.issueBundle h w0 w1)

/-- The end of an issue: an MTC of the bundle takes effect (R132), one to LOOPC after the loop test of its own paired bundle (log
110); the strand is the last issuer unless it has started a launch (R221), and STEP is due after a USER word (R341). was is
the strand before it issued. -/
def State.settle (s : State) (h : Nat) (was : Hart) : State :=
  let s : State := match (s.hart h).mtcPend with
    | some (n, v) => (s.setCreg h n v).mapHart h (fun x => { x with mtcPend := none })
    | none => s
  let t := s.tile (tileOf h)
  let stepped := isT h && was.priv == .user && t.dbgctl.getLsbD (1 + (strandOf h).val)
  let s := s.mapHart h (fun x => { x with
    undelivered := none, bpskip := x.bpskip && was.priv != .user, waited := 0
    step := if stepped && x.run == .running then some (was.pc + if was.w1 then 4 else 0) else x.step })
  if isT h && s.issue.ctl != .started then s.mapTile (tileOf h) (fun x => { x with last := strandOf h }) else s

/-- The end of a tile's cycle: lane groups are dealt, and results land in the next advancing cycle (R58, R59, R73). What
landed in this one, and what commands set in MSTAT, is past (R101, R185); flags of a fixed latency are past with their advancing
cycle, in which the cycles held before it count (log 109). -/
def State.tick (s : State) (t : Nat) (adv : Bool) : State :=
  let s := s.bindCycle t
  let s := s.mapTile t (fun x =>
    { x with adv := x.adv + (if adv then 1 else 0), fresh := 0, ternLanded := x.ternLanded && !adv })
  four.foldl (fun s i =>
    let h := 4 * t + i.val
    let s := s.mapHart h (fun x => { x with landed := if adv then 0 else x.landed, landedNow := 0 })
    s.landDue h (landsBy (s.tile t).adv)) s

/-- A bubble cycle of a strand or core (R64). -/
def State.bubbled (s : State) (h : Nat) : State := s.mapHart h (fun x => { x with bubble := x.bubble - 1 })

/-- The strand or core can issue now, as far as its own state tells. -/
def Hart.canIssue (x : Hart) : Bool := x.run == .running && x.bubble == 0

/-! ## A tile in fixed mode (R58, R59) -/

/-- What an issue attempt leaves, after its cycle: a strand held at USER does not advance the cycle. -/
def State.afterAttempt (s : State) (h : Nat) (was : Hart) : State :=
  match s.issue.ctl with
  | .holds => s.tick (tileOf h) (was.priv != .user)
  | .trapped .. => s.tick (tileOf h) true
  | _ => (s.settle h was).tick (tileOf h) true

/-- A cycle of a fixed-mode tile outside a consist. A strand that is frozen in its SCALL has not issued it, and waits there (R59). -/
def State.fixedCycle (s : State) (t : Nat) : Out :=
  let h := 4 * t
  match s.boundary h with
  | some s => .next (s.tick t true)
  | none =>
    let x := s.hart h
    if x.run ≠ .running then .next (s.tick t (x.run != .frozen .callRing))
    else if x.bubble ≠ 0 then .next ((s.bubbled h).tick t true)
    else match s.attempt h with
      | .next s => .next (s.afterAttempt h x)
      | o => o

/-! ## A tile in shared mode (R63 to R67) -/

/-- Entries at the boundaries of the tile's strands; the strands that took one. -/
def State.entries (s : State) (t : Nat) : State × List (Fin 4) :=
  four.foldl (fun (p : State × List (Fin 4)) i => match p.1.boundary (4 * t + i.val) with
    | some s => (s, i :: p.2)
    | none => p) (s, [])

/-- Of some strands those that are ready; what a strand does that holds stays done. -/
def State.readyOf (s : State) (t : Nat) : List (Fin 4) → State × List (Fin 4)
  | [] => (s, [])
  | i :: is =>
    match s.attempt (4 * t + i.val) with
    | .next s' =>
      if s'.issue.ctl = .holds then s'.readyOf t is
      else
        let (s, r) := s.readyOf t is
        (s, i :: r)
    | _ =>
      let (s, r) := s.readyOf t is
      (s, i :: r)

/-- The wait counts of R66: a ready strand that does not issue waits one cycle more. -/
def State.countWaits (s : State) (t : Nat) (ready : List (Fin 4)) : State :=
  four.foldl (fun s i => s.mapHart (4 * t + i.val) (fun x => { x with waited := if ready.contains i then x.waited + 1 else 0 })) s

/-- A cycle of a shared-mode tile. A YIELD of the cycle before is over with the choice of a strand (R68). -/
def State.sharedCycle (s : State) (t : Nat) : Out :=
  let (s, entered) := s.entries t
  let (s, ready) := s.readyOf t (four.filter (fun i =>
    !entered.contains i && (s.hart (4 * t + i.val)).canIssue && !(s.hart (4 * t + i.val)).stepWaits true))
  let s := four.foldl (fun s i => s.bubbled (4 * t + i.val)) s
  let choice := s.arbitrate t ready
  let s := (s.countWaits t ready).mapTile t (fun x => { x with yielded := false })
  match choice with
  | none => .next (s.tick t true)
  | some (i, x) =>
    let h := 4 * t + i.val
    let was := s.hart h
    match (s.setTile t { x with yielded := false }).attempt h with
    | .next s => .next (s.afterAttempt h was)
    | o => o

/-! ## A consist (R263 to R267) -/

/-- A member is retired: the others stop, as after its trap (R266, R379). -/
def State.retiredMate (s : State) (ms : List Nat) : Option State :=
  (ms.find? (fun u => (s.tile u).presence == .retired)).map (fun u => (s.markRest u).stopMates u)

/-- What a member did: it issued, or the cycle ends with its hold or its trap. -/
inductive Turn where
  | issued (s : State)
  | ends (s : State)
  | other (o : Out)

/-- The turn of a member whose attempt gave an outcome. -/
def Turn.of (o : Out) : Turn :=
  match o with
  | .next s => if s.issue.ctl.issued then .issued s else .ends s
  | o => .other o

/-- A follower's forwarded word runs: transfer decisions are the leader's, everything else is its own (R265). One that uncouples with
it goes on by its own fetch, after the bubbles that the leader had (R64, R267). -/
def State.follow (s : State) (m : Nat) (w : FwdWord) : Out :=
  let h := 4 * m
  let s := s.mapHart h (fun x => { x with pc := w.pc, w1 := w.at1 })
  let s := { s.at h with issue := { w1 := w.at1, fwd := some w, dealt := w.dealt } }
  match s.breakHit h w.w1.isSome with
  | some b => .next (s.breakEntry h b)
  | none =>
    let p : Option Plan := match decodeWord w.w0, w.w1.map decodeWord with
      | .ok i, none => some (.one i)
      | .ok i, some (.ok j) => some (.pair i j)
      | _, _ => none
    match p with
    | none => .next s.illegal
    | some p =>
      if s.stalled h p then .next s.hold
      else match s.run w.w0 (w.w1.getD w.w0) p with
        | .next s =>
          if s.issue.ctl.issued then
            let alone := decide ((s.tile m).csize ≤ 1)
            .next (s.mapHart h (fun x => { (x.setLoops w.loops) with
              pc := w.nextPc, w1 := w.nextW1, bubble := if alone then w.bubble else 0 }))
          else .next s
        | o => o

/-- What the leader has issued, as it goes down the line. -/
def forwarded (w0 w1 : Nat) (was after : Hart) (dealt : Option (Word × Word)) : FwdWord :=
  { w0 := if was.w1 then w1 else w0
    w1 := if was.w1 || lBit w0 then none else some w1
    pc := was.pc, at1 := was.w1, nextPc := after.pc, nextW1 := after.w1, loops := after.loops, bubble := after.bubble
    dealt := dealt }

/-- The members that wait in the COUPLE that has formed the consist finish the bundle that they have fetched, in the cycle in which it
has formed: those that have, and what the last one did (R263). -/
def State.finishCouple (s : State) : List Nat → List Nat × Turn
  | [] => ([], .issued s)
  | m :: ms =>
    let x := s.hart (4 * m)
    match x.coupled, x.couple with
    | true, some (_, w0, w1) =>
      match Turn.of ((s.at (4 * m)).issueWords (4 * m) w0 w1) with
      | .issued s' =>
        let r := ((s'.settle (4 * m) x).tick m true).finishCouple ms
        (m :: r.1, r.2)
      | r => ([], r)
    | _, _ => s.finishCouple ms

/-- The first hold or trap among followers; what a follower does that holds stays done. -/
def State.followersHold (s : State) : List Nat → Option Turn
  | [] => none
  | m :: ms =>
    match (s.tile m).line.head?.join with
    | none => s.followersHold ms
    | some w => match Turn.of (s.follow m w) with
      | .issued _ => s.followersHold ms
      | .ends s' => some (.ends { s' with issue := { s'.issue with fwd := none } })
      | .other o => some (.other o)

/-- Every follower issues the head of its line, one after the other. -/
def State.followEach (s : State) : List Nat → Turn
  | [] => .issued s
  | m :: ms =>
    let was := s.hart (4 * m)
    let s' := s.mapTile m (fun x => { x with line := x.line.drop 1 })
    match (s.tile m).line.head?.join with
    | none => s'.followEach ms
    | some w => match Turn.of (s'.follow m w) with
      | .issued u => ((u.settle (4 * m) { was with pc := w.pc, w1 := w.at1 }).mapHart (4 * m) (·.setLoops w.loops)).followEach ms
      | r => r

/-- The followers issue, the first member first, or the last one first where one of them holds or traps after another's word
(log 134). -/
def State.followAll (s : State) (fs : List Nat) : Turn :=
  match s.followEach fs with
  | .ends _ => s.followEach fs.reverse
  | r => r

/-- What the leader has issued goes down the line, to the followers that are coupled still. -/
def State.passDown (s : State) (fw : Option FwdWord) (fs : List Nat) : State :=
  fs.foldl (fun s m => s.mapTile m (fun x => if 1 < x.csize then { x with line := x.line ++ [fw] } else x)) s

/-- The cycle of all members ends. -/
def State.tickAll (s : State) (ms : List Nat) (adv : Bool) : State := ms.foldl (fun s m => s.tick m adv) s

/-- The leader waits in a BARW, whose barrier may need words that followers have yet to issue: it passes bubbles (log 27). -/
def State.bubblesOn (s : State) (lead : Nat) (ms : List Nat) : Bool :=
  ms.any (fun m => (s.tile m).line.any (·.isSome))
    && (match s.fetch (4 * lead) with
      | (.ok (w0, w1), _) => match decodeWord (if (s.hart (4 * lead)).w1 then w1 else w0) with
        | .ok (.barw _ _) => true
        | _ => false
      | _ => false)

/-- The leader's word has been attempted: what it did, and what it passes down. was is the state before. -/
def State.leaderTurn (s was : State) (lead : Nat) : Turn × Option FwdWord :=
  let x := was.hart (4 * lead)
  match Turn.of (s.attempt (4 * lead)) with
  | .issued s' =>
    let (w0, w1) : Nat × Nat := match was.fetch (4 * lead) with
      | (.ok w, _) => w
      | _ => (0, 0)
    let u := s'.settle (4 * lead) x
    (.issued u, some (forwarded w0 w1 x (u.hart (4 * lead)) s'.issue.dealt))
  | r => (r, none)

/-- A cycle in which the words of the members cannot issue together in any order tried: they all wait (log 134). -/
def State.consistHold (s : State) (ms : List Nat) : Out := .next (s.tickAll ms false)

/-- Only followers issue, and a bubble goes down the line: s is with what the leader does meanwhile, was before. -/
def State.consistBubble (s was : State) (fs ms : List Nat) : Out :=
  match s.followAll fs with
  | .issued u => .next ((u.passDown none fs).tickAll ms true)
  | .ends _ => was.consistHold ms
  | .other o => o

/-- Leader and followers issue in one cycle: the leader's word has given u and passes fw down. Where a follower holds or traps after
it, which it does not by itself, the followers issue first (log 134). -/
def State.consistIssue (s u : State) (lead : Nat) (fs ms : List Nat) (fw : Option FwdWord) : Out :=
  match u.followAll fs with
  | .issued v => .next ((v.passDown fw fs).tickAll ms true)
  | .other o => o
  | .ends _ => match s.followAll fs with
    | .other o => o
    | .ends _ => s.consistHold ms
    | .issued v => match v.leaderTurn s lead with
      | (.issued v, fw) => .next ((v.passDown fw fs).tickAll ms true)
      | (.ends _, _) => s.consistHold ms
      | (.other o, _) => o

/-- The leader has no word to issue in this cycle, or a word whose attempt gave s'. After an ERET every member is in the
bubbles of the resumption (R266). -/
def State.consistBody (s : State) (lead : Nat) (ms : List Nat) : Out :=
  let fs := ms.filter (· != lead)
  let leads := ms.contains lead && (s.hart (4 * lead)).canIssue
  let s1 := if ms.contains lead && decide (0 < (s.hart (4 * lead)).bubble) then s.bubbled (4 * lead) else s
  let stop := fun (r : Turn) (go : Out) => match r with
    | .ends s' => .next (s'.tickAll ms (s'.issue.ctl != .holds))
    | .other o => o
    | .issued _ => go
  let alone := fun (s : State) => (s.followersHold fs).getD (.issued s)
  if fs.any (fun m => (s.hart (4 * m)).bubble != 0) then .next ((ms.foldl (fun s m => s.bubbled (4 * m)) s).tickAll ms true)
  else if !leads then stop (alone s) (s1.consistBubble s fs ms)
  else match s.leaderTurn s lead with
    | (.ends s', _) =>
      if s'.issue.ctl = .holds && s.bubblesOn lead fs then stop (alone s') (s'.consistBubble s' fs ms)
      else stop (.ends s') (.next s)
    | (.issued u, fw) => stop (alone s) (s.consistIssue u lead fs ms fw)
    | (.other o, _) => o

/-- The first member of a consist that takes an entry at its boundary. -/
def State.firstEntry (s : State) : List Nat → Option State
  | [] => none
  | m :: ms =>
    match s.boundary (4 * m) with
    | some s => some s
    | none => s.firstEntry ms

/-- A cycle of a member at USER while others are in handlers: its HALT has issued, and its results land (log 39). -/
def State.haltedCycle (s : State) (t : Nat) : Out :=
  if (s.hart (4 * t)).run = .halting ∧ (s.tile t).presence = .present then .next (((s.boundary (4 * t)).getD s).tick t true)
  else .next s

/-- A member stands apart from its consist's program: it is in a handler, is not there, or is frozen in its SCALL (R266, R330). -/
def State.apart (s : State) (m : Nat) : Bool :=
  (s.tile m).presence != .present || (s.hart (4 * m)).priv != .user || (s.hart (4 * m)).run == .frozen .callRing

/-- A cycle of the consist of a tile at USER. The leader's next bundle comes in the cycle after that in which the consist has formed
(R263). -/
def State.consistCycle (s : State) (t : Nat) : Out :=
  let ms := s.members t .consist
  let lead := t - (s.tile t).cpos
  match if ms.any s.apart then ([], Turn.issued s) else s.finishCouple ms with
  | (done, .ends s) => .next (s.tickAll (ms.filter (!done.contains ·)) (s.issue.ctl != .holds))
  | (_, .other o) => o
  | (done, .issued s) =>
    if !done.isEmpty then .next s
    else match s.retiredMate ms with
      | some s => .next (s.tickAll ms true)
      | none =>
        if ms.any s.apart then s.haltedCycle t
        else match s.firstEntry ms with
          | some s => .next (s.tickAll ms true)
          | none => s.consistBody lead ms

/-! ## One cycle -/

/-- Strand 0 issues with its consist. -/
def State.coupledUser (s : State) (t : Nat) : Bool := decide (1 < (s.tile t).csize) && (s.hart (4 * t)).priv == .user

/-- The tiles whose cycle the cycle of tile t is: its consist at USER, or itself. -/
def State.movers (s : State) (t : Nat) : List Nat := if s.coupledUser t then s.members t .consist else [t]

/-- A cycle of tile t. A tile that is absent, stopped or retired issues nothing. -/
def State.tileCycle (s : State) (t : Nat) : Out :=
  if (s.tile t).presence ≠ .present then .next s
  else if s.coupledUser t then s.consistCycle t
  else if (s.tile t).shared then s.sharedCycle t
  else s.fixedCycle t

/-- A cycle of a profile G core (R403). -/
def State.gcoreCycle (s : State) (h : Nat) : Out :=
  match s.boundary h with
  | some s => .next s
  | none =>
    let x := s.hart h
    if x.run ≠ .running then .next s
    else if x.bubble ≠ 0 then .next (s.bubbled h)
    else match s.attempt h with
      | .next s => .next (if s.issue.ctl.issued then s.settle h x else s)
      | o => o

/-- The results of a profile G core that are due land; what landed in the cycle before is past (R101). -/
def State.landCore (s : State) (h : Nat) : State :=
  (s.mapHart h (fun x => { x with landed := 0, landedNow := 0 })).landDue h (landsBy s.clk)

/-- The cycle is over: the clock has passed it, and the core that State.cur named is named still. -/
def State.passed (s : State) (h : Nat) : State :=
  if isT h then { s with cur := h, clk := s.clk + 2 } else { s with cur := h, clk := s.clk + 1 }.landCore h

/-- A cycle of the tile of a strand, in which commands start that issued before it (R170), or of a profile G core. -/
def State.cycle (s : State) (h : Nat) : Out :=
  if isT h then
    match s.tileCycle (tileOf h) with
    | .next s' => .next (((s.movers (tileOf h)).foldl (fun s t => s.seqBegin t) s').passed h)
    | o => o
  else
    match s.gcoreCycle h with
    | .next s => .next (s.passed h)
    | o => o

/-! ## What goes on by itself -/

/-- A PUTQ that stays in the package is delivered, and so is a handle's weight. -/
def State.localDeliveries (s : State) : State :=
  let here := fun (m : PutqMsg) => Target.bad m.target || !Target.remote m.target s.pkgnum
  let l := s.movingPutqs
  let s := match (firstOfWay s.sameWay l).findIdx? (fun i => (l[i]?).any here) with
    | some k => s.putqNext k 0
    | none => s
  let home := fun (m : Post) => Handle.pkg m.handle == s.pkgnum
  match (firstOfWay Post.sameWay s.posts).find? (fun i => (s.posts[i]?).any home) with
  | some i => match s.posts[i]? with
    | some m => { s with posts := s.posts.eraseIdx i }.deliverPost m
    | none => s
  | none => s

/-- The copy channels of a tile, or of a profile G core. -/
def State.chansTick (s : State) (u : Nat) : State := four.foldl (fun s c => s.chanTick u c) s

/-- What engines and the hub do for a tile in its cycle. -/
def State.tileProgress (s : State) (t : Nat) : State :=
  let s := (s.switchTick.seqTick t).chansTick t
  let s := four.foldl (fun s i =>
    ([0, 1, 2, 3, 4, 5, 6, 7] : List PortNo).foldl (fun s p => s.portTick (4 * t + i.val) p) s) s
  let s := four.foldl (fun s i => (s.redeliver (4 * t + i.val)).haltRetire (4 * t + i.val)) (s.freezeDone t)
  ((s.localDeliveries.barrierTick t).launchTick t)

/-- The same for a profile G core. -/
def State.coreProgress (s : State) (h : Nat) : State := (s.localDeliveries.chansTick (512 + gcoreOf h)).redeliver h

/-- What goes on in the cycle of a strand's tile, or of a core. -/
def State.progress (s : State) (h : Nat) : State :=
  if isT h then (s.movers (tileOf h)).foldl (fun s t => s.tileProgress t) s else s.coreProgress h

/-! ## Moves -/

/-- An error arises in a granule of device memory (R380). -/
def State.corrupt (s : State) (g : Nat) : State :=
  match physKind (64 * g) with
  | .hbm | .cxl => if s.bad.contains g then s else { s with bad := g :: s.bad }
  | _ => s

/-- The logical number names a tile of the package (R12). -/
def State.hasTile (s : State) (t : Nat) : Bool := decide (t < 512) && (s.physTile t).isSome

/-- An error arises in a granule of a tile's scratchpad. -/
def State.corruptTile (s : State) (t g : Nat) : State :=
  if s.hasTile t = false ∨ scratchSize / 64 ≤ g ∨ (s.tile t).bad.contains g = true then s else s.mapTile t (fun x => { x with bad := g :: x.bad })

/-- A step of the package that comes by itself or from outside: no word, no part of a word's effect, and no store to a hub
register, each of which something that runs brings about. -/
def spontaneous (i : Instr) : Bool :=
  match i with
  | .wfeDeadline .. | .haltRetire .. | .resultLand .. | .variableResultLand .. | .shadowReland ..
  | .vectorPartBind .. | .seqCommandStart .. | .mmaRetire .. | .mzeroRetire .. | .maccRetire ..
  | .mdrainRetire .. | .mdrainsRetire .. | .chainSendDone .. | .chainMessageArrival .. | .chainReceiveRetire ..
  | .ringstarved .. | .streamFetch .. | .streamWrite .. | .ringTileAdvance .. | .streamCloseDone ..
  | .copyTransferStart .. | .copyTransferComplete .. | .putqDelivery .. | .chipLinkArrival ..
  | .enginePageFault .. | .engineReplay .. | .translationFill .. | .barrierCompletion .. | .consistForm ..
  | .consistResume .. | .trapEntry .. | .faultRecordWrite .. | .engineFrozen .. | .switchStop ..
  | .switchSave .. | .switchRestore .. | .yardAdmit .. | .yardPriorityAge .. | .yardIdleRelease ..
  | .packetTake .. | .signalBoxEvent | .launchPlace .. | .monitorEntry .. | .launchCompletion ..
  | .launchEndDone .. | .handlePost | .recallDeadline .. | .recallDrainDone .. | .keyRegenerate ..
  | .dmaWrite .. | .dmaRead .. | .correctedError .. | .linkRetrainDone .. | .uncorrectableError ..
  | .tileRemap .. | .patrolScrub .. | .watchdogExpiry .. | .residentAdopt .. | .extentAdd ..
  | .extentRelease .. | .coldReset .. | .warmReset .. | .bootTimeout .. | .mctpControl ..
  | .sidebandOtherMessage .. | .getVersion .. | .getCapabilities .. | .negotiateAlgorithms .. | .getDigests ..
  | .getCertificate .. | .challenge .. | .getMeasurements .. | .sensorThreshold .. | .thermalClockStep ..
  | .heartbeatSend .. | .linkdown .. | .freezeFlitArrival .. | .heartbeatArrival .. | .rowSpareDone ..
  | .hbmRepairDone .. | .handlePostLost => true
  | .add .. | .sub .. | .and .. | .or .. | .xor .. | .andn .. | .sll .. | .srl .. | .sra .. | .rol .. | .slt ..
  | .sltu .. | .min .. | .max .. | .minu .. | .maxu .. | .clz .. | .ctz .. | .popc .. | .sel .. | .mul ..
  | .mulh .. | .mulhu .. | .div .. | .divu .. | .rem .. | .remu .. | .lea .. | .bfx .. | .bfi .. | .faddS ..
  | .fsubS .. | .fmulS .. | .fminS .. | .fmaxS .. | .fcvtSW .. | .fcvtWS .. | .feqS .. | .fltS .. | .fleS ..
  | .fmaS .. | .fcvtSBf .. | .fcvtBfS .. | .addi .. | .andi .. | .ori .. | .xori .. | .slli .. | .srli ..
  | .srai .. | .slti .. | .lui .. | .luih .. | .beq .. | .bne .. | .blt .. | .bge .. | .bltu .. | .bgeu ..
  | .jal .. | .jalr .. | .loop .. | .beos .. | .trap .. | .eret .. | .wfe .. | .yield .. | .halt .. | .brk ..
  | .scall .. | .mfc .. | .mtc .. | .modeWrite .. | .arbWrite .. | .vshareWrite .. | .mownerWrite ..
  | .fflagsWrite .. | .mstatWrite .. | .loopcWrite .. | .lb .. | .lbu .. | .lh .. | .lhu .. | .lw .. | .lwu ..
  | .ld .. | .sb .. | .sh .. | .sw .. | .sd .. | .vld .. | .vst .. | .vlds .. | .vsts .. | .vgth .. | .vsct ..
  | .lda .. | .stl .. | .amoadd .. | .amoand .. | .amoor .. | .amoxor .. | .amomin .. | .amomax ..
  | .amominu .. | .amomaxu .. | .amoswap .. | .amocas .. | .fence .. | .putq .. | .qcfg .. | .qget ..
  | .qput .. | .qclose .. | .qstat .. | .cpyset .. | .cpysetClrerr .. | .cpygo .. | .cpywait .. | .cpystat ..
  | .bar .. | .barw .. | .phase .. | .couple .. | .uncouple .. | .inbx .. | .jnext .. | .jnextCovered ..
  | .larm .. | .gdisp .. | .gjoin .. | .sigw .. | .sigs .. | .hnew .. | .hcopy .. | .hdrop .. | .hbind ..
  | .hquery .. | .foffer .. | .faccept .. | .flend .. | .frecall .. | .frelease .. | .fquery .. | .tlbi ..
  | .flush .. | .inval .. | .vadd .. | .vsub .. | .vmul .. | .vmulh .. | .vmin .. | .vmax .. | .vminu ..
  | .vmaxu .. | .vand .. | .vor .. | .vxor .. | .vandn .. | .vsll .. | .vsrl .. | .vsra .. | .vrol ..
  | .vsadd .. | .vssub .. | .vavg .. | .vabs .. | .vfadd .. | .vfsub .. | .vfmul .. | .vfabd .. | .vfma ..
  | .vfms .. | .vfnma .. | .vfnms .. | .vfmin .. | .vfmax .. | .vfneg .. | .vfabs .. | .vfdiv .. | .vfsqrt ..
  | .vfrcp .. | .vfrsq .. | .vfexp2 .. | .vflog2 .. | .vftanh .. | .vfsigm .. | .vcmpEq .. | .vcmpNe ..
  | .vcmpLt .. | .vcmpLe .. | .vfcmpEq .. | .vfcmpNe .. | .vfcmpLt .. | .vfcmpLe .. | .vsel .. | .vmov ..
  | .kand .. | .kor .. | .kxor .. | .kandn .. | .knot .. | .kpop .. | .kfirst .. | .kset .. | .vbcast ..
  | .vins .. | .vext .. | .vslide .. | .vperm .. | .vrot .. | .vzip .. | .vunzip .. | .vrsum .. | .vrmax ..
  | .vrfmax .. | .vrmin .. | .vrfmin .. | .vrfsum .. | .vcvt .. | .vpack .. | .vunpk .. | .vlut .. | .vscale ..
  | .vmovi .. | .mma .. | .mmasN6 .. | .mmasN8 .. | .mmasN12 .. | .mzero .. | .mdrain .. | .mdrains ..
  | .mchainSend .. | .mchainRecv .. | .mchainRelay .. | .mcbk .. | .mrset .. | .mradv .. | .mrstat ..
  | .mwait .. | .mseq .. | .macc .. | .kickInterrupt .. | .kickRestart .. | .breakpointTableLoad ..
  | .engineFreeze .. | .engineUnfreeze .. | .switchArm .. | .notifyWrite .. | .eretStart .. | .endRequest ..
  | .queueRegister .. | .queueRemove .. | .contextRegister .. | .contextUnregister .. | .partitionWrite ..
  | .rootWrite .. | .eventFrameWrite .. | .pkgnumWrite .. | .hubRegisterWrite .. | .watchdogBeat ..
  | .watchdogPeriodWrite .. | .residentResume .. | .bootokWrite .. => false

/-- A move. -/
def State.perform (s : State) : Move → Out
  | .event i => if spontaneous i then exec i s else .next s
  | .core h =>
    if s.power = .off then .fault .poweredOff
    else if !isCore h then .fault .noCore
    else
      let s := { s with cur := h }
      if s.lit then s.switchTick.cycle h else .next s
  | .store pa size v byMonitor => s.hubStore pa size v byMonitor
  | .evict n => .next { s with tlb := s.tlb.eraseIdx n }
  | .corrupt g => .next (s.corrupt g)
  | .corruptTile t g => .next (s.corruptTile t g)
  | .tileError t => onPackage s fun s => .next (if s.hasTile t then s.retireTile t else s)
  | .otherHost pa data => .next (s.hostStore pa data)
  | .dmaAtomic port va data => execDmaAtomic port va data s
  | .startFails reason => execStartFails reason s
  | .measure i => execMeasure i s
  | .recovery => execRecovery s
  | .resetMessage b => execResetMessage b s
  | .turn n => .next { s with turn := n }
  | .floodFreeze p => onPackage s fun s => .next (if p < 16 then s.floodFreeze p else s)
  | .sense n => onLit s fun s => .next (s.sense n)

/-- The core that State.cur names moves, and what goes on meanwhile goes on. -/
def State.moveCore (s : State) : Out :=
  if !isCore s.cur then .fault .noCore
  else if s.lit then (s.progress s.cur).cycle s.cur else .next s

/-! ## A word to be fetched next -/

/-- The core that fetches a word next: one of profile G for a word that profile T does not have. -/
def fetcher (s : State) (w : Nat) : Nat :=
  match decodeWord w with
  | .ok i => if isT s.cur && unavailable false false i == some cILLEGAL then Config.strands + 12 else s.cur
  | .error _ => s.cur

/-- The strand or core h issues next, at the word of its bundle with the index w1. -/
def State.readyToFetch (s : State) (h : Nat) (w1 : Bool) : State :=
  let s := { s with cur := h, agenda := [], power := .on }.mapHart h (fun x => { x with
    w1 := w1, run := .running, bubble := 0, late := [], irqs := [], step := none, undelivered := none, ereting := false })
  if isT h then s.mapTile (tileOf h) (fun x => { x with presence := .present }) else s

/-- A bundle placed at the pc of a strand or core: in the scratchpad, or in device memory under a translation that its
cache holds. -/
def State.placeBundle (s : State) (h : Nat) (b : List Byte) : State :=
  let pc := (s.hart h).pc.toNat
  match isT h, classify pc with
  | true, .own off => s.writeLoc b (.scratch (tileOf h) off)
  | _, _ =>
    let rq := s.requester h (s.hart h).priv
    let e : TlbEntry :=
      { unit := rq.unit, kn := rq.kn.getD .monitor, asn := rq.asn, glob := false, va := pc / 2 ^ 16 * 2 ^ 16, sz := 16, pa := 0
        r := true, w := true, x := true, k := false, deadline := none }
    { s with tlb := e :: s.tlb }.writeLoc b (.phys (pc % 2 ^ 16))

end Sys2Proof.Machine
end

