-- ==== Sys2Proof/Machine/Step.lean ====
section
/-! DEFINITION. One step of the machine: the move at the head of the agenda, or a cycle of the core that State.cur names;
and a word placed where the next step fetches it. -/

namespace Sys2Proof.Machine

/-- One step. -/
def step (s : State) : Host.Outcome State Fault Refusal :=
  match s.agenda with
  | m :: ms => { s with agenda := ms }.perform m
  | [] => if s.power = .off then .fault .poweredOff else s.moveCore

/-- The instruction with bits w at the place where the next step fetches: alone in word 0 when its L bit is 1, else in
word 1 of a split bundle. -/
def State.withFetchWord (s : State) (_nbits w : Nat) : State :=
  let h := fetcher s w
  let one := lBit w
  (s.readyToFetch h (!one)).placeBundle h
    (if one then leBytes 4 w ++ leBytes 4 0 else leBytes 4 0x20000000 ++ leBytes 4 w)

end Sys2Proof.Machine
end

