-- ==== Sys2Proof/Safety.lean ====
section
/-! DEFINITION. What the claims are about: the canonical form of the machine's memories, states in which an instruction may
run, and the relations between a state and the next in which the claims say what an instruction changes. -/

namespace Sys2Proof.Machine

/-! ## Invariants -/

/-- Every byte memory of the machine is in its canonical form: device memory, the hub's registers, and the scratchpads of
the tiles and of the saved images. -/
def State.memoriesWf (s : State) : Prop :=
  Memory.wf s.mem = true ∧ Memory.wf s.io = true ∧ (∀ t ∈ s.tiles, Memory.wf t.2.scratch = true)
    ∧ (∀ i ∈ s.images, Memory.wf i.st.scratch = true)

/-- Steps in a row: s' follows from s. -/
inductive Steps : State → State → Prop
  | refl (s : State) : Steps s s
  | step {s t u : State} (h : step s = .next t) (r : Steps t u) : Steps s u

/-! ## Where an instruction runs -/

/-- The package is on and State.cur names a strand or a profile G core. -/
abbrev State.ready (s : State) : Prop := s.power = .on ∧ isCore s.cur = true
/-- It names a strand (profile T). -/
abbrev State.readyT (s : State) : Prop := s.power = .on ∧ isT s.cur = true
/-- It names a profile G core. -/
abbrev State.readyG (s : State) : Prop := s.power = .on ∧ isCore s.cur = true ∧ isT s.cur = false

/-! ## Loop levels (R123, R124) -/

/-- An address lies in the body of a level. -/
def LoopLevel.holds (l : LoopLevel) (t : Word) : Prop := l.first.toNat ≤ t.toNat ∧ t.toNat ≤ l.last.toNat

/-- The test after the bundle at pc: levels before, levels after, and the first bundle of the level that goes back. -/
inductive LoopEnd (pc : Word) : List LoopLevel → List LoopLevel → Option Word → Prop
  /-- No level ends at the bundle. -/
  | other (ls : List LoopLevel) (h : ∀ l ∈ ls.head?, l.last ≠ pc) : LoopEnd pc ls ls none
  /-- The innermost level ends at it with passes left. -/
  | again (l : LoopLevel) (ls : List LoopLevel) (h : l.last = pc) (n : 1 < l.count.toNat) :
      LoopEnd pc (l :: ls) ({ l with count := l.count - 1 } :: ls) (some l.first)
  /-- It ends at it with none left, and the outer level is tested at the same bundle. -/
  | pop (l : LoopLevel) {ls ls' : List LoopLevel} {t : Option Word} (h : l.last = pc) (n : l.count.toNat ≤ 1)
      (r : LoopEnd pc ls ls' t) : LoopEnd pc (l :: ls) ls' t

/-- A taken transfer to t pops each level whose body does not hold t, and every level inside it. -/
def LoopExit (t : Word) (ls ls' : List LoopLevel) : Prop :=
  ∃ out : List LoopLevel, ls = out ++ ls' ∧ (∀ l ∈ ls', l.holds t) ∧ (∀ l ∈ out.getLast?, ¬ l.holds t)

/-! ## From a state to the next -/

/-- y is x after a word has issued: its place and the loop levels of its privilege may differ, its issue count has gone up
by one, and what a wait keeps is over; at USER the COUPLE that it has waited in is over too (R263). -/
def Issued (x y : Hart) : Prop :=
  y = { x with
    pc := y.pc, w1 := y.w1, bubble := y.bubble, loopsU := y.loopsU, loopsH := y.loopsH, issued := x.issued + 1
    since := none, wake := none, wfe := none, wfeOver := false, qcfg := none, cpygo := none
    coupled := x.coupled && x.priv != .user, couple := if x.priv = .user then none else x.couple }
  ∧ (if x.priv = .user then y.loopsH = x.loopsH else y.loopsU = x.loopsU)

/-- The place is as it was: word 0 of a paired bundle leaves the bundle to word 1 (R33). -/
def SamePlace (x y : Hart) : Prop := y.pc = x.pc ∧ y.w1 = x.w1 ∧ y.bubble = x.bubble ∧ y.loops = x.loops

/-- Issue goes on at the start of the bundle at t, after the two bubbles of a taken transfer (R64). -/
def At (t : Word) (y : Hart) : Prop := y.pc = t ∧ y.w1 = false ∧ y.bubble = 2

/-- The bundle at x.pc is over without a taken transfer (R123): a level goes back, or the next bundle follows. -/
def EndsBundle (x y : Hart) : Prop :=
  ∃ back : Option Word, LoopEnd x.pc x.loops y.loops back
    ∧ (match back with
      | some t => At t y
      | none => y.pc = x.pc + 8 ∧ y.w1 = false ∧ y.bubble = 0)

/-- The next word after one that makes no transfer of its own (R28, R32, R33): word 1 of the same bundle, or what follows
the bundle; the transfer that word 0 of a paired bundle has made takes effect after word 1. -/
def NextPlace (i : Issue) (x y : Hart) : Prop :=
  if i.paired = true ∧ i.w1 = false then SamePlace x y
  else match i.target with
    | some t => At t y ∧ (if i.keepLoops = true then y.loops = x.loops else LoopExit t x.loops y.loops)
    | none =>
      if i.paired = true ∨ i.w1 = true then EndsBundle x y
      else y.pc = x.pc ∧ y.w1 = true ∧ y.bubble = x.bubble ∧ y.loops = x.loops

/-- t is s in all but the strand or core that moves and the record of the word at hand. -/
structure OnlyMe (s t : State) : Prop where
  rest : t = { s with harts := t.harts, issue := t.issue }
  others : ∀ h, h ≠ s.cur → t.hart h = s.hart h

/-- A word has run on s: the strand or core that moves has become x, and then gone on to the next word; nothing else has
changed. -/
structure Moves (s : State) (x : Hart) (t : State) : Prop where
  only : OnlyMe s t
  issued : Issued x (t.hart s.cur)
  place : NextPlace s.issue x (t.hart s.cur)
  ctl : t.issue = s.issue ∨ t.issue = { s.issue with ctl := .taken }

/-- A word has run on s and transfers to g: at once, or after its paired bundle (R32, R33). -/
structure Jumps (s : State) (x : Hart) (g : Word) (t : State) : Prop where
  only : OnlyMe s t
  issued : Issued x (t.hart s.cur)
  place : if s.issue.paired = true ∧ s.issue.w1 = false then
      SamePlace x (t.hart s.cur) ∧ t.issue = { s.issue with target := some g, keepLoops := false }
    else At g (t.hart s.cur) ∧ LoopExit g x.loops (t.hart s.cur).loops ∧ t.issue = { s.issue with ctl := .taken }

/-- A register file after a landing (R51, R151): x0 and k0 discard, and a vector register keeps the bits outside the mask. -/
def written (x : Hart) : Landing → Hart
  | .none => x
  | .x r v => if r = 0 then x else { x with x := x.x.set r v }
  | .k r v => if r = 0 then x else { x with k := x.k.set r v }
  | .v r v m => if h : r.val < 24 then { x with v := x.v.set r.val ((x.v[r.val] &&& ~~~m) ||| (v &&& m)) } else x

/-- A result lands in no later cycle than another; one without a cycle yet comes last. -/
def InFlight.lands (f g : InFlight) : Prop :=
  match f.due, g.due with
  | some a, some b => a ≤ b
  | none, some _ => False
  | _, none => True

/-- l' are the results l in the order in which they land: by their cycle, and of one cycle in the order in which they issued (R58). -/
def LandsAs (l l' : List InFlight) : Prop :=
  l'.Pairwise InFlight.lands ∧ ∀ c, l'.filter (fun f => f.due == c) = l.filter (fun f => f.due == c)

/-- The cycle from which a latency counts: of the advancing cycles of the tile on profile T (R59), of the core's clock on
profile G (R403). -/
def State.issueCycle (s : State) : Nat := if isT s.cur = true then s.myTile.adv else s.clk

/-- The moving strand or core with a result of its word: it is on its way, and lands lat cycles later (R58, R60, R403). -/
def State.withResult (s : State) (l : Landing) (lat : Nat) (wait : Bool) : Hart :=
  { s.me with flight := s.me.flight ++ [{ due := some (s.issueCycle + lat), land := l, lat := lat, wait := wait, org := s.origin }] }

/-- The moving strand or core with two variable-latency results of its word, the second after the first. -/
def State.withTwo (s : State) (l m : Landing) : Hart := (s.setHart s.cur (s.withResult l 1 true)).withResult m 1 true

/-- The outcome of a word that runs: the machine becomes s, its moving strand or core x, and the next word follows. -/
def Runs (o : Out) (s : State) (x : Hart) : Prop := ∃ t, o = .next t ∧ Moves s x t
/-- The outcome of a word that transfers to g. -/
def JumpsTo (o : Out) (s : State) (x : Hart) (g : Word) : Prop := ∃ t, o = .next t ∧ Jumps s x g t
/-- The outcome of a word that holds at issue: nothing changes but the record of the wait. -/
def Waits (o : Out) (s : State) (x : Hart) : Prop :=
  ∃ t, o = .next t ∧ OnlyMe s t ∧ t.issue = { s.issue with ctl := .holds }
    ∧ t.hart s.cur = { x with since := some (x.since.getD s.dtime) }
/-- The outcome of a word whose one effect is a fixed-latency result. -/
def Gives (s : State) (l : Landing) (lat : Nat) (o : Out) : Prop := Runs o s (s.withResult l lat false)
/-- The outcome of a word whose one effect is a variable-latency result whose value is here. -/
def GivesV (s : State) (l : Landing) (o : Out) : Prop := Runs o s (s.withResult l 1 true)

/-- The moving strand or core with a floating result and its flags (R101): they land with it, and the enabled ones will
schedule an FPE then (R100). -/
def State.withFloat (s : State) (d : XReg) (v : Word) (lat : Nat) (fl : BitVec 5) : Hart :=
  let f : InFlight :=
    { due := some (s.issueCycle + lat), land := .x d v, fl := fl, en := fl &&& s.me.ftrap, lat := lat, org := s.origin, float := true }
  { s.me with flight := s.me.flight ++ [f] }

/-- The outcome of a class S floating word. -/
def GivesFloat (s : State) (d : XReg) (v : Word) (lat : Nat) (fl : BitVec 5) (o : Out) : Prop := Runs o s (s.withFloat d v lat fl)

/-! ## Taking an exception (R320, R321, R324, R330) -/

/-- x is the strand or core o after it has taken, at its word of that index, a precise trap of a cause and TVAL. Its trap
registers and its privilege are those of the entry, and it runs at the vector base, or waits for its fault-ring slot; or
its delivery has failed, and it is frozen with DOUBLE. base is TVEC. -/
def TookTrap (o x : Hart) (base : Word) (word : Bool) (cause : Cause) (tval : Word) : Prop :=
  (∃ d, x.run = .frozen d ∧ x.tcause = 0x50 ∧ x.tval.toNat % 256 = cause.toNat) ∨
  ((x.run = .running ∨ x.run = .delivering)
    ∧ (x.run = .running → x.pc = base &&& 0x0000FFFFFFFFFFF8 ∧ x.w1 = false ∧ x.pc ≠ 0)
    ∧ x.tcause = cause.zeroExtend 64 ∧ x.tval = tval ∧ x.tpc = o.pc &&& 0x0000FFFFFFFFFFF8
    ∧ x.tseq.toNat % 2 ^ 16 = 0xFFFF
    ∧ x.tstatus.toNat % 4 = o.priv.code ∧ x.tstatus.getLsbD 2 = word ∧ x.tstatus.getLsbD 3 = false
    ∧ x.tstatus.getLsbD 4 = false ∧ x.tstatus.getLsbD 5 = false ∧ x.tstatus.getLsbD 12 = false
    ∧ x.tstatus.getLsbD 13 = false ∧ x.tstatus.toNat / 2 ^ 16 = 0
    ∧ x.priv = (if o.priv = .user then .system else o.priv) ∧ x.loopsH = [])

/-- The word at hand takes a precise trap, with the port of a STREAMFAULT: at USER, or above it with TSTATUS.RE set; with RE
clear its strand or core freezes (R324). Outside a consist, an entry that does not freeze leaves every other strand and core
as it was. -/
def TrapsAt (o : Out) (s : State) (cause : Cause) (tval : Word) (port : Option PortNo) : Prop :=
  ∃ t, o = .next t
    ∧ t.issue = { s.issue with ctl := .trapped cause tval port }
    ∧ ((s.me.priv = .user ∨ tsRE s.me = true) →
        TookTrap s.me (t.hart s.cur) (s.tvecOf s.cur) (s.issue.w1 && !s.issue.paired) cause tval)
    ∧ ((s.me.priv ≠ .user ∧ tsRE s.me = false) →
        (t.hart s.cur).run = .frozen .nested ∧ (t.hart s.cur).tcause = 0x50
          ∧ (t.hart s.cur).tval = cause.zeroExtend 64 ||| 0x5000)
    ∧ ((isT s.cur = false ∨ s.myTile.csize ≤ 1) → (∀ d, (t.hart s.cur).run ≠ .frozen d) →
        ∀ h, h ≠ s.cur → t.hart h = s.hart h)

/-- The word at hand takes a precise trap that names no port. -/
def Traps (o : Out) (s : State) (cause : Cause) (tval : Word) : Prop := TrapsAt o s cause tval none

/-! ## Memory accesses (R133, R135) -/

/-- The byte of a tile's scratchpad, or of device memory at a physical address, as it reads under its frame's key (R317). -/
def State.byteAt (s : State) : Loc → Byte
  | .scratch t off => memGet (s.tile t).scratch off
  | .phys pa => s.memByte pa

/-- n bytes from a place upward. -/
def State.bytesAt (s : State) (l : Loc) (n : Nat) : List Byte :=
  (List.range n).map (fun i => match l with
    | .scratch t off => s.byteAt (.scratch t (off + i))
    | .phys pa => s.byteAt (.phys (pa + i)))

/-- Which of the n bytes from a place upward a place is. -/
def Loc.offsetIn (l : Loc) (n : Nat) (m : Loc) : Option Nat :=
  match l, m with
  | .scratch t a, .scratch u b => if t = u ∧ a ≤ b ∧ b < a + n then some (b - a) else none
  | .phys a, .phys b => if a ≤ b ∧ b < a + n then some (b - a) else none
  | _, _ => none

/-- A tile's address lies in the local alias; in a slice window. -/
def inAlias (va : Nat) : Prop := aliasBase ≤ va ∧ va < aliasBase + scratchSize
def inWindow (va : Nat) : Prop := ∃ u off, u < 512 ∧ off < scratchSize ∧ va = windowBase + u * 0x100000 + off

/-- An access of n bytes by the moving strand or core passes every check of R135 and has its bytes from place l upward: in
the local alias, in a slice window that the launch may reach, or by a translation that its cache holds. Outside the local
alias the bytes lie within one 64 KiB page. -/
def State.reaches (s : State) (k : AccKind) (va : Word) (n align : Nat) (l : Loc) : Prop :=
  let a := va.toNat
  let t := tileOf s.cur
  let rq := s.requester s.cur s.me.priv
  a % align = 0 ∧ s.pathBusy = false
  ∧ (isT s.cur = true → (s.tile t).lockBars t a n (k == .store || k == .atomic) = false)
  ∧ ((isT s.cur = true ∧ ∃ off, a = aliasBase + off ∧ off + n ≤ scratchSize ∧ l = .scratch t off)
    ∨ (a % 0x10000 + n ≤ 0x10000 ∧
        ((isT s.cur = true ∧ ∃ u off, u < 512 ∧ off < scratchSize ∧ a = windowBase + u * 0x100000 + off ∧ l = .scratch u off
            ∧ (u = t ∨ (s.lost u = false ∧ s.together t u = true ∧ s.phaseBars t u = false)))
        ∨ (a < 2 ^ 48 ∧ (isT s.cur = true → ¬ inAlias a ∧ ¬ inWindow a)
            ∧ ∃ e, s.tlb.find? (fun e => e.hits rq.unit rq a s.dtime) = some e ∧ permits e.r e.w e.x k = true
              ∧ (e.k && rq.user) = false ∧ l = .phys (e.pa + a % 2 ^ e.sz)))))

/-- The place is no I/O page (R239), and does not lie in the waybill table, which software never reads or writes (R307). -/
def Loc.isMemory : Loc → Prop
  | .scratch .. => True
  | .phys pa => physKind pa ≠ .io ∧ ¬ (0x00BFF4000000 ≤ pa ∧ pa < 0x00C000000000)

/-- R309's table for kernel kn at a DTIME, on the fields that R308 gives an entry: the frame passes; the frame gives RECALLED. -/
def framePasses (e : BitVec 128) (kn : Kernel) (now : Nat) : Prop :=
  let st := e.toNat % 8
  (kn = .monitor ∧ st ≤ 4) ∨ (e.toNat / 8 % 4 = kn.code ∧ (st = 1 ∨ st = 3 ∨ st = 4))
    ∨ (e.toNat / 32 % 4 = kn.code ∧ (st = 3 ∨ (st = 4 ∧ now < e.toNat / 2 ^ 64)))
def frameRecalled (e : BitVec 128) (kn : Kernel) (now : Nat) : Prop :=
  ¬ framePasses e kn now ∧ e.toNat / 32 % 4 = kn.code ∧ ((e.toNat % 8 = 1 ∧ e.toNat / 2 ^ 7 % 2 = 1) ∨ e.toNat % 8 = 4)

/-- The check of the frame of a physical address gives a cause, or passes (R309). -/
def State.frameGives (s : State) (pa : Nat) (kn : Kernel) (c : Option Cause) : Prop :=
  ∃ e, s.wb (pa / 0x10000) = some e ∧
    ((c = none ∧ framePasses e kn s.dtime) ∨ (c = some 0x13 ∧ frameRecalled e kn s.dtime)
      ∨ (c = some 0x12 ∧ ¬ framePasses e kn s.dtime ∧ ¬ frameRecalled e kn s.dtime))

/-- The entry of a table's node for an address at a level (R297), and the next node or the page that an entry names (R298). -/
def State.pteAt (s : State) (node v lvl : Nat) : Nat :=
  leNat (s.readLoc 8 (.phys (node + 8 * (if lvl = 0 then v / 2 ^ 42 % 64 else if lvl = 1 then v / 2 ^ 29 % 8192 else v / 2 ^ 16 % 8192))))
def pteNext (e : Nat) : Nat := e / 2 ^ 16 % 2 ^ 32 * 0x10000
/-- log2 of the page size of a leaf, by SZ. -/
def leafBits (e : Nat) : Nat := if e / 4 % 4 = 0 then 16 else if e / 4 % 4 = 1 then 21 else 30

/-- An entry with V = 1 is malformed at a level (R298). -/
def PteBad (e lvl : Nat) : Prop :=
  e / 2 ^ 9 % 2 ^ 7 ≠ 0 ∨ 2 ^ 48 ≤ e ∨ (e / 2 % 2 = 1 ∧ (lvl = 2 ∨ e / 4 % 2 ^ 7 ≠ 0))
    ∨ (e / 2 % 2 = 0 ∧ (lvl = 0 ∨ (lvl = 1 ∧ e / 4 % 4 ≠ 2) ∨ (lvl = 2 ∧ 2 ≤ e / 4 % 4) ∨ pteNext e % 2 ^ leafBits e ≠ 0))

/-- The walk for an address from a root comes to a node at a level: every frame and entry before it passes (R300). -/
inductive State.WalksTo (s : State) (root : Nat) (kn : Kernel) (v : Nat) : Nat → Nat → Prop
  | root : s.WalksTo root kn v 0 root
  | down {lvl node : Nat} (h : s.WalksTo root kn v lvl node) (pass : s.frameGives node kn none) (e : s.pteAt node v lvl % 4 = 3)
      (ok : ¬ PteBad (s.pteAt node v lvl) lvl) : s.WalksTo root kn v (lvl + 1) (pteNext (s.pteAt node v lvl))

/-- The walk for an access of kind k fails with a cause (R300, R301, R310): at a node's frame, at an entry, or at the leaf. -/
def State.WalkFails (s : State) (rq : Requester) (kn : Kernel) (v : Nat) (k : AccKind) (c : Cause) : Prop :=
  ∃ lvl node, s.WalksTo rq.root kn v lvl node ∧
    (s.frameGives node kn (some c) ∨
      (s.frameGives node kn none ∧
        let e := s.pteAt node v lvl
        let bit := fun (i : Nat) => e / 2 ^ i % 2 == 1
        let pa := pteNext e + v % 2 ^ leafBits e
        let lets := permits (bit 4) (bit 5) (bit 6) k = true ∧ (bit 7 = true → rq.user = false) ∧ physKind pa ≠ .absent
        (c = 0x10 ∧ e % 2 = 0) ∨ (c = 0x11 ∧ e % 2 = 1 ∧ PteBad e lvl) ∨
        (e % 4 = 1 ∧ ¬ PteBad e lvl ∧ ((c = 0x11 ∧ ¬ lets) ∨ (lets ∧ s.frameGives pa kn (some c))))))

/-- An access of the device itself, of n bytes at a virtual address, has its bytes at a physical address: a translation that the
requester's cache holds permits it, and they lie in device memory without an error. -/
def State.deviceAt (s : State) (rq : Requester) (va : Word) (k : AccKind) (n pa : Nat) : Prop :=
  va.toNat < 2 ^ 48 ∧ Loc.isMemory (.phys pa) ∧ s.readBad (.phys pa) n = false
  ∧ ∃ e, s.tlb.find? (fun e => e.hits rq.unit rq va.toNat s.dtime) = some e ∧ permits e.r e.w e.x k = true ∧ (e.k && rq.user) = false
    ∧ pa = e.pa + va.toNat % 2 ^ e.sz

/-- The number in n bytes of device memory. -/
def State.num (s : State) (pa n : Nat) : Nat := leNat (s.bytesAt (.phys pa) n)

/-- A trap or interrupt that takes the strand or core h from USER is delivered at once (R321, R327, R329, R330): nothing is in
flight, TVEC is set, its handler frame, at this address, has its first 16 bytes at place l, and, for a strand, its context's
fault-ring header lies at hp and is well formed, and the next slot, at this address, lies at sp and is FREE. -/
structure State.Delivers (s : State) (h : Nat) (frame : Word) (l : Loc) (slot : Word) (hp sp : Nat) : Prop where
  memories : s.memoriesWf
  user : (s.hart h).priv = .user
  still : (s.hart h).flight = [] ∧ (s.hart h).cpygo = none
  vector : s.tvecOf h &&& 0x0000FFFFFFFFFFF8 ≠ 0
  place : frame.toNat % 0x10000 + 16 ≤ 0x10000 ∧ s.writeBad l 16 = false
    ∧ ((isT h = true ∧ ∃ off, frame.toNat = aliasBase + off ∧ off + 16 ≤ scratchSize ∧ l = .scratch (tileOf h) off)
      ∨ ((isT h = true → ¬ inAlias frame.toNat ∧ ¬ inWindow frame.toNat)
        ∧ ∃ pa, s.deviceAt (s.requester h .system) frame .store 16 pa ∧ l = .phys pa ∧ (pa + 16 ≤ hp ∨ hp + 64 ≤ pa) ∧ (pa + 16 ≤ sp ∨ sp + 64 ≤ pa)))
  core : isT h = false → frame = ((s.hart h).rx 2 &&& ~~~63#64) - 64
  strand : isT h = true →
    frame = BitVec.ofNat 64 (s.num (hp + 24) 8 + (h + 1) * s.num (hp + 32) 4) - 64
    ∧ s.deviceAt (s.requester h .system) ((s.ctx (s.tile (tileOf h)).ctx).fring &&& ~~~63#64) .load 64 hp
    ∧ s.deviceAt (s.requester h .system) ((s.ctx (s.tile (tileOf h)).ctx).fring &&& ~~~63#64) .atomic 64 hp
    ∧ (∃ n, 4 ≤ n ∧ n ≤ 16 ∧ s.num (hp + 8) 4 = 2 ^ n) ∧ s.num hp 8 % 64 = 0
    ∧ slot = BitVec.ofNat 64 (s.num hp 8 + s.num (hp + 16) 8 % s.num (hp + 8) 4 * 64)
    ∧ s.deviceAt (s.requester h .system) slot .atomic 64 sp ∧ s.num (sp + 1) 1 = 0 ∧ (sp + 64 ≤ hp ∨ hp + 64 ≤ sp)

/-- t is s after such a delivery: h runs at the vector with x1 and x2 those of its handler, the frame holds the old ones, and, for a
strand, the slot is claimed and holds the record of R328, WRITTEN, of a trap that names no port; the entry's registers are those of x. -/
structure State.Delivered (s t : State) (h : Nat) (x : Hart) (frame : Word) (l : Loc) (slot : Word) (hp sp : Nat) : Prop where
  runs : x.run = .running ∧ x.pc = s.tvecOf h &&& 0x0000FFFFFFFFFFF8 ∧ x.w1 = false
  regs : x.x = ((s.hart h).x.set 1 (if isT h = true then slot else 0)).set 2 frame
  frame : t.bytesAt l 16 = leBytes 8 ((s.hart h).x[1]).toNat ++ leBytes 8 ((s.hart h).x[2]).toNat
  record : isT h = true → t.num (hp + 16) 8 = (s.num (hp + 16) 8 + 1) % 2 ^ 64
    ∧ t.bytesAt (.phys sp) 64 = leBytes 1 1 ++ leBytes 1 1 ++ leBytes 2 (h / 4 + 512 * (h % 4)) ++ leBytes 1 x.tcause.toNat ++ leBytes 1 0
      ++ leBytes 2 x.tseq.toNat ++ leBytes 8 x.tpc.toNat ++ leBytes 8 x.tval.toNat ++ leBytes 8 x.tstatus.toNat ++ leBytes 24 0
      ++ leBytes 8 s.dtime

/-- The moving strand or core with the result of a load: from the local alias its latency is fixed (R133). -/
def State.withLoaded (s : State) (va : Word) (l : Landing) (lat : Nat) : Hart :=
  if isT s.cur = true ∧ aliasBase ≤ va.toNat ∧ va.toNat < aliasBase + scratchSize then s.withResult l lat false
  else s.withResult l 1 true

/-- A word has run on s and stored: every place holds what val gives for it, or what it held. Nothing else has changed but
the moving strand or core, which has become x and gone on, and what a write does to the marks of the 4 KiB regions (R336), of
errors (R380), to what another host stored in the same bytes of a shared extent before (R251), and to the key under which the
bytes of a granule stand (R317), which then read as they did. -/
structure Stores (s : State) (x : Hart) (val : Loc → Option Byte) (t : State) : Prop where
  rest : t = { s with harts := t.harts, issue := t.issue, tiles := t.tiles, mem := t.mem, sealed := t.sealed, bad := t.bad, foreign := t.foreign }
  tiles : ∀ u, t.tile u = { s.tile u with scratch := (t.tile u).scratch, dirty := (t.tile u).dirty, bad := (t.tile u).bad }
  bytes : ∀ l, t.byteAt l = (val l).getD (s.byteAt l)
  others : ∀ h, h ≠ s.cur → t.hart h = s.hart h
  issued : Issued x (t.hart s.cur)
  place : NextPlace s.issue x (t.hart s.cur)
  ctl : t.issue = s.issue ∨ t.issue = { s.issue with ctl := .taken }

/-- The outcome of a word that stores. -/
def StoresTo (o : Out) (s : State) (x : Hart) (val : Loc → Option Byte) : Prop := ∃ t, o = .next t ∧ Stores s x val t

/-! ## Class V and X words (R69, R76 to R81, R150, R151, R171) -/

/-- Each port that a word names serves it: those it reads can be popped, and the one it writes can take a push. -/
def State.portsServe (s : State) (reads : List VReg) (dst : Option VReg) : Prop :=
  (∀ r ∈ reads, ∀ p : PortNo, r.val = 24 + p.val → s.me.badRead p = none ∧ s.me.ports[p].ready = true)
  ∧ (∀ d ∈ dst, ∀ p : PortNo, d.val = 24 + p.val →
      s.me.badWrite p = none ∧ s.me.ports[p].fault = false ∧ s.room s.cur s.me.ports[p] false = true)

/-- A class V word that reads and may write these fields can issue on its strand: the vector queue has room, its ring entry is
free, and each port it names serves it. -/
def State.vReady (s : State) (reads : List VReg) (dst : Option VReg) : Prop :=
  s.readyT ∧ s.me.vq.length < 4 ∧ s.dispatchBusy = false ∧ s.portsServe reads dst

/-- The value of a vector operand: the register, or the transfer that the next pop of the port gives. -/
def State.operand (s : State) (r : VReg) : VWord :=
  if h : r.val < 24 then s.me.v[r.val] else (s.me.ports[r.val - 24]'(by omega)).next

/-- The ports after a word: each port it reads is popped once, and one that it writes takes a push. -/
def State.portsAfter (s : State) (reads : List VReg) (dst : Option VReg) (val mask : VWord) : Vector PortCtx 8 :=
  Vector.ofFn (fun p : Fin 8 =>
    if reads.any (fun r => r.val == 24 + p.val) then s.me.ports[p].popped
    else if dst.any (fun d => d.val == 24 + p.val) then s.me.ports[p].pushed val mask none
    else s.me.ports[p])

/-- The strand after a class V word has issued: ports, sequence number and ring entry, vector queue, and the result on its way
with its flags, of a floating instruction or not. In shared mode its landing cycle is not known until its last part is bound (R73). -/
def State.vIssued (s : State) (reads : List VReg) (dst : Option VReg) (val mask : VWord) (whole : Bool) (lat : Nat)
    (land : Landing) (fl : BitVec 5) (tern : Bool) (float : Bool := false) : Hart :=
  let x := s.me
  let org : Origin := { s.origin with seq := x.seq, vx := true }
  let f : InFlight :=
    { due := if s.myTile.shared = true then none else some (s.myTile.adv + lat), land := land, fl := fl, en := fl &&& x.ftrap
      tern := tern, lat := lat, org := org, float := float }
  { x with
    ports := s.portsAfter reads dst val mask
    seq := x.seq + 1
    ring := ⟨x.seq, x.pc, s.issue.w1, x.issued⟩ :: x.ring.filter (fun d => d.seq.toNat % 64 != x.seq.toNat % 64)
    flight := x.flight ++ [f]
    vq := if s.myTile.shared = true then x.vq ++ [⟨x.issued, 0, whole⟩] else x.vq }

/-- The outcome of a word with a vector destination that is a register or a write port: of n elements of width ew the active ones
receive f, the inactive ones nothing. -/
def VecGives (s : State) (o : Out) (d : VReg) (reads : List VReg) (whole : Bool) (lat ew n : Nat) (act : Nat → Bool)
    (f : Nat → Nat) (fl : BitVec 5) (tern : Bool) (float : Bool := false) : Prop :=
  s.vReady reads (some d) → ∃ val mask : VWord,
    (∀ i < n, elem mask ew i = if act i then 2 ^ ew - 1 else 0)
    ∧ (∀ i < n, act i = true → elem val ew i = f i % 2 ^ ew)
    ∧ Runs o s (s.vIssued reads (some d) val mask whole lat (if d.val < 24 then .v d val mask else .none) fl tern float)

/-- The outcome of a word with a destination of n elements of width ew, and the bits above them written 0. -/
def VecPacks (s : State) (o : Out) (d : VReg) (reads : List VReg) (whole : Bool) (ew n : Nat) (act : Nat → Bool)
    (f : Nat → Nat) (fl : BitVec 5) (tern : Bool) (float : Bool := false) : Prop :=
  s.vReady reads (some d) → ∃ val mask : VWord,
    (∀ i < n, elem mask ew i = if act i then 2 ^ ew - 1 else 0)
    ∧ (∀ i < n, act i = true → elem val ew i = f i % 2 ^ ew)
    ∧ (∀ j, n * ew ≤ j → j < 2048 → mask.getLsbD j = true ∧ val.getLsbD j = false)
    ∧ Runs o s (s.vIssued reads (some d) val mask whole 3 (if d.val < 24 then .v d val mask else .none) fl tern float)

/-- The outcome of a class V word with a mask or x destination. -/
def ScalarGives (s : State) (o : Out) (reads : List VReg) (whole : Bool) (lat : Nat) (land : Landing)
    (float : Bool := false) : Prop :=
  s.vReady reads none → Runs o s (s.vIssued reads none 0 0 whole lat land 0 false float)

/-- The flags of the active elements together. -/
def flagsOf (n : Nat) (act : Nat → Bool) (fl : Nat → BitVec 5) : BitVec 5 :=
  (List.range n).foldl (fun t i => if act i then t ||| fl i else t) 0

/-- What the tree of R110 makes of 2^n entries. -/
def treeValue (f : Nat → Nat → Nat) : Nat → (Nat → Nat) → Nat
  | 0, x => x 0
  | n + 1, x => treeValue f n (fun i => f (x (2 * i)) (x (2 * i + 1)))

/-- The flags that the operations of that tree raise. -/
def treeFlags (f : Nat → Nat → Nat × FlagSet) : Nat → (Nat → Nat) → FlagSet
  | 0, _ => 0
  | n + 1, x => flagsOf (2 ^ n) (fun _ => true) (fun i => (f (x (2 * i)) (x (2 * i + 1))).2)
      ||| treeFlags f n (fun i => (f (x (2 * i)) (x (2 * i + 1))).1)

/-- The n low bytes of a number at a place. -/
def bytesOf (l : Loc) (n v : Nat) (m : Loc) : Option Byte := (l.offsetIn n m).map (fun i => BitVec.ofNat 8 (v / 2 ^ (8 * i)))

/-! ## Class X words and the commands of the sequencer (R75, R169 to R171, R326) -/

/-- A class X word can issue on its strand: the strand owns the matrix unit, its entry of the dispatch ring is free, and, above
USER, no command is held since a fault. -/
def State.mReady (s : State) : Prop :=
  s.readyT ∧ s.myTile.owner.toNat = (strandOf s.cur).val ∧ s.dispatchBusy = false ∧ (s.me.priv = .user ∨ s.myTile.held = [])

/-- A strand after it has taken the next sequence number and its ring entry (R171); a handler's word makes REPLAY 0 (R326). -/
def State.dispatched (s : State) (x : Hart) : Hart :=
  { x with
    tstatus := if s.me.priv = .user then x.tstatus else x.tstatus &&& ~~~16#64
    seq := s.me.seq + 1
    ring := ⟨s.me.seq, s.me.pc, s.issue.w1, s.me.issued⟩
      :: s.me.ring.filter (fun d => d.seq.toNat % 64 != s.me.seq.toNat % 64) }

/-- The command that the moving strand's word makes. -/
def State.command (s : State) (i : Instr) (opnd : Word) : Command :=
  { instr := i, opnd := opnd, strand := strandOf s.cur, org := { s.origin with seq := s.me.seq, vx := true }
    en := s.me.ftrap, issuedAt := s.dtime }

/-- c is the command that starts next: those before it have started, and it is young enough to. -/
structure Tile.NextToStart (x : Tile) (now : Nat) (earlier : List Command) (c : Command) (later : List Command) : Prop where
  cmds : x.cmds = earlier ++ c :: later
  started : ∀ d ∈ earlier, d.started.isSome = true
  waits : c.started = none
  runs : x.enginesOn = true
  issued : c.issuedAt < now
  own : ∀ d ∈ earlier ++ later, d.org.order ≠ c.org.order

/-- c is the oldest command whose time to retire has come; rest are the others. -/
structure Tile.DueFirst (x : Tile) (now : Nat) (c : Command) (rest : List Command) : Prop where
  cmds : ∃ pre post, x.cmds = pre ++ c :: post ∧ rest = pre ++ post ∧ ∀ d ∈ pre, d.started = none ∨ now < d.retireAt
  started : c.started.isSome = true
  due : c.retireAt ≤ now
  own : ∀ d ∈ rest, d.org.order ≠ c.org.order

/-- A package step makes the tile t into x and changes nothing else. -/
def TileBecomes (o : Out) (s : State) (t : Nat) (x : Tile) : Prop := o = .next (s.setTile t x)

/-! ## Numbers (R86, R96) -/

/-- The real value of a finite number: (−1)^neg × m × 2^e. -/
def Num.real : Num → Option ℚ
  | .fin neg m e _ => some ((if neg then -1 else 1) * m * (2 : ℚ) ^ e)
  | .nan | .inf _ => none

/-- n is the number x, with no part of it cut off. -/
def Num.Is (n : Num) (x : ℚ) : Prop := ∃ neg m e, n = .fin neg m e false ∧ x = (if neg then -1 else 1) * m * (2 : ℚ) ^ e

/-- n has the sign neg, and its magnitude is one that eq describes; or n is marked as cut off, has more bits than any format, and the number
it stands for lies between its magnitude, which below describes, and the next unit, which above does. -/
def Num.Stands (n : Num) (neg : Bool) (eq : ℚ → Prop) (below above : ℚ → Prop) : Prop :=
  ∃ (m : Nat) (e : ℤ) (st : Bool), n = .fin neg m e st ∧
    (st = false → eq (m * (2 : ℚ) ^ e)) ∧
    (st = true → 2 ^ 128 ≤ m ∧ below (m * (2 : ℚ) ^ e) ∧ above ((m + 1) * (2 : ℚ) ^ e))

/-- v has at most p fraction bits, and a last place no finer than 2^g where a finest place g is given: the grid of a format, with no
largest value. -/
def OnGrid (p : Nat) (finest : Option ℤ) (v : ℚ) : Prop :=
  ∃ k e : ℤ, v = k * (2 : ℚ) ^ e ∧ |k| < 2 ^ (p + 1) ∧ ∀ g ∈ finest, g ≤ e

/-- The least significant fraction bit of v is even. -/
def EvenOnGrid (p : Nat) (finest : Option ℤ) (v : ℚ) : Prop :=
  ∃ k e : ℤ, v = k * (2 : ℚ) ^ e ∧ 2 ∣ k ∧ |k| < 2 ^ (p + 1) ∧ (finest = some e ∨ (2 ^ p ≤ |k| ∧ ∀ g ∈ finest, g ≤ e))

/-- v is x rounded once onto such a grid, under a mode. -/
structure RoundsTo (mode : Rm) (p : Nat) (finest : Option ℤ) (x v : ℚ) : Prop where
  grid : OnGrid p finest v
  rne : mode = .rne → ∀ u, OnGrid p finest u → |x - v| ≤ |x - u| ∧ (|x - v| = |x - u| → u ≠ v → EvenOnGrid p finest v)
  rtz : mode = .rtz → |v| ≤ |x| ∧ 0 ≤ v * x ∧ ∀ u, OnGrid p finest u → |u| ≤ |x| → |u| ≤ |v|
  rup : mode = .rup → x ≤ v ∧ ∀ u, OnGrid p finest u → x ≤ u → v ≤ u
  rdn : mode = .rdn → v ≤ x ∧ ∀ u, OnGrid p finest u → u ≤ x → u ≤ v

/-! ## The word that a step runs (R28, R29, R32, R33, R58) -/

/-- What the cycle adds around the word at hand, once it has run from a strand or core that was x: the end of an issue, and the
end of the cycle. -/
def State.cycleEnds (v : State) (h : Nat) (x : Hart) : State :=
  if isT h then ((v.afterAttempt h x).seqBegin (tileOf h)).passed h
  else (if v.issue.ctl.issued then v.settle h x else v).passed h

/-- The strand or core h is at its issue boundary in s with nothing pending, and may issue: strand 0 of a fixed-mode tile that
is present and outside a consist, or a profile G core. -/
structure State.mayIssue (s : State) (h : Nat) : Prop where
  runs : (s.hart h).run = .running
  bubble : (s.hart h).bubble = 0
  late : (s.hart h).late = []
  step : (s.hart h).step = none
  irqs : (s.hart h).irqs = []
  eret : (s.hart h).ereting = false
  tile : isT h = true → h % 4 = 0 ∧ (s.tile (tileOf h)).presence = .present ∧ (s.tile (tileOf h)).shared = false
    ∧ (s.tile (tileOf h)).csize ≤ 1

/-- In s the strand or core h meets no breakpoint, owns what its words need, and waits for no register of theirs. -/
structure State.unheld (s : State) (h w0 w1 : Nat) (is : List Instr) : Prop where
  stop : s.breakHit h (!lBit w0) = none
  owner : isT h = true → s.notOwner h w0 w1 = false
  regs : ∀ i ∈ is, ∀ r ∈ reads i ++ writes i, s.pendingReg h r = false

/-- A word is an instruction that its strand or core may run (R47, R48, R53). -/
def State.available (s : State) (h : Nat) (w : Nat) (i : Instr) : Prop :=
  decodeWord w = .ok i ∧ unavailable (!isT h) ((s.hart h).priv == .user) i = none

/-! ## Entries and events of the package (R321, R322, R315, R375) -/

/-- x is the strand or core o after it has taken, at the word that stood next, an entry with this TCAUSE, whose code is cause:
its trap registers are those of the entry, and it runs at the vector base or waits for its fault-ring slot; or its delivery has
failed, and it is frozen with DOUBLE. -/
def Entered (o x : Hart) (base tcause : Word) (cause : Cause) (tval : Word) (seq : BitVec 16) (late replay : Bool) (faddr : Nat) : Prop :=
  (∃ d, x.run = .frozen d ∧ x.tcause = 0x50 ∧ x.tval.toNat % 256 = cause.toNat) ∨
  ((x.run = .running ∨ x.run = .delivering)
    ∧ (x.run = .running → x.pc = base &&& 0x0000FFFFFFFFFFF8 ∧ x.w1 = false ∧ x.pc ≠ 0)
    ∧ x.tcause = tcause ∧ x.tval = tval ∧ x.tpc = o.pc &&& 0x0000FFFFFFFFFFF8
    ∧ x.tseq.toNat % 2 ^ 16 = seq.toNat
    ∧ x.tstatus.toNat % 4 = o.priv.code ∧ x.tstatus.getLsbD 2 = o.w1 ∧ x.tstatus.getLsbD 3 = late
    ∧ x.tstatus.getLsbD 4 = replay ∧ x.tstatus.getLsbD 5 = false ∧ x.tstatus.toNat / 2 ^ 16 = faddr
    ∧ x.priv = (if o.priv = .user then .system else o.priv) ∧ x.loopsH = [])

/-- The event ring that the hub frame f describes takes one more record: its size is a power of two from 2^4 to 2^12, and it is not full. -/
def State.ringFits (s : State) (f : Nat) : Prop :=
  let slots := s.ioRead (f + 8) 4
  (∃ n, 4 ≤ n ∧ n ≤ 12 ∧ slots = 2 ^ n) ∧ (s.ioRead (f + 16) 4 + 2 ^ 32 - s.ioRead (f + 12) 4) % 2 ^ 32 < slots

/-- Between s and t an event has gone to the ring of the hub frame f, and the kernel's core has its interrupt; a ring that does not take
it counts it in LOST. -/
def Told (s t : State) (f : Nat) (k : Kernel) (code : BitVec 8) : Prop :=
  (s.ringFits f → t.ioRead (f + 16) 4 = (s.ioRead (f + 16) 4 + 1) % 2 ^ 32
    ∧ (t.hart (s.icore k)).irqs.any (fun q => q.1 == code) = true)
  ∧ (¬ s.ringFits f → t.ioRead (f + 20) 4 = (s.ioRead (f + 20) 4 + 1) % 2 ^ 32)

/-- The address at which that ring takes its next record. -/
def State.ringSlot (s : State) (f : Nat) : Nat := s.ioRead f 8 + s.ioRead (f + 16) 4 % s.ioRead (f + 8) 4 * 32

/-- An event has gone to the ring of the hub frame f, and its record stands there. -/
def Logged (s t : State) (f : Nat) (k : Kernel) (code : BitVec 8) (rec : List Byte) : Prop :=
  Told s t f k code ∧ (s.ringFits f → t.memRd (s.ringSlot f) 32 = rec)

/-- t is s after such an event alone. -/
def Recorded (s t : State) (f : Nat) (k : Kernel) (code : BitVec 8) (rec : List Byte) : Prop :=
  Logged s t f k code rec
  ∧ (s.ringFits f → t.ioRead (f + 20) 4 = s.ioRead (f + 20) 4 ∧ (∀ h, h ≠ s.icore k → t.hart h = s.hart h))
  ∧ (¬ s.ringFits f → t.ioRead (f + 16) 4 = s.ioRead (f + 16) 4 ∧ t.mem = s.mem ∧ t.sealed = s.sealed ∧ t.harts = s.harts)

/-- A strand whose tile's monitor has entered (R277): it runs at HANDLER at the address that the entry frame holds. -/
def State.atMonitor (s : State) (t : Nat) (x : Hart) : Prop :=
  x.run = .running ∧ x.priv = .system ∧ x.pc = BitVec.ofNat 64 (s.ioRead 0x08F200000000 8) &&& 0x0000FFFFFFFFFFF8
    ∧ x.w1 = false ∧ x.undelivered = none ∧ (s.tile t).launch = none

end Sys2Proof.Machine
end

