-- ==== Sys2Proof/Certificates/Slice0/Obligations.lean ====
section
/-! DEFINITION. The statements for the provers: what the numbered rules of the manual say of this machine. -/

open Sys2Proof Sys2Proof.Machine

/-! ## Words, the step, registers, rounding, reset, invariants -/

/-- R28, R30, R32, R33, R58, R322: with nothing pending at its boundary, a strand or core that may issue runs the words that its bundle decodes to:
word 0 of a split bundle alone, then word 1, and both words of a paired bundle in one cycle, a word beside a QCFG or QCLOSE meeting the port and the locks of its tile as
they were, while what it pushes to that port is lost (log 43). The bundle is the eight bytes at the pc. -/
def Obligations.StepRunsDecodedInstruction : Prop :=
  (∀ (s : State), s.agenda = [] → s.power = .on → isCore s.cur = true →
    let h := s.cur
    let s0 := s.progress h
    let x := s0.hart h
    s0.mayIssue h → ∀ (w0 w1 : Nat) (s1 : State), (s0.at h).fetch h = (.ok (w0, w1), s1) →
      let runs := fun (i : Instr) (raw : Nat) => exec i { s1 with issue := { s1.issue with raw := raw } }
      let steps := fun (o : Out) => step s = match o with | .next v => .next (v.cycleEnds h x) | o => o
      (∀ i j, x.w1 = false → lBit w0 = true → lBit w1 = false → s1.available h w0 i → s1.available h w1 j → s1.unheld h w0 w1 [i] →
        steps (runs i w0)) ∧
      (∀ j, x.w1 = true → s1.available h w1 j → s1.unheld h w0 w1 [j] → steps (runs j w1)) ∧
      (∀ i j a b, x.w1 = false → lBit w0 = false → lBit w1 = false → classOf w0 < 2 → 2 ≤ classOf w1 → shareDestination w0 w1 = false →
        s1.available h w0 i → s1.available h w1 j → s1.unheld h w0 w1 [i, j] → isEret i = false →
        portSet i = none → exec i { s1 with issue := { s1.issue with raw := w0, w1 := false, paired := true } } = .next a → a.issue.ctl.issued = true →
        exec j { a with issue := { a.issue with raw := w1, w1 := true, paired := true, ctl := .ran } } = .next b → b.issue.ctl.issued = true →
        steps (.next b)) ∧
      (∀ i j p a b, x.w1 = false → lBit w0 = false → lBit w1 = false → classOf w0 < 2 → 2 ≤ classOf w1 → shareDestination w0 w1 = false →
        s1.available h w0 i → s1.available h w1 j → s1.unheld h w0 w1 [i, j] → portSet i = some p →
        exec i { s1 with issue := { s1.issue with raw := w0, w1 := false, paired := true } } = .next a → a.issue.ctl.issued = true →
        let locks := fun (v o : State) => v.mapTile (tileOf h) (fun y => { y with locks := (o.tile (tileOf h)).locks })
        let was := locks (a.setPort h p (s1.port h p)) s1
        exec j { was with issue := { was.issue with raw := w1, w1 := true, paired := true, ctl := .ran } } = .next b →
        b.issue.ctl.issued = true → steps (.next (locks (b.setPort h p (a.port h p)) a)))) ∧
  (∀ (s : State) (h : Nat), isCore h = true →
    let pc := (s.hart h).pc.toNat
    let rq := s.requester h (s.hart h).priv
    let bundle := fun (l : Loc) => (leNat ((s.bytesAt l 8).take 4), leNat ((s.bytesAt l 8).drop 4))
    (∀ off, isT h = true → pc = aliasBase + off → off + 8 ≤ scratchSize → s.readBad (.scratch (tileOf h) off) 8 = false →
      s.fetch h = (.ok (bundle (.scratch (tileOf h) off)), s)) ∧
    (∀ e, pc < 2 ^ 48 → (isT h = true → ¬ inAlias pc ∧ ¬ inWindow pc) → s.tlb.find? (fun e => e.hits rq.unit rq pc s.dtime) = some e →
      e.x = true → (e.k && rq.user) = false → Loc.isMemory (.phys (e.pa + pc % 2 ^ e.sz)) → s.readBad (.phys (e.pa + pc % 2 ^ e.sz)) 8 = false →
      s.fetch h = (.ok (bundle (.phys (e.pa + pc % 2 ^ e.sz))), s)))

/-- R35, R36, R37, R41 to R45, R47: a word of each class and format, bit by bit, and words that are no instruction. -/
def Obligations.DecodeWords : Prop :=
  decodeWord 0b00_0_000000_00011_00001_00010_00000000 = .ok (.add 3 1 2) ∧
  decodeWord 0b00_1_000000_00011_00001_00010_00000001 = .ok (.sub 3 1 2) ∧
  decodeWord 0b00_0_001000_00011_00001_1111111111111 = .ok (.addi 3 1 (-1)) ∧
  decodeWord 0b00_0_010100_00001_00010_1111111111110 = .ok (.beq 1 2 (-2)) ∧
  decodeWord 0b00_0_011010_00001_000000000000000011 = .ok (.jal 1 3) ∧
  decodeWord 0b00_0_100001_00001_00000_0_000000010000 = .ok (.mfc 1 0x010) ∧
  decodeWord 0b01_0_000110_00101_00110_0000000010000 = .ok (.ld 5 6 16) ∧
  decodeWord 0b01_0_010100_00100_00101_00110_000_0110_1 = .ok (.amoadd 4 5 6 .rlx .package true) ∧
  decodeWord 0b01_0_101100_00001_00010_00011_0000_0000 = .ok (.foffer 1 2 3) ∧
  decodeWord 0b10_0_000000_00001_00010_00011_100_10_0_00 = .ok (.vadd 1 2 3 4 .w32 false) ∧
  decodeWord 0b10_0_000110_00001_00010_00011_000_01_0_00 = .ok (.vfma 1 2 3 0 .bf16 false) ∧
  decodeWord 0b10_0_010010_00001_00010_0000_0100_01_1_00 = .ok (.vcvt 1 2 .fp32 .e4m3 .rtz true 0) ∧
  decodeWord 0b11_0_000000_01_010_011_0001_0100_1_0_00111 = .ok (.mma 1 2 3 .bf16 .e4m3 true false 7) ∧
  decodeWord 0b11_0_000101_10_00100_0001_00_0_00011_0000 = .ok (.mdrain 2 4 .bf16 .rne false 3) ∧
  decodeWord 0xFFFFFFFF = .error .allOnes ∧
  decodeWord 0b00_0_110000_00000_000000000000000000 = .error .extension ∧
  decodeWord 0b01_0_000111_00000_000000000000000000 = .error .unassigned ∧
  decodeWord 0b00_0_000000_00011_00001_00010_00010100 = .error .selector ∧
  decodeWord 0b10_0_000101_00001_00010_00011_000_11_0_00 = .error .reserved ∧
  decodeWord 0b00_0_011100_00001_00001_0000000000001 = .error .mustBeZero

/-- R27, R35 to R37, R40 to R47: decoding the word of a well-formed instruction gives it back with every operand and the L bit, and every word that
decodes is the word of its instruction: no bit of it is dropped. -/
def Obligations.EncodeDecodeRoundTrip : Prop :=
  (∀ (l : Bool) (i : Instr) (w : Nat), i.wellFormed = true → encode l i = some w →
    w < 2 ^ 32 ∧ decodeWord w = .ok i ∧ lBit w = l) ∧
  (∀ (w : Nat) (i : Instr), w < 2 ^ 32 → decodeWord w = .ok i → i.wellFormed = true ∧ encode (lBit w) i = some w)

/-- R51, R151: x0 reads 0 and k0 reads all ones, and writes to them are discarded; every other register reads what was last written, a vector
register in the bits of its mask, and no other register changes. -/
def Obligations.RegistersReadAndWrite : Prop :=
  ∀ (x : Hart),
    x.rx 0 = 0 ∧ x.rk 0 = BitVec.allOnes 64 ∧
    (∀ v, x.put (.x 0 v) = x ∧ x.put (.k 0 v) = x) ∧
    (∀ (r : XReg) v, r ≠ 0 → (x.put (.x r v)).rx r = v ∧ ∃ y, x.put (.x r v) = { x with x := y } ∧ ∀ q, q ≠ r → y[q] = x.x[q]) ∧
    (∀ (r : KReg) v, r ≠ 0 → (x.put (.k r v)).rk r = v ∧ ∃ y, x.put (.k r v) = { x with k := y } ∧ ∀ q, q ≠ r → y[q] = x.k[q]) ∧
    (∀ (r : VReg) v m, r.val < 24 → (∃ y, x.put (.v r v m) = { x with v := y } ∧ ∀ q (n : q < 24), q ≠ r.val → y[q] = x.v[q]) ∧
      ∀ i, ((x.put (.v r v m)).rv r).getLsbD i = if m.getLsbD i = true then v.getLsbD i else (x.rv r).getLsbD i) ∧
    (∀ (r : VReg) v m, 24 ≤ r.val → x.put (.v r v m) = x)

/-- R86, R88, R94, R96, R97, R98, each format with its fraction bits, the exponent of its smallest subnormal and its largest finite value: v is the
exact result rounded once onto the unbounded grid, w at full precision with no least exponent. Up to the largest finite value v itself is
delivered, with NX when inexact and UF when w is below the smallest normal too; beyond it OF and NX, and the value of R97's table. -/
def Obligations.RoundedResults : Prop :=
  ∀ (f : FloatFmt) (p : Nat) (g : ℤ) (big : ℚ), (f, p, g, big) ∈ [(FloatFmt.fp32, 23, (-149 : ℤ), (2 - 2 ^ (-23 : ℤ)) * 2 ^ 127),
      (.bf16, 7, -133, (2 - 2 ^ (-7 : ℤ)) * 2 ^ 127), (.fp16, 10, -24, 65504), (.e5m2, 2, -16, 57344), (.e4m3, 3, -9, 448), (.e3m2, 2, -4, 28),
      (.e2m3, 3, -3, 15 / 2), (.e2m1, 1, -1, 6), (.fx48, 37, -547, (2 - 2 ^ (-37 : ℤ)) * (2 : ℚ) ^ 511)] →
    ∀ (mode : Rm) (sat neg : Bool),
    let far : ℚ := if neg then -big else big
    let largest := fun (y : Nat) => y < 2 ^ f.width ∧ (f.value y).real = some far
    (∀ (m : Nat) (e : ℤ), m ≠ 0 →
      let r := roundFin f mode sat neg m e false
      let x : ℚ := (if neg then -1 else 1) * m * (2 : ℚ) ^ e
      ∃ v w : ℚ, RoundsTo mode p (some g) x v ∧ RoundsTo mode p none x w ∧
      (|v| ≤ big → (f.value r.1).real = some v ∧ r.1 / 2 ^ (f.width - 1) = (if neg then 1 else 0)
        ∧ r.2 = (if v = x then 0 else if |w| < (2 : ℚ) ^ (g + p) then flagUF ||| flagNX else flagNX)) ∧
      (big < |v| → r.2 = flagOF ||| flagNX ∧
        (f ∈ [FloatFmt.fp32, .bf16, .fp16, .e5m2] → sat = false →
          if mode = .rne ∨ mode = (if neg then .rdn else .rup) then r.1 < 2 ^ f.width ∧ f.value r.1 = .inf neg else largest r.1) ∧
        (f = .e4m3 → sat = false → r.1 = 0x7F) ∧ (f ∈ [FloatFmt.e3m2, .e2m3, .e2m1] ∨ (sat = true ∧ f ≠ .fx48) → largest r.1) ∧
        (f = .fx48 → mode = .rne → sat = false → r.1 < 2 ^ 48 ∧ f.value r.1 = .inf neg))) ∧
    (f ≠ .fx48 → ∃ y, floatToFloat f mode true (.inf neg) = (y, 0) ∧ largest y)

/-- R52, R54, R65, R70, R74, R98 to R100, R182, R185, R207, R253, R257, R277, R282, R312, R318, R319, R376, R382, R388: the values that the manual gives at reset. -/
def Obligations.ResetState : Prop :=
  let s := State.reset
  s.power = .on ∧ s.dtime = 0 ∧ s.agenda = [] ∧
  (∀ t, t < 512 → let x := s.tile t
    x.shared = false ∧ (∀ i : Fin 4, x.runs i = true ↔ i = 0) ∧ x.fixcode = false ∧ x.arb = 0x11110 ∧ x.vshare = 0x1111 ∧ x.owner = 0 ∧ x.csize = 1
    ∧ x.mstat = 0x1400 ∧ x.dbgctl = 0 ∧ (∀ l : Fin 4, x.gen[l] = 0) ∧ x.inbox = [] ∧ x.locks = [] ∧ x.cmds = [] ∧ x.launch = none
    ∧ (∀ off, memGet x.scratch off = 0) ∧ (∀ r : Fin 8, x.rings[r] = { cfg := 0, head := 0, tail := 0, codebook := 0 })
    ∧ (∀ c, (s.chan t c).nextId = 1 ∧ (s.chan t c).live = [] ∧ (s.chan t c).cerrId = 0)) ∧
  (∀ h, isCore h = true → let x := s.hart h
    x.fflags = 0 ∧ x.frm = 0 ∧ x.ftrap = 0 ∧ x.tvec = 0 ∧ x.tcause = 0 ∧ x.tpc = 0 ∧ x.tseq = 0 ∧ x.tstatus = 0 ∧ x.loopsU = [] ∧ x.loopsH = []
    ∧ (isT h = true → (x.run = .running ↔ strandOf h = 0) ∧ (strandOf h = 0 → x.priv = .system))
    ∧ (∀ p : PortNo, x.ports[p].cfg = false)) ∧
  s.crashed = false ∧ s.ioRead 0x08F500000008 2 = 1000 ∧ (∀ i : Fin 16, s.meas[i] = 0) ∧ s.bootok = false ∧
  (∀ f, f < 0xBFF400 → s.wb f = some 0) ∧ (∀ c i, (s.depot c i).st = .idle ∧ (s.depot c i).arms = 0 ∧ (s.depot c i).dones = 0) ∧
  (∀ q, (s.queue q).st = .idle)

/-- The memories of the machine right after reset are in their canonical form. -/
def Obligations.ResetMemoriesWf : Prop := State.reset.memoriesWf

/-- Every step keeps every memory of the machine in its canonical form: equal memories are equal data. -/
def Obligations.StepKeepsMemoriesWf : Prop := ∀ (s t : State), s.memoriesWf → step s = .next t → t.memoriesWf

/-! ## Class S integer and floating instructions -/

/-- R114: the values of class S op6 0, the register old of xd being SEL's third source. -/
def Sys2Proof.Claims.ScalarLogicAndShifts : Prop :=
  ∀ (s : State), s.ready → ∀ d a b : XReg,
    let x := s.rx a
    let y := s.rx b
    let n := y.toNat % 64
    Gives s (.x d (x + y)) 1 (exec (.add d a b) s) ∧
    Gives s (.x d (x - y)) 1 (exec (.sub d a b) s) ∧
    Gives s (.x d (x &&& y)) 1 (exec (.and d a b) s) ∧
    Gives s (.x d (x ||| y)) 1 (exec (.or d a b) s) ∧
    Gives s (.x d (x ^^^ y)) 1 (exec (.xor d a b) s) ∧
    Gives s (.x d (x &&& ~~~y)) 1 (exec (.andn d a b) s) ∧
    Gives s (.x d (BitVec.ofNat 64 (x.toNat * 2 ^ n))) 1 (exec (.sll d a b) s) ∧
    Gives s (.x d (BitVec.ofNat 64 (x.toNat / 2 ^ n))) 1 (exec (.srl d a b) s) ∧
    Gives s (.x d (BitVec.ofInt 64 (x.toInt / 2 ^ n))) 1 (exec (.sra d a b) s) ∧
    Gives s (.x d (BitVec.ofNat 64 (x.toNat * 2 ^ n + x.toNat / 2 ^ (64 - n)))) 1 (exec (.rol d a b) s) ∧
    Gives s (.x d (if x.toInt < y.toInt then 1 else 0)) 1 (exec (.slt d a b) s) ∧
    Gives s (.x d (if x.toNat < y.toNat then 1 else 0)) 1 (exec (.sltu d a b) s) ∧
    Gives s (.x d (BitVec.ofInt 64 (min x.toInt y.toInt))) 1 (exec (.min d a b) s) ∧
    Gives s (.x d (BitVec.ofInt 64 (max x.toInt y.toInt))) 1 (exec (.max d a b) s) ∧
    Gives s (.x d (BitVec.ofNat 64 (min x.toNat y.toNat))) 1 (exec (.minu d a b) s) ∧
    Gives s (.x d (BitVec.ofNat 64 (max x.toNat y.toNat))) 1 (exec (.maxu d a b) s) ∧
    Gives s (.x d (if s.rx d ≠ 0 then x else y)) 1 (exec (.sel d a b) s)

/-- R114: CLZ, CTZ and POPC, each by what its count says of the bits of the operand. -/
def Sys2Proof.Claims.ScalarBitCounts : Prop :=
  ∀ (s : State), s.ready → ∀ d a : XReg,
    let x := s.rx a
    (∃ n ≤ 64, (∀ i, 64 - n ≤ i → i < 64 → x.getLsbD i = false) ∧ (n < 64 → x.getLsbD (63 - n) = true)
      ∧ Gives s (.x d (BitVec.ofNat 64 n)) 1 (exec (.clz d a) s)) ∧
    (∃ n ≤ 64, (∀ i < n, x.getLsbD i = false) ∧ (n < 64 → x.getLsbD n = true)
      ∧ Gives s (.x d (BitVec.ofNat 64 n)) 1 (exec (.ctz d a) s)) ∧
    Gives s (.x d (BitVec.ofNat 64 ((Finset.range 64).filter (fun i => x.getLsbD i = true)).card)) 1 (exec (.popc d a) s)

/-- R115: products and quotients, with the values the table gives for b = 0 and for −2^63 by −1, at latency 3; no operand makes one
trap, and fn8 from 7 on is no instruction. -/
def Obligations.ScalarMultiplyDivide : Prop :=
  (∀ d a b f : Nat, d < 32 → a < 32 → b < 32 → 7 ≤ f → f < 256 →
    decodeWord (2 ^ 23 + d * 2 ^ 18 + a * 2 ^ 13 + b * 2 ^ 8 + f) = .error .selector) ∧
  ∀ (s : State), s.ready → ∀ d a b : XReg,
    let x := s.rx a
    let y := s.rx b
    Gives s (.x d (BitVec.ofNat 64 (x.toNat * y.toNat))) 3 (exec (.mul d a b) s) ∧
    Gives s (.x d (BitVec.ofInt 64 (x.toInt * y.toInt / 2 ^ 64))) 3 (exec (.mulh d a b) s) ∧
    Gives s (.x d (BitVec.ofNat 64 (x.toNat * y.toNat / 2 ^ 64))) 3 (exec (.mulhu d a b) s) ∧
    (y = 0 →
      Gives s (.x d (BitVec.ofInt 64 (-1))) 3 (exec (.div d a b) s) ∧
      Gives s (.x d (BitVec.ofNat 64 (2 ^ 64 - 1))) 3 (exec (.divu d a b) s) ∧
      Gives s (.x d x) 3 (exec (.rem d a b) s) ∧ Gives s (.x d x) 3 (exec (.remu d a b) s)) ∧
    (y ≠ 0 →
      Gives s (.x d (BitVec.ofInt 64 (x.toInt.tdiv y.toInt))) 3 (exec (.div d a b) s) ∧
      Gives s (.x d (BitVec.ofNat 64 (x.toNat / y.toNat))) 3 (exec (.divu d a b) s) ∧
      Gives s (.x d (BitVec.ofInt 64 (x.toInt.tmod y.toInt))) 3 (exec (.rem d a b) s) ∧
      Gives s (.x d (BitVec.ofNat 64 (x.toNat % y.toNat))) 3 (exec (.remu d a b) s)) ∧
    (x = BitVec.ofInt 64 (-2 ^ 63) → y = BitVec.ofInt 64 (-1) →
      Gives s (.x d x) 3 (exec (.div d a b) s) ∧ Gives s (.x d 0) 3 (exec (.rem d a b) s))

/-- R116: LEA, and the bit fields of every position and length that a word can have; each bit of BFI's result. -/
def Sys2Proof.Claims.ScalarAddressAndFields : Prop :=
  ∀ (s : State), s.ready → ∀ d a b : XReg,
    (∀ sh : Fin 8, Gives s (.x d (BitVec.ofNat 64 ((s.rx a).toNat + (s.rx b).toNat * 2 ^ sh.val))) 1 (exec (.lea d a b sh) s)) ∧
    (∀ n p : Fin 64, (Instr.bfx d a n p).wellFormed = true →
      Gives s (.x d (BitVec.ofNat 64 ((s.rx a).toNat / 2 ^ p.val % 2 ^ (n.val + 1)))) 1 (exec (.bfx d a n p) s)) ∧
    (∀ n p : Fin 64, (Instr.bfi d a n p).wellFormed = true →
      ∃ v : Word, (∀ i < 64, v.getLsbD i =
          if p.val ≤ i ∧ i < p.val + (n.val + 1) then (s.rx a).getLsbD (i - p.val) else (s.rx d).getLsbD i)
        ∧ Gives s (.x d v) 1 (exec (.bfi d a n p) s))

/-- R117, R118: the immediate forms, with the immediate read as two's complement. -/
def Sys2Proof.Claims.ScalarImmediates : Prop :=
  ∀ (s : State), s.ready → ∀ d a : XReg,
    let x := s.rx a
    (∀ i : BitVec 13,
      let y : Word := BitVec.ofInt 64 i.toInt
      Gives s (.x d (BitVec.ofInt 64 (x.toInt + i.toInt))) 1 (exec (.addi d a i) s) ∧
      Gives s (.x d (x &&& y)) 1 (exec (.andi d a i) s) ∧
      Gives s (.x d (x ||| y)) 1 (exec (.ori d a i) s) ∧
      Gives s (.x d (x ^^^ y)) 1 (exec (.xori d a i) s) ∧
      Gives s (.x d (if x.toInt < i.toInt then 1 else 0)) 1 (exec (.slti d a i) s)) ∧
    (∀ n : Fin 64,
      Gives s (.x d (BitVec.ofNat 64 (x.toNat * 2 ^ n.val))) 1 (exec (.slli d a n) s) ∧
      Gives s (.x d (BitVec.ofNat 64 (x.toNat / 2 ^ n.val))) 1 (exec (.srli d a n) s) ∧
      Gives s (.x d (BitVec.ofInt 64 (x.toInt / 2 ^ n.val))) 1 (exec (.srai d a n) s)) ∧
    (∀ i : BitVec 18,
      Gives s (.x d (BitVec.ofInt 64 (i.toInt * 2 ^ 13))) 1 (exec (.lui d i) s) ∧
      Gives s (.x d (BitVec.ofInt 64 ((s.rx d).toInt + i.toInt * 2 ^ 31))) 1 (exec (.luih d i) s))

/-- Results of the class S integer instructions, with their frames: ScalarLogicAndShifts, ScalarBitCounts, ScalarAddressAndFields, ScalarImmediates. -/
def Obligations.ScalarIntegers : Prop :=
  Claims.ScalarLogicAndShifts ∧ Claims.ScalarBitCounts ∧ Claims.ScalarAddressAndFields ∧ Claims.ScalarImmediates

/-! ## Class S floating instructions and control -/

/-- R119, R99, R101: the FP32 instructions with their flags, on bits [31:0] of the operands and under FRM. -/
def Sys2Proof.Claims.ScalarFloatWords : Prop :=
  ∀ (s : State), s.ready → ∀ d a b : XReg,
    let x := (s.rx a).toNat % 2 ^ 32
    let y := (s.rx b).toNat % 2 ^ 32
    let z := (s.rx d).toNat % 2 ^ 32
    let rm := Rm.ofCode s.me.frm.toNat
    let F := FloatFmt.fp32
    let gives := fun (r : Nat × FlagSet) (o : Out) => GivesFloat s d (BitVec.ofNat 64 r.1) 4 r.2 o
    gives (fAdd F rm x y) (exec (.faddS d a b) s) ∧ gives (fSub F rm x y) (exec (.fsubS d a b) s) ∧
    gives (fMul F rm x y) (exec (.fmulS d a b) s) ∧ gives (fFma F rm false false x y z) (exec (.fmaS d a b) s) ∧
    gives (fMin F x y, 0) (exec (.fminS d a b) s) ∧ gives (fMax F x y, 0) (exec (.fmaxS d a b) s) ∧
    gives ((if cmpNum (F.value x) (F.value y) = some 0 then 1 else 0), 0) (exec (.feqS d a b) s) ∧
    gives ((if cmpNum (F.value x) (F.value y) = some (-1) then 1 else 0), 0) (exec (.fltS d a b) s) ∧
    gives ((if cmpNum (F.value x) (F.value y) = some 0 ∨ cmpNum (F.value x) (F.value y) = some (-1) then 1 else 0), 0)
      (exec (.fleS d a b) s) ∧
    gives (roundNum F rm false (ofInt (BitVec.ofNat 32 x).toInt)) (exec (.fcvtSW d a) s) ∧
    gives (floatToFloat F .rne false (FloatFmt.bf16.value (x % 2 ^ 16))) (exec (.fcvtSBf d a) s) ∧
    gives (floatToFloat .bf16 rm false (F.value x)) (exec (.fcvtBfS d a) s) ∧
    (let w := fun (i : Int) (fl : FlagSet) => GivesFloat s d (BitVec.ofInt 64 i) 4 fl (exec (.fcvtWS d a) s)
     match F.value x with
     | .nan => w 0 flagNV
     | .inf neg => w (if neg then -2 ^ 31 else 2 ^ 31 - 1) flagNV
     | .fin neg m e st =>
       let i := (roundInt rm neg m e st).1
       if i < -2 ^ 31 then w (-2 ^ 31) flagNV else if 2 ^ 31 - 1 < i then w (2 ^ 31 - 1) flagNV
       else w i (if (roundInt rm neg m e st).2 then flagNX else 0))

/-- R88, R89, R96, R98, R111: what a result is rounded from. Sums, products, fused results, negations, absolute values and scalings of finite
values are exact, with the signs of zero sums and products; NaNs, infinities and the invalid operations; the order of values; FMIN and FMAX
on patterns, a NaN yielding the other operand and −0 below +0. RoundedResults states the one rounding. -/
def Sys2Proof.Claims.ExactArithmetic : Prop :=
  (∀ (rm : Rm) (a b c : Machine.Num) (x y z : ℚ), a.Is x → b.Is y → c.Is z →
    (addNum rm a b).1.Is (x + y) ∧ (addNum rm a b).2 = 0 ∧ (mulNum a b).1.Is (x * y) ∧ (mulNum a b).2 = 0 ∧
    (fmaNum rm a b c).1.Is (x * y + z) ∧ (fmaNum rm a b c).2 = 0 ∧
    a.neg.Is (-x) ∧ a.abs.Is |x| ∧ (∀ k : ℤ, (a.scale k).Is (x * 2 ^ k)) ∧
    cmpNum a b = some (if x < y then -1 else if x = y then 0 else 1) ∧
    (x + y = 0 → x ≠ 0 → ∃ e, (addNum rm a b).1 = .fin (decide (rm = .rdn)) 0 e false)) ∧
  (∀ (rm : Rm) (p q r : Bool) (m n : Nat) (e g : ℤ),
    let a : Machine.Num := .fin p m e false
    let b : Machine.Num := .fin q n g false
    (m = 0 → n = 0 → ∃ k, (addNum rm a b).1 = .fin (if p = q then p else decide (rm = .rdn)) 0 k false) ∧
    (m = 0 ∨ n = 0 → ∃ k, (mulNum a b).1 = .fin (p != q) 0 k false) ∧
    addNum rm (.inf p) b = (.inf p, 0) ∧ addNum rm a (.inf q) = (.inf q, 0) ∧
    addNum rm (.inf p) (.inf q) = (if p = q then (.inf p, 0) else (.nan, flagNV)) ∧
    mulNum (.inf p) b = (if n = 0 then (.nan, flagNV) else (.inf (p != q), 0)) ∧
    mulNum a (.inf q) = (if m = 0 then (.nan, flagNV) else (.inf (p != q), 0)) ∧ mulNum (.inf p) (.inf q) = (.inf (p != q), 0) ∧
    cmpNum (.inf p) (.inf q) = some (if p = q then 0 else if p then -1 else 1) ∧
    cmpNum (.inf p) b = some (if p then -1 else 1) ∧ cmpNum a (.inf q) = some (if q then 1 else -1) ∧
    ∀ c : Machine.Num, addNum rm .nan c = (.nan, 0) ∧ addNum rm c .nan = (.nan, 0) ∧ mulNum .nan c = (.nan, 0) ∧ mulNum c .nan = (.nan, 0) ∧
      cmpNum .nan c = none ∧ cmpNum c .nan = none ∧ (Machine.Num.inf r).neg = .inf (!r) ∧ (Machine.Num.inf r).abs = .inf false ∧
      ∀ u v, fmaNum rm u v c = if (mulNum u v).2 = flagNV then (.nan, flagNV) else addNum rm (mulNum u v).1 c) ∧
  (∀ (f : FloatFmt) (can : Nat), (f, can) ∈ [(FloatFmt.fp32, 0x7FC00000), (.bf16, 0x7FC0), (.fp16, 0x7E00)] →
    (∀ rm sat, roundNum f rm sat .nan = (can, 0)) ∧ ∀ p q, p < 2 ^ f.width → q < 2 ^ f.width →
    let key := fun (u : Nat) => if u < 2 ^ (f.width - 1) then (u : ℤ) else -1 - ((u : ℤ) - 2 ^ (f.width - 1))
    (f.value p = .nan → f.value q = .nan → fMin f p q = can ∧ fMax f p q = can) ∧
    (f.value p = .nan → f.value q ≠ .nan → fMin f p q = q ∧ fMax f p q = q) ∧
    (f.value p ≠ .nan → f.value q = .nan → fMin f p q = p ∧ fMax f p q = p) ∧
    (f.value p ≠ .nan → f.value q ≠ .nan →
      fMin f p q = (if key p ≤ key q then p else q) ∧ fMax f p q = if key p ≤ key q then q else p)) ∧
  (∀ f ∈ [FloatFmt.fp32, .bf16, .fp16, .e5m2, .e4m3, .e3m2, .e2m3, .e2m1, .fx48], ∀ (p : Nat) (u : ℚ),
    (f.value p).real = some u → (f.value p).Is u) ∧
  (∀ i : ℤ, (ofInt i).Is i)

/-- Results and flags of the class S FP32 instructions: ScalarFloatWords, ExactArithmetic. -/
def Obligations.ScalarFloating : Prop :=
  Claims.ScalarFloatWords ∧ Claims.ExactArithmetic

/-- R120, R121, R126, R33, R39, R64, R265: conditional branches, BEOS, JAL and an aligned JALR. A follower of a consist makes
no decision of its own. -/
def Sys2Proof.Claims.BranchesAndJumps : Prop :=
  ∀ (s : State), s.ready → ∀ a b d : XReg,
    let x := s.rx a
    let y := s.rx b
    let branch := fun (take : Prop) (g : Word) (o : Out) =>
      (take → s.issue.fwd = none → JumpsTo o s s.me g) ∧ ((¬ take ∨ s.issue.fwd ≠ none) → Runs o s s.me)
    (∀ o : BitVec 13,
      let g := s.me.pc + BitVec.ofInt 64 (o.toInt * 8)
      branch (x = y) g (exec (.beq a b o) s) ∧ branch (x ≠ y) g (exec (.bne a b o) s) ∧
      branch (x.toInt < y.toInt) g (exec (.blt a b o) s) ∧ branch (y.toInt ≤ x.toInt) g (exec (.bge a b o) s) ∧
      branch (x.toNat < y.toNat) g (exec (.bltu a b o) s) ∧ branch (y.toNat ≤ x.toNat) g (exec (.bgeu a b o) s) ∧
      (isT s.cur = true → ∀ p : PortNo,
        branch (s.me.ports[p].cfg = true ∧ s.me.ports[p].eos = true) g (exec (.beos p o) s))) ∧
    (∀ o : BitVec 18, s.issue.fwd = none →
      JumpsTo (exec (.jal d o) s) s (s.withResult (.x d (s.me.pc + 8)) 1 false) (s.me.pc + BitVec.ofInt 64 (o.toInt * 8))) ∧
    (∀ o : BitVec 18, s.issue.fwd ≠ none → Runs (exec (.jal d o) s) s (s.withResult (.x d (s.me.pc + 8)) 1 false)) ∧
    (∀ i : BitVec 13, s.issue.fwd ≠ none → Runs (exec (.jalr d a i) s) s (s.withResult (.x d (s.me.pc + 8)) 1 false)) ∧
    (∀ i : BitVec 13, s.issue.fwd = none → (x + BitVec.ofInt 64 i.toInt).toNat % 8 = 0 →
      JumpsTo (exec (.jalr d a i) s) s (s.withResult (.x d (s.me.pc + 8)) 1 false) (x + BitVec.ofInt 64 i.toInt))

/-- R123: LOOP with a count pushes a level; a count of 0 skips the body, an enclosing level of the same last bundle being
tested as after it; its traps. -/
def Sys2Proof.Claims.LoopInstruction : Prop :=
  ∀ (s : State), s.ready → s.issue.fwd = none → ∀ (a : XReg) (o : BitVec 13),
    let n := s.rx a
    let last := s.me.pc + BitVec.ofInt 64 (o.toInt * 8)
    let ls := s.me.loops
    let run := exec (.loop a o) s
    (2 ^ 28 ≤ n.toNat → Traps run s 0x01 n) ∧
    (0 < n.toNat → n.toNat < 2 ^ 28 → (2 ≤ ls.length ∨ ∃ l ∈ ls, l.last.toNat < last.toNat) →
      Traps run s 0x01 s.wordTval) ∧
    (0 < n.toNat → n.toNat < 2 ^ 28 → ls.length < 2 → (∀ l ∈ ls, last.toNat ≤ l.last.toNat) →
      Runs run s (s.me.setLoops (⟨s.me.pc + 8, last, n.setWidth 28⟩ :: ls))) ∧
    (n = 0 → s.issue.paired = false → ∃ t ls' back, run = .next t ∧ OnlyMe s t ∧ LoopEnd last ls ls' back
      ∧ Issued (s.me.setLoops ls') (t.hart s.cur) ∧ (t.hart s.cur).loops = ls'
      ∧ At (back.getD (last + 8)) (t.hart s.cur) ∧ t.issue.ctl = .taken)

/-- Branches, jumps and hardware loops: BranchesAndJumps, LoopInstruction. -/
def Obligations.ControlTransfers : Prop :=
  Claims.BranchesAndJumps ∧ Claims.LoopInstruction

/-- R127, R121, R320, R321, R324, R330: the words that trap by what they are, and a JALR to a target that is not 8-aligned.
With no result in flight, the strand or core keeps every register but x1 and x2 of its handler's entry: none of the three words writes one.
Where the entry's places are there and a slot is free, the trap is delivered, with its frame and its record. -/
def Obligations.TrapWords : Prop :=
  ∀ (s : State), s.ready → ∀ a d : XReg,
    let keeps := fun (o : Out) => s.me.flight = [] → ∃ t, o = .next t ∧
      (let y := t.hart s.cur
       (∀ r : XReg, r ≠ 1 → r ≠ 2 → y.x[r] = s.me.x[r]) ∧ y.v = s.me.v ∧ y.k = s.me.k ∧ y.ports = s.me.ports ∧ y.loopsU = s.me.loopsU
         ∧ y.fflags = s.me.fflags ∧ y.frm = s.me.frm ∧ y.ftrap = s.me.ftrap)
    let delivers := fun (o : Out) => ∀ frame l slot hp sp, s.Delivers s.cur frame l slot hp sp → (isT s.cur = true → s.myTile.csize ≤ 1) →
      ∃ t, o = .next t ∧ s.Delivered t s.cur (t.hart s.cur) frame l slot hp sp
    Traps (exec (.trap a) s) s 0x40 (s.rx a) ∧ Traps (exec .brk s) s 0x41 0 ∧ delivers (exec (.trap a) s) ∧ delivers (exec .brk s) ∧ keeps (exec (.trap a) s) ∧ keeps (exec .brk s) ∧
    (∀ i : BitVec 13, s.issue.fwd = none → (s.rx a + BitVec.ofInt 64 i.toInt).toNat % 8 ≠ 0 →
      Traps (exec (.jalr d a i) s) s 0x04 (s.rx a + BitVec.ofInt 64 i.toInt) ∧ keeps (exec (.jalr d a i) s) ∧ delivers (exec (.jalr d a i) s))

/-- R48, R127, R128: a word that needs HANDLER or KERNEL traps PRIV at USER, and one that the profile does not have traps
ILLEGAL: on profile G every word of classes V and X, and the port, stream, barrier and task words of classes S and M. -/
def Obligations.PrivilegeAndProfile : Prop :=
  ∀ (s : State), s.ready →
    (s.me.priv = .user → Traps (exec .eret s) s 0x05 s.wordTval ∧
      (isT s.cur = false → Traps (exec .halt s) s 0x05 s.wordTval
        ∧ ∀ d a b : XReg, Traps (exec (.foffer d a b) s) s 0x05 s.wordTval ∧ Traps (exec (.faccept d a b) s) s 0x05 s.wordTval
          ∧ Traps (exec (.flend d a b) s) s 0x05 s.wordTval ∧ Traps (exec (.frecall d a b) s) s 0x05 s.wordTval
          ∧ Traps (exec (.frelease d a) s) s 0x05 s.wordTval ∧ Traps (exec (.fquery d a) s) s 0x05 s.wordTval
          ∧ ∀ (sc : TlbiScope) (k : TlbiKind), Traps (exec (.tlbi sc a b k) s) s 0x05 s.wordTval)) ∧
    (isT s.cur = true → ∀ (d a b : XReg) (sc : TlbiScope) (k : TlbiKind) (poll : Bool),
      Traps (exec (.foffer d a b) s) s 0x01 s.wordTval ∧ Traps (exec (.faccept d a b) s) s 0x01 s.wordTval
      ∧ Traps (exec (.flend d a b) s) s 0x01 s.wordTval ∧ Traps (exec (.frecall d a b) s) s 0x01 s.wordTval
      ∧ Traps (exec (.frelease d a) s) s 0x01 s.wordTval ∧ Traps (exec (.fquery d a) s) s 0x01 s.wordTval
      ∧ Traps (exec (.tlbi sc a b k) s) s 0x01 s.wordTval ∧ Traps (exec (.gdisp d a) s) s 0x01 s.wordTval
      ∧ Traps (exec (.gjoin d a poll) s) s 0x01 s.wordTval) ∧
    (isT s.cur = false →
      let ill := fun (i : Instr) => Traps (exec i s) s 0x01 s.wordTval
      (∀ (i : Instr) (w : Nat), encode false i = some w → 2 ≤ classOf w → ill i) ∧
      ∀ (d a : VReg) (k : KReg) (keep : Bool) (x y : XReg) (p : PortNo) (o : BitVec 13) (lv : Level) (sel : Fin 8),
      ill (.vld d x o) ∧ ill (.vst d x o) ∧ ill (.vlds d x y k keep) ∧ ill (.vsts d x y k keep) ∧ ill (.vgth d x a k keep)
      ∧ ill (.vsct d x a k keep) ∧ ill (.qcfg p x) ∧ ill (.qget d p) ∧ ill (.qput p a) ∧ ill (.qclose p) ∧ ill (.qstat x p sel)
      ∧ ill (.beos p o) ∧ ill (.bar x lv) ∧ ill (.barw x lv) ∧ ill (.phase x lv) ∧ ill (.couple x) ∧ ill .uncouple ∧ ill (.inbx x y keep)
      ∧ ill (.jnext x y) ∧ ill (.larm x y))

/-- R68, R129: YIELD under GTO, WEIGHTED and otherwise; WFE with the latch set, past its deadline, and waiting; the deadline's
arrival ends a wait. -/
def Sys2Proof.Claims.WaitAndYield : Prop :=
  ∀ (s : State), s.ready →
    (let t := s.myTile
     let i := strandOf s.cur
     let gto := isT s.cur = true ∧ t.shared = true ∧ t.arb.toNat % 4 = 0
     let weighted := isT s.cur = true ∧ t.shared = true ∧ t.arb.toNat % 4 = 2 ∧ 0 < t.arbCtr[i]
     (gto → Runs (exec .yield s) (s.setMyTile { t with age := t.age.filter (· != i) ++ [i], yielded := true }) s.me) ∧
     (weighted → Runs (exec .yield s) (s.setMyTile { t with arbCtr := t.arbCtr.set i 0 }) s.me) ∧
     (¬ gto → ¬ weighted → Runs (exec .yield s) s s.me)) ∧
    (∀ a : XReg,
      (s.me.latch = true → Runs (exec (.wfe a) s) s { s.me with latch := false }) ∧
      (s.me.latch = false → a ≠ 0 → (s.me.wfeOver = true ∨ (s.rx a).toNat ≤ s.dtime) → Runs (exec (.wfe a) s) s s.me) ∧
      (s.me.latch = false → (a = 0 ∨ (s.me.wfeOver = false ∧ s.dtime < (s.rx a).toNat)) →
        Waits (exec (.wfe a) s) s { s.me with wfe := if a = 0 then none else some (s.rx a) })) ∧
    (∀ (h : Nat) (t : Word), (s.hart h).wfe = some t → t.toNat ≤ s.dtime →
      exec (.wfeDeadline h) s = .next (s.setHart h { s.hart h with wfeOver := true }))

/-- R130: HALT of a strand waits, its pc staying at the HALT (the model's reading, log 39), in a paired bundle after word 1; when its results have landed its MODE.RUN bit clears and it issues no more. A
profile G core waits for its latch, clears it, and goes on at the same privilege. -/
def Sys2Proof.Claims.Halting : Prop :=
  ∀ (s : State), s.ready →
    (isT s.cur = true → s.issue.paired = false → ∃ t, exec .halt s = .next t ∧ OnlyMe s t
      ∧ (t.hart s.cur).run = .halting ∧ (t.hart s.cur).pc = s.me.pc ∧ (t.hart s.cur).w1 = s.me.w1
      ∧ (t.hart s.cur).flight = s.me.flight ∧ (t.hart s.cur).x = s.me.x) ∧
    (isT s.cur = true → s.issue.paired = true → s.issue.w1 = false → ∃ t, exec .halt s = .next t ∧ OnlyMe s t
      ∧ t.issue = { s.issue with target := some s.me.pc, keepLoops := true }
      ∧ (t.hart s.cur).run = .halting ∧ SamePlace s.me (t.hart s.cur)
      ∧ (t.hart s.cur).flight = s.me.flight ∧ (t.hart s.cur).x = s.me.x) ∧
    (isT s.cur = false → s.me.priv ≠ .user →
      (s.me.latch = true → Runs (exec .halt s) s { s.me with latch := false }) ∧
      (s.me.latch = false → Waits (exec .halt s) s s.me)) ∧
    (∀ h, isT h = true → (s.hart h).run = .halting → (s.hart h).flight = [] → (s.hart h).vq = [] → (s.hart h).late = [] →
      ∃ t, exec (.haltRetire h) s = .next t ∧ (t.hart h).run = .inactive
        ∧ (t.tile (tileOf h)).mode = (s.tile (tileOf h)).mode &&& ~~~(1#64 <<< (1 + (strandOf h).val))
        ∧ (t.hart h).x = (s.hart h).x ∧ t.mem = s.mem)

/-- YIELD, WFE and HALT: WaitAndYield, Halting. -/
def Obligations.WaitingWords : Prop :=
  Claims.WaitAndYield ∧ Claims.Halting

/-- R128, R325, R62, R277: ERET above USER outside a consist resumes at TPC, word WORD, at the privilege PPRIV, with the pipe
shadow on its way again when a fixed-mode tile returns to USER. The handler's own results in flight on such a tile land first (log 85). What
the stop of a consist has cut short comes before the resumed word (R266), and a wait in HALT goes on (log 39); what an ERET in a consist waits
for is in Consists. -/
def Sys2Proof.Claims.ReturnFromHandler : Prop :=
  ∀ (s : State), s.ready → s.me.priv ≠ .user → (isT s.cur = true → tsStart s.me = false ∧ s.myTile.csize ≤ 1) →
    ∃ t, exec .eret s = .next t ∧ t.issue = { s.issue with ctl := .taken }
      ∧ (∀ h, h ≠ s.cur → t.hart h = s.hart h) ∧ t.mem = s.mem
      ∧ (let x := s.me
         let y := t.hart s.cur
         ∃ l, LandsAs (x.flight.filter (·.due.isSome)) l ∧
         let z := if isT s.cur = true ∧ s.myTile.shared = false then l.foldl (fun z f => written z f.land) x else x
         y.pc = x.tpc &&& 0x0000FFFFFFFFFFF8 ∧ y.w1 = x.tstatus.getLsbD 2 ∧ y.priv = Priv.ofCode (x.tstatus.toNat % 4)
         ∧ y.loopsH = [] ∧ y.bubble = (if s.myTile.cpos = 0 then 2 + x.rest else 2) ∧
         y.run = (if x.halts = true ∧ x.tstatus.toNat % 4 = 0 then .halting else x.run) ∧ y.bpskip = x.tstatus.getLsbD 12 ∧ y.x = z.x ∧ y.v = z.v ∧ y.k = z.k
         ∧ y.tpc = x.tpc ∧ y.tstatus = x.tstatus ∧ y.loopsU = x.loopsU
         ∧ ((isT s.cur = true ∧ s.myTile.shared = false ∧ x.tstatus.toNat % 4 = 0) →
             y.shadow = [] ∧ ∀ f ∈ x.shadow, ∃ g ∈ y.flight, g.due = some (s.myTile.adv + 3 + x.rest + f.rem) ∧ g.land = f.land))
      ∧ (isT s.cur = true → exec .eretStart s = exec .eret s)

/-- R66, R129, R221, R276, R277: ERET with START starts the launch whose task record lies at X(x1): the record's strands begin at TPC at USER,
with the arguments in x10 to x17, the handoff region in x8 and x9, every other register 0, and their event latches as they were (the model's
reading, log 31); under RR strand 3 counts as the last issuer, else the oldest strand is the first; the others do not run. A fixed launch in a shared
tile is ended with the status 0x0D. The model takes all of it, also the registers' values, from the record at X(x1) (log 37), and starts STRANDS
strands whatever MODE.SHARED is (log 91); r is those 64 bytes where they lie in the local alias. -/
def Sys2Proof.Claims.LaunchStart : Prop :=
  ∀ (s : State), s.readyT → s.me.priv ≠ .user → s.cur % 4 = 0 → tsStart s.me = true →
    let t := tileOf s.cur
    let r := (s.keptRecord t (s.rx 1)).1
    let num := fun (lo n : Nat) => leNat ((r.drop lo).take n)
    let size := num 16 4 / 2 ^ 20 * 256
    (∀ off, (s.rx 1).toNat = aliasBase + off → off + 64 ≤ scratchSize → r = s.bytesAt (.scratch t off) 64) ∧
    ∀ o ∈ [exec .eret s, exec .eretStart s],
    ((s.myTile.shared && s.myTile.fixcode) = false → ∃ u, o = .next u
      ∧ (∀ i : Fin 4, (i.val < min (num 20 1) 4 → let y := u.hart (4 * t + i.val)
          y.run = .running ∧ y.priv = .user ∧ y.pc = s.me.tpc &&& 0x0000FFFFFFFFFFF8 ∧ y.w1 = false
          ∧ (∀ j : XReg, y.x[j] = BitVec.ofNat 64 (if j.val = 8 then (if size = 0 then 0 else num 16 4 % 2 ^ 20) else if j.val = 9 then size
              else if 10 ≤ j.val ∧ j.val < 18 then num (32 + 4 * (j.val - 10)) 4 else 0))
          ∧ y.v = Vector.replicate 24 0 ∧ y.k = Vector.replicate 8 0 ∧ y.flight = [] ∧ y.fflags = 0 ∧ y.ftrap = 0
          ∧ (∀ p : PortNo, y.ports[p].cfg = false) ∧ y.latch = (s.hart (4 * t + i.val)).latch ∧ (u.tile t).runs i = true) ∧
        (min (num 20 1) 4 ≤ i.val → (u.hart (4 * t + i.val)).run = .inactive ∧ (u.tile t).runs i = false))
      ∧ (u.tile t).last = (if s.myTile.arb.toNat % 4 = 1 then 3 else 0)
      ∧ (u.tile t).owner = 0 ∧ (u.tile t).cmds = [] ∧ (∀ q : RingNo, (u.tile t).rings[q].cfg = 0) ∧ (∀ c, (u.chan t c).live = [])
      ∧ u.mem = s.mem ∧ (u.tile t).scratch = s.myTile.scratch) ∧
    (∀ n l, s.myTile.shared = true → s.myTile.fixcode = true → s.myTile.launch = some n → s.launch? n = some l → t ∈ l.tiles →
      ∃ u, o = .next u ∧ u.launch? n = some { l with ending := true, status := 0x0D } ∧ ∀ i < 4, (u.hart (4 * t + i)).run = .inactive)

/-- ERET returns to the program, or starts a launch: ReturnFromHandler, LaunchStart. -/
def Obligations.ReturnsAndStarts : Prop :=
  Claims.ReturnFromHandler ∧ Claims.LaunchStart

/-! ## Control registers -/

/-- R52, R53, R132, R19, R20, R45, R54, R62, R85, R101, R125, R185, R257: what MFC reads of each register of a strand; a register with a privilege
below HANDLER only there; an unlisted number traps ILLEGAL. SYSTIME as a free function of the clock is log 10, PKGNUM as the frame's
number log 18, PEND as the pending generations for which the tile has arrived and a strand has made its arrival log 28, MSTAT.DEPTH as the commands that are
not held log 98, and which instructions count as floating, for the wait of an MFC of FFLAGS in shared mode and at HANDLER, where readers wait for results, log 123. -/
def Sys2Proof.Claims.TileRegisterReads : Prop :=
  ∀ (s : State), s.readyT → ∀ d : XReg,
    let x := s.me
    let t := s.myTile
    let n := tileOf s.cur
    let reads := fun (r : Nat) (v : Word) => Gives s (.x d v) 1 (exec (.mfc d (BitVec.ofNat 12 r)) s)
    reads 0x000 (BitVec.ofNat 64 (s.cur % 4)) ∧ reads 0x001 (BitVec.ofNat 64 (s.cur / 4)) ∧ reads 0x002 t.dommem ∧
    reads 0x003 (BitVec.ofNat 64 s.pkgnum) ∧ reads 0x100 t.mode ∧ reads 0x101 t.arb ∧ reads 0x102 t.vshare ∧
    reads 0x103 (BitVec.ofNat 64 (t.owner.toNat + if t.cmds = [] then 0 else 4)) ∧
    reads 0x200 (BitVec.ofNat 64 (s.dtime - t.born)) ∧ reads 0x201 (BitVec.ofNat 64 s.dtime) ∧
    reads 0x202 (Config.sysTime s.clk) ∧ reads 0x301 (BitVec.ofNat 64 x.frm.toNat) ∧ reads 0x302 (BitVec.ofNat 64 x.ftrap.toNat) ∧
    (let owing := (t.shared = true ∨ x.priv ≠ .user) ∧ ((∃ f ∈ x.flight, f.float = true) ∨ ∃ c ∈ t.cmds, c.strand = strandOf s.cur ∧ isDrain c.instr = true)
     (¬ owing → reads 0x300 (BitVec.ofNat 64 x.fflags.toNat)) ∧ (owing → Waits (exec (.mfc d 0x300) s) s x)) ∧
    (∀ l : Fin 4,
      let g := t.gen[l]
      let past := fun (i : Fin 4) (m : BitVec 32) => (s.hart (4 * n + i.val)).arrivals[l] - m
      let arrived := fun (m : BitVec 32) => (∃ i, (past i m).toNat < 2 ^ 31)
        ∧ (t.allHalted = true ∨ ((∃ i, t.runs i = true) ∧ ∀ i, t.runs i = true → (past i m).toNat < 2 ^ 31))
      ∃ v : Word, v.toNat % 2 ^ 32 = g.toNat ∧ v.toNat / 2 ^ 38 = 0
        ∧ (∀ i : Fin 4, v.getLsbD (34 + i.val) = true ↔ 0 < (past i g).toNat ∧ (past i g).toNat < 2 ^ 31)
        ∧ (arrived (g + 2) → v.toNat / 2 ^ 32 % 4 = 2) ∧ (¬ arrived (g + 2) → arrived (g + 1) → v.toNat / 2 ^ 32 % 4 = 1)
        ∧ (¬ arrived (g + 2) → ¬ arrived (g + 1) → v.toNat / 2 ^ 32 % 4 = 0) ∧ reads (0x500 + l.val) v) ∧
    (∃ v : Word, (∀ p : PortNo, ∀ i < 8, v.getLsbD (8 * p.val + i) = (BitVec.ofNat 8 (x.ports[p].status)).getLsbD i) ∧ reads 0x600 v) ∧
    (∀ l, x.loops = [l] → reads 0x601 (BitVec.ofNat 64 (l.count.toNat * 2 ^ 28 + 2 ^ 56))) ∧
    (∀ l m, x.loops = [l, m] → reads 0x601 (BitVec.ofNat 64 (l.count.toNat + m.count.toNat * 2 ^ 28 + 2 ^ 57))) ∧
    (x.loops = [] → reads 0x601 0) ∧
    reads 0x700 0 ∧ reads 0x701 0 ∧ reads 0x702 0 ∧ reads 0x703 0 ∧
    reads 0x704 (BitVec.ofNat 64 (6 + 6 * 2 ^ 4 + 6 * 2 ^ 8 + 5 * 2 ^ 12 + 6 * 2 ^ 16 + 5 * 2 ^ 20 + 16 * 2 ^ 23)) ∧
    reads 0x705 (BitVec.ofNat 64 (4 + 4 * 2 ^ 4 + 8 * 2 ^ 8 + 16 * 2 ^ 12 + 4 * 2 ^ 17 + 16 * 2 ^ 20 + 8 * 2 ^ 25 + 96 * 2 ^ 29 + 24 * 2 ^ 36
      + ((Finset.range 128).filter (fun i => s.lost (128 * (n / 128) + i) = false)).card * 2 ^ 44)) ∧
    reads 0x800 t.scrbase ∧
    reads 0x801 (BitVec.ofNat 64 (t.mstat.toNat + t.cmds.length * 2 ^ 20)) ∧
    (x.priv ≠ .user →
      reads 0x400 (s.ctx t.ctx).tvec ∧ reads 0x401 x.tcause ∧ reads 0x402 x.tpc ∧ reads 0x403 x.tval ∧ reads 0x404 x.tseq ∧
      reads 0x405 x.tstatus ∧ reads 0x406 (s.ctx t.ctx).fring ∧
      reads 0xF00 (BitVec.ofNat 64 (t.dbgctl.toNat + if t.frozen = true then 2 ^ 25 else 0))) ∧
    (x.priv = .user → ∀ r ∈ [0x400, 0x401, 0x402, 0x403, 0x404, 0x405, 0x406, 0xF00],
      Traps (exec (.mfc d (BitVec.ofNat 12 r)) s) s 0x05 s.wordTval) ∧
    (∀ r : BitVec 12, r.toNat ∉ [0x000, 0x001, 0x002, 0x003, 0x100, 0x101, 0x102, 0x103, 0x200, 0x201, 0x202, 0x300, 0x301, 0x302, 0x400, 0x401, 0x402, 0x403,
        0x404, 0x405, 0x406, 0x500, 0x501, 0x502, 0x503, 0x600, 0x601, 0x700, 0x701, 0x702, 0x703, 0x704, 0x705, 0x800, 0x801, 0xF00] →
      Traps (exec (.mfc d r) s) s 0x01 s.wordTval)

/-- R52, R53, R101, R132, R403: what MFC reads of each register that a profile G core has; the others trap ILLEGAL there. Which
instructions count as floating is log 123. -/
def Sys2Proof.Claims.CoreRegisterReads : Prop :=
  ∀ (s : State), s.readyG → ∀ d : XReg,
    let x := s.me
    let reads := fun (r : Nat) (v : Word) => Gives s (.x d v) 1 (exec (.mfc d (BitVec.ofNat 12 r)) s)
    reads 0x000 (BitVec.ofNat 64 (s.cur - 2048)) ∧ reads 0x003 (BitVec.ofNat 64 s.pkgnum) ∧ reads 0x200 (BitVec.ofNat 64 s.clk) ∧
    reads 0x201 (BitVec.ofNat 64 s.dtime) ∧ reads 0x202 (Config.sysTime s.clk) ∧
    ((∀ f ∈ x.flight, f.float = false) → reads 0x300 (BitVec.ofNat 64 x.fflags.toNat)) ∧
    ((∃ f ∈ x.flight, f.float = true) → Waits (exec (.mfc d 0x300) s) s x) ∧
    reads 0x301 (BitVec.ofNat 64 x.frm.toNat) ∧ reads 0x302 (BitVec.ofNat 64 x.ftrap.toNat) ∧
    (x.loops = [] → reads 0x601 0) ∧ (∀ l, x.loops = [l] → reads 0x601 (BitVec.ofNat 64 (l.count.toNat * 2 ^ 28 + 2 ^ 56))) ∧
    (∀ l m, x.loops = [l, m] → reads 0x601 (BitVec.ofNat 64 (l.count.toNat + m.count.toNat * 2 ^ 28 + 2 ^ 57))) ∧
    reads 0x700 0 ∧ reads 0x701 0 ∧ reads 0x702 0 ∧ reads 0x703 0 ∧
    reads 0x704 (BitVec.ofNat 64 (6 + 6 * 2 ^ 4 + 6 * 2 ^ 8 + 5 * 2 ^ 12 + 6 * 2 ^ 16 + 5 * 2 ^ 20 + 16 * 2 ^ 23)) ∧
    (x.priv ≠ .user → reads 0x400 x.tvec ∧ reads 0x401 x.tcause ∧ reads 0x402 x.tpc ∧ reads 0x403 x.tval ∧ reads 0x405 x.tstatus) ∧
    (x.priv = .user → ∀ r ∈ [0x400, 0x401, 0x402, 0x403, 0x405], Traps (exec (.mfc d (BitVec.ofNat 12 r)) s) s 0x05 s.wordTval) ∧
    (∀ r : BitVec 12, r.toNat ∉ [0x000, 0x003, 0x200, 0x201, 0x202, 0x300, 0x301, 0x302, 0x400, 0x401, 0x402, 0x403, 0x405, 0x601, 0x700, 0x701, 0x702,
        0x703, 0x704] →
      Traps (exec (.mfc d r) s) s 0x01 s.wordTval)

/-- What MFC reads of each control register (the model's choices: logs 10, 18, 28, 98 and 123): TileRegisterReads, CoreRegisterReads. -/
def Obligations.ControlRegisterReads : Prop :=
  Claims.TileRegisterReads ∧ Claims.CoreRegisterReads

/-- R52, R53, R75, R132, R319, R340: what an MTC that stands alone writes in each writable register of a strand, the bits a field map
reserves being ignored; in a paired bundle the write waits for the end of the bundle; what it writes below HANDLER, and what traps PRIV there.
MODE, MOWNER, LOOPC and MSTAT it writes as the rows of UnitsAndDebug say. FRING's low six bits are stored as 0 (log 42). The cycle of the flags that
an MTC to FFLAGS keeps is log 109's. An unlisted number traps ILLEGAL, and a register of reads alone ignores the write. -/
def Sys2Proof.Claims.TileRegisterWrites : Prop :=
  ∀ (s : State), s.readyT → ∀ a : XReg,
    let x := s.me
    let t := s.myTile
    let v := s.rx a
    let w := fun (r : Nat) => exec (.mtc a (BitVec.ofNat 12 r)) s
    w 0x100 = exec (.modeWrite v) s ∧ w 0x101 = exec (.arbWrite v) s ∧ w 0x102 = exec (.vshareWrite v) s ∧ w 0x103 = exec (.mownerWrite v) s ∧
    w 0x300 = exec (.fflagsWrite v) s ∧ w 0x601 = exec (.loopcWrite v) s ∧ w 0x801 = exec (.mstatWrite v) s ∧
    (s.issue.paired = false →
      Runs (w 0x301) s { x with frm := v.setWidth 2 } ∧ Runs (w 0x302) s { x with ftrap := v.setWidth 5 } ∧
      Runs (w 0x300) s { x with fflags := v.setWidth 5 ||| x.landed ||| x.landedNow } ∧
      Runs (w 0x102) (s.setMyTile { t with vshare := v &&& 0xFFFF, vCtr := Vector.replicate 4 0 }) x) ∧
    (s.issue.paired = false → x.priv ≠ .user →
      Runs (w 0x401) s { x with tcause := v &&& 0x80000000000000FF } ∧
      Runs (w 0x402) s { x with tpc := v &&& 0x0000FFFFFFFFFFF8 } ∧ Runs (w 0x403) s { x with tval := v } ∧
      Runs (w 0x404) s { x with tseq := (x.tseq &&& ~~~0xFFFF#64) ||| (v &&& 0xFFFF) } ∧
      (v.toNat % 4 < 2 → Runs (w 0x405) s { x with tstatus := (x.tstatus &&& ~~~0x3037#64) ||| (v &&& 0x3037) }) ∧
      Runs (w 0x400) (s.setCtx t.ctx { s.ctx t.ctx with tvec := v &&& 0x0000FFFFFFFFFFF8 }) x ∧
      Runs (w 0x406) (s.setCtx t.ctx { s.ctx t.ctx with fring := v &&& ~~~63#64 }) x ∧
      (∃ u, w 0xF00 = .next u ∧ u.mem = s.mem ∧ (∀ h, tileOf h ≠ tileOf s.cur → u.hart h = s.hart h)
        ∧ (u.tile (tileOf s.cur)).dbgctl = v &&& 0x1FFF1FF ∧ (u.tile (tileOf s.cur)).scratch = t.scratch
        ∧ (∀ (i b : Fin 4), (u.hart (4 * tileOf s.cur + i.val)).bp[b]
            = BitVec.ofNat 64 (leRead t.scratch (v.toNat / 2 ^ 12 % 2 ^ 13 * 128 + 32 * i.val + 8 * b.val) 8))
        ∧ Issued { x with bp := (u.hart s.cur).bp } (u.hart s.cur) ∧ NextPlace s.issue x (u.hart s.cur)) ∧
      Runs (w 0x800) (s.setMyTile { t with scrbase := v }) x ∧
      (v.toNat % 4 ≠ 3 → Runs (w 0x101) (s.setMyTile { t with arb := v &&& 0xFFFF3, arbCtr := Vector.replicate 4 0 }) x)) ∧
    (s.issue.paired = true → ∀ r ∈ [0x102, 0x300, 0x301, 0x302], Runs (w r) s { x with mtcPend := some (r, v) }) ∧
    (s.issue.paired = true → x.priv ≠ .user → ∀ r ∈ [0x400, 0x401, 0x402, 0x403, 0x404, 0x406, 0x800, 0xF00],
      Runs (w r) s { x with mtcPend := some (r, v) }) ∧
    (x.priv ≠ .user → (2 ≤ v.toNat % 4 → Traps (w 0x405) s 0x01 s.wordTval) ∧ (v.toNat % 4 = 3 → Traps (w 0x101) s 0x01 s.wordTval)) ∧
    (x.priv = .user → ∀ r ∈ [0x100, 0x101, 0x400, 0x401, 0x402, 0x403, 0x404, 0x405, 0x406, 0x800, 0xF00], Traps (w r) s 0x05 s.wordTval) ∧
    (∀ r : BitVec 12, r.toNat ∉ [0x000, 0x001, 0x002, 0x003, 0x100, 0x101, 0x102, 0x103, 0x200, 0x201, 0x202, 0x300, 0x301, 0x302, 0x400, 0x401, 0x402, 0x403,
        0x404, 0x405, 0x406, 0x500, 0x501, 0x502, 0x503, 0x600, 0x601, 0x700, 0x701, 0x702, 0x703, 0x704, 0x705, 0x800, 0x801, 0xF00] →
      Traps (exec (.mtc a r) s) s 0x01 s.wordTval) ∧
    (∀ r ∈ [0x000, 0x001, 0x002, 0x003, 0x200, 0x201, 0x202, 0x500, 0x501, 0x502, 0x503, 0x600, 0x700, 0x701, 0x702, 0x703, 0x704, 0x705],
      Runs (w r) s x)

/-- R52, R53, R132, R319, R403: what an MTC that stands alone writes in each writable register of a profile G core; one to FFLAGS waits for
the floating results on their way, until the cycle in which the last of their flags has landed is over (log 87); an unlisted number traps ILLEGAL. -/
def Sys2Proof.Claims.CoreRegisterWrites : Prop :=
  ∀ (s : State), s.readyG → s.issue.paired = false → ∀ a : XReg,
    let x := s.me
    let v := s.rx a
    let w := fun (r : Nat) => exec (.mtc a (BitVec.ofNat 12 r)) s
    Runs (w 0x301) s { x with frm := v.setWidth 2 } ∧ Runs (w 0x302) s { x with ftrap := v.setWidth 5 } ∧
    ((∀ f ∈ x.flight, f.float = false) → x.landed = 0 → x.landedNow = 0 → Runs (w 0x300) s { x with fflags := v.setWidth 5 }) ∧
    ((∃ f ∈ x.flight, f.float = true) ∨ x.landed ≠ 0 ∨ x.landedNow ≠ 0 → Waits (w 0x300) s x) ∧
    (∀ l, x.loops = [l] → Runs (w 0x601) s (x.setLoops [{ l with count := BitVec.ofNat 28 (v.toNat / 2 ^ 28) }])) ∧
    (x.priv ≠ .user →
      Runs (w 0x400) s { x with tvec := v &&& 0x0000FFFFFFFFFFF8 } ∧ Runs (w 0x401) s { x with tcause := v &&& 0x80000000000000FF } ∧
      Runs (w 0x402) s { x with tpc := v &&& 0x0000FFFFFFFFFFF8 } ∧ Runs (w 0x403) s { x with tval := v } ∧
      (v.toNat % 4 < 3 → Runs (w 0x405) s { x with tstatus := (x.tstatus &&& ~~~0x3037#64) ||| (v &&& 0x3037) }) ∧
      (v.toNat % 4 = 3 → Traps (w 0x405) s 0x01 s.wordTval)) ∧
    (x.priv = .user → ∀ r ∈ [0x400, 0x401, 0x402, 0x403, 0x405], Traps (w r) s 0x05 s.wordTval) ∧
    (∀ r ∈ [0x000, 0x003, 0x200, 0x201, 0x202, 0x700, 0x701, 0x702, 0x703, 0x704], Runs (w r) s x) ∧
    (∀ r : BitVec 12, r.toNat ∉ [0x000, 0x003, 0x200, 0x201, 0x202, 0x300, 0x301, 0x302, 0x400, 0x401, 0x402, 0x403, 0x405, 0x601, 0x700, 0x701, 0x702,
        0x703, 0x704] → Traps (exec (.mtc a r) s) s 0x01 s.wordTval)

/-- What MTC writes in each writable control register: TileRegisterWrites, CoreRegisterWrites. -/
def Obligations.ControlRegisterWrites : Prop :=
  Claims.TileRegisterWrites ∧ Claims.CoreRegisterWrites

/-- R53, R54, R55, R65, R70, R74, R75, R98, R101, R125, R185: the writes of MODE, ARB, VSHARE, MOWNER, FFLAGS, MSTAT and LOOPC, each under the
conditions in which it is performed. -/
def Sys2Proof.Claims.ModeAndUnitWrites : Prop :=
  ∀ (s : State), s.readyT → s.issue.paired = false → ∀ v : Word,
    let x := s.me
    let t := s.myTile
    (x.priv ≠ .user →
      (v.getLsbD 0 = true → (t.shared = true ∨ (t.fixcode = false ∧ v.getLsbD 5 = false)) →
        Runs (exec (.modeWrite v) s) (s.setMyTile { t with mode := (t.mode &&& 0x1E) ||| (v &&& 0x21) }) x) ∧
      (v.getLsbD 0 = false → t.runs 1 = false → t.runs 2 = false → t.runs 3 = false → x.vq = [] → (∀ f ∈ x.flight, f.due ≠ none) →
        Runs (exec (.modeWrite v) s) (s.setMyTile { t with mode := (t.mode &&& 0x1E) ||| (v &&& 0x21) }) x) ∧
      (v.getLsbD 0 = false → (t.runs 1 = true ∨ t.runs 2 = true ∨ t.runs 3 = true) →
        Traps (exec (.modeWrite v) s) s 0x01 s.wordTval) ∧
      (v.getLsbD 0 = true → t.shared = false → (t.fixcode = true ∨ v.getLsbD 5 = true) →
        Traps (exec (.modeWrite v) s) s 0x01 s.wordTval) ∧
      (v.toNat % 4 ≠ 3 →
        Runs (exec (.arbWrite v) s) (s.setMyTile { t with arb := v &&& 0xFFFF3, arbCtr := Vector.replicate 4 0 }) x)) ∧
    (x.priv = .user → Traps (exec (.modeWrite v) s) s 0x05 s.wordTval ∧ Traps (exec (.arbWrite v) s) s 0x05 s.wordTval) ∧
    Runs (exec (.vshareWrite v) s) (s.setMyTile { t with vshare := v &&& 0xFFFF, vCtr := Vector.replicate 4 0 }) x ∧
    ((x.priv = .user → t.owner.toNat = s.cur % 4) → (t.shared = true ∨ v.toNat % 4 = 0) →
      (t.cmds = [] → Runs (exec (.mownerWrite v) s) (s.setMyTile { t with owner := v.setWidth 2 }) x) ∧
      (t.cmds ≠ [] → Waits (exec (.mownerWrite v) s) s x)) ∧
    (x.priv = .user → t.owner.toNat ≠ s.cur % 4 → ∃ tval, Traps (exec (.mownerWrite v) s) s 0x33 tval) ∧
    ((x.priv = .user → t.owner.toNat = s.cur % 4) → t.shared = false → v.toNat % 4 ≠ 0 → Traps (exec (.mownerWrite v) s) s 0x01 s.wordTval) ∧
    Runs (exec (.fflagsWrite v) s) s { x with fflags := v.setWidth 5 ||| x.landed ||| x.landedNow } ∧
    ((10 ≤ v.toNat / 2 ^ 8 % 32 ∧ v.toNat / 2 ^ 8 % 32 ≤ 30) →
      Runs (exec (.mstatWrite v) s)
        (s.setMyTile { t with mstat := (t.mstat &&& v &&& 3) ||| t.fresh.setWidth 64 ||| (if t.ternLanded = true then 2 else 0)
            ||| (v &&& 0xF1F00) }) x) ∧
    (¬ (10 ≤ v.toNat / 2 ^ 8 % 32 ∧ v.toNat / 2 ^ 8 % 32 ≤ 30) → Traps (exec (.mstatWrite v) s) s 0x01 s.wordTval) ∧
    (∀ l, x.loops = [l] → Runs (exec (.loopcWrite v) s) s (x.setLoops [{ l with count := BitVec.ofNat 28 (v.toNat / 2 ^ 28) }])) ∧
    (∀ l m, x.loops = [l, m] → Runs (exec (.loopcWrite v) s) s
      (x.setLoops [{ l with count := BitVec.ofNat 28 v.toNat }, { m with count := BitVec.ofNat 28 (v.toNat / 2 ^ 28) }])) ∧
    (x.loops = [] → Runs (exec (.loopcWrite v) s) s x)

/-- R340, R342: what the steps of a write of DBGCTL do to a tile: the breakpoint table's words become the comparators of the four
strands, FREEZE is set or cleared, and FROZEN follows when no command is in progress; while FREEZE stands, the RINGTIME of a command that waits for
its tiles does not count. -/
def Sys2Proof.Claims.DebugControl : Prop :=
  ∀ (s : State), s.power = .on → ∀ t : Nat,
    let x := s.tile t
    (∃ u, exec (.breakpointTableLoad t) s = .next u ∧ u.tiles = s.tiles ∧ u.mem = s.mem
      ∧ (∀ (i b : Fin 4), (u.hart (4 * t + i.val)).bp[b]
          = BitVec.ofNat 64 (leRead x.scratch (x.dbgctl.toNat / 2 ^ 12 % 2 ^ 13 * 128 + 32 * i.val + 8 * b.val) 8))
      ∧ (∀ h, tileOf h ≠ t → u.hart h = s.hart h)) ∧
    exec (.engineFreeze t) s
      = .next (s.setTile t (if x.dbgctl.getLsbD 0 = true then x else { x with dbgctl := x.dbgctl ||| 1, frozenAt := s.dtime })) ∧
    exec (.engineUnfreeze t) s = .next (s.setTile t (if x.dbgctl.getLsbD 0 = true then
        { x with dbgctl := x.dbgctl &&& ~~~1#64, frozen := false
                 cmds := x.cmds.map (fun c => { c with starved := c.starved.map (fun d => d + (s.dtime - max d x.frozenAt)) }) }
      else x)) ∧
    (x.dbgctl.getLsbD 0 = true → x.frozen = false → (∀ m ∈ x.cmds, m.started = none) →
      exec (.engineFrozen t) s = .next (s.setTile t { x with frozen := true })) ∧
    ((x.dbgctl.getLsbD 0 = false ∨ x.frozen = true ∨ ∃ m ∈ x.cmds, m.started ≠ none) → exec (.engineFrozen t) s = .next s)

/-- Writes of MODE, ARB, VSHARE, MOWNER, FFLAGS, MSTAT, LOOPC and DBGCTL: ModeAndUnitWrites, DebugControl. -/
def Obligations.UnitsAndDebug : Prop :=
  Claims.ModeAndUnitWrites ∧ Claims.DebugControl

/-! ## Loads, stores, atomics -/

/-- R134, R133, R135: a scalar load that passes its checks gives the little-endian bytes, extended; nothing else changes. -/
def Sys2Proof.Claims.ScalarLoads : Prop :=
  ∀ (s : State), s.ready → ∀ (d a : XReg) (o : BitVec 13) (l : Loc),
    let va := s.rx a + BitVec.ofInt 64 o.toInt
    let num := fun (n : Nat) => leNat (s.bytesAt l n)
    let loads := fun (n : Nat) (v : Word) (i : Instr) =>
      s.reaches .load va n n l → l.isMemory → s.readBad l n = false → Runs (exec i s) s (s.withLoaded va (.x d v) 4)
    loads 1 (BitVec.ofInt 64 (BitVec.ofNat 8 (num 1)).toInt) (.lb d a o) ∧ loads 1 (BitVec.ofNat 64 (num 1)) (.lbu d a o) ∧
    loads 2 (BitVec.ofInt 64 (BitVec.ofNat 16 (num 2)).toInt) (.lh d a o) ∧ loads 2 (BitVec.ofNat 64 (num 2)) (.lhu d a o) ∧
    loads 4 (BitVec.ofInt 64 (BitVec.ofNat 32 (num 4)).toInt) (.lw d a o) ∧ loads 4 (BitVec.ofNat 64 (num 4)) (.lwu d a o) ∧
    loads 8 (BitVec.ofNat 64 (num 8)) (.ld d a o)

/-- R134, R135, R137: a scalar store that passes its checks writes the low bytes of xs at its address, and no other byte of any
memory. -/
def Sys2Proof.Claims.ScalarStores : Prop :=
  ∀ (s : State), s.ready → s.memoriesWf → ∀ (r a : XReg) (o : BitVec 13) (l : Loc),
    let va := s.rx a + BitVec.ofInt 64 o.toInt
    let stores := fun (n : Nat) (i : Instr) =>
      s.reaches .store va n n l → l.isMemory → s.writeBad l n = false →
        StoresTo (exec i s) s s.me (bytesOf l n (s.rx r).toNat)
    stores 1 (.sb r a o) ∧ stores 2 (.sh r a o) ∧ stores 4 (.sw r a o) ∧ stores 8 (.sd r a o)

/-- Scalar loads and stores, with every byte of memory: ScalarLoads, ScalarStores. -/
def Obligations.ScalarAccesses : Prop :=
  Claims.ScalarLoads ∧ Claims.ScalarStores

/-- R135: the checks of a direct access in their order, for every scalar load and store: alignment, the slices of other tiles, the
phase, the translation of an address beyond 48 bits (R300) or without its permission, and the range locks. A cached translation without the permission
gives PERM as its table entry would (the model's reading, log 13). A translation that no cache holds gives what the first failure of its walk gives:
PAGE, PERM, WAYBILL or RECALLED (R300, R309). -/
def Obligations.DirectAccessChecks : Prop :=
  ∀ (s : State), s.ready → s.pathBusy = false → ∀ (d a : XReg) (o : BitVec 13),
    let va := s.rx a + BitVec.ofInt 64 o.toInt
    let v := va.toNat
    let t := tileOf s.cur
    let rq := s.requester s.cur s.me.priv
    ∀ p ∈ [(Instr.lb d a o, 1, AccKind.load), (.lbu d a o, 1, .load), (.lh d a o, 2, .load), (.lhu d a o, 2, .load),
        (.lw d a o, 4, .load), (.lwu d a o, 4, .load), (.ld d a o, 8, .load), (.sb d a o, 1, .store), (.sh d a o, 2, .store),
        (.sw d a o, 4, .store), (.sd d a o, 8, .store)],
      let traps := fun (c : Cause) => Traps (exec p.1 s) s c va
      (v % p.2.1 ≠ 0 → traps 0x18) ∧
      (v % p.2.1 = 0 → isT s.cur = true → ∀ u off, u < 512 → off < scratchSize → v = windowBase + u * 0x100000 + off → u ≠ t →
        ((s.lost u = true ∨ s.together t u = false) → traps 0x17) ∧
        (s.lost u = false → s.together t u = true → s.phaseBars t u = true → traps 0x16)) ∧
      (v % p.2.1 = 0 → 2 ^ 48 ≤ v → traps 0x11) ∧
      (v % p.2.1 = 0 → v < 2 ^ 48 → (isT s.cur = true → ¬ inAlias v ∧ ¬ inWindow v) → ∀ e,
        s.tlb.find? (fun e => e.hits rq.unit rq v s.dtime) = some e →
        (permits e.r e.w e.x p.2.2 = false ∨ (e.k = true ∧ rq.user = true)) → traps 0x11) ∧
      (v % p.2.1 = 0 → v < 2 ^ 48 → (isT s.cur = true → ¬ inAlias v ∧ ¬ inWindow v) →
        (∀ e ∈ s.tlb, e.hits rq.unit rq v s.dtime = false ∧ e.hits rq.shared rq v s.dtime = false) →
        ∀ kn c, rq.kn = some kn → s.WalkFails rq kn v p.2.2 c → traps c) ∧
      (v % p.2.1 = 0 → isT s.cur = true → inAlias v →
        (s.tile t).lockBars t v p.2.1 (p.2.2 == .store) = true → traps 0x15)

/-- R138, R133, R76, R77: VLD and VST between 256 bytes and a vector register, or a port that the program may push or pop. -/
def Obligations.VectorLoadsAndStores : Prop :=
  ∀ (s : State), s.readyT → s.memoriesWf → ∀ (v : VReg) (a : XReg) (o : BitVec 13) (l : Loc),
    let va := s.rx a + BitVec.ofInt 64 o.toInt
    let data : VWord := BitVec.ofNat 2048 (leNat (s.bytesAt l 256))
    (s.reaches .load va 256 32 l → l.isMemory → s.readBad l 256 = false →
      (v.val < 24 → Runs (exec (.vld v a o) s) s (s.withLoaded va (.v v data (BitVec.allOnes 2048)) 4)) ∧
      (∀ p : PortNo, v.val = 24 + p.val → s.me.badWrite p = none → s.me.ports[p].fault = false → s.room s.cur s.me.ports[p] false = true →
        Runs (exec (.vld v a o) s) s
          { s.me with ports := s.me.ports.set p (s.me.ports[p].pushed data (BitVec.allOnes 2048) none) })) ∧
    (s.reaches .store va 256 32 l → l.isMemory → s.writeBad l 256 = false →
      (∀ h : v.val < 24, StoresTo (exec (.vst v a o) s) s s.me (bytesOf l 256 (s.me.v[v.val]).toNat)) ∧
      (∀ p : PortNo, v.val = 24 + p.val → s.me.badRead p = none → s.me.ports[p].ready = true →
        StoresTo (exec (.vst v a o) s) s { s.me with ports := s.me.ports.set p s.me.ports[p].popped }
          (bytesOf l 256 s.me.ports[p].next.toNat)))

/-- R139, R140, R141, R151, R76 to R78: strided and indexed loads into a register or a port: each active element is the one at its address, an
inactive lane keeps its bits; in the local alias the latency is 68 and the path is occupied for 64 cycles. An index port is popped once. -/
def Sys2Proof.Claims.StridedAndIndexedLoads : Prop :=
  ∀ (s : State), s.readyT → ∀ (v i : VReg) (a b : XReg) (k : KReg) (d64 : Bool) (at' : Nat → Loc),
    let n := if d64 = true then 8 else 4
    let m := s.rk k
    let own := fun (va : Nat → Word) => ∀ j < 256 / n, active m (8 * n) j = true → inAlias (va j).toNat
    let occupied := s.setMyTile { s.myTile with pathFree := s.dtime + 64 }
    let loads := fun (rd : List VReg) (va : Nat → Word) (o : Out) =>
      s.portsServe rd (some v) →
      (∀ j < 256 / n, active m (8 * n) j = true →
        s.reaches .load (va j) n n (at' j) ∧ (at' j).isMemory ∧ s.readBad (at' j) n = false) →
      ∃ data mask : VWord,
        (∀ j < 256 / n, active m (8 * n) j = true →
          elem data (8 * n) j = leNat (s.bytesAt (at' j) n) ∧ elem mask (8 * n) j = 2 ^ (8 * n) - 1) ∧
        (∀ j < 256 / n, active m (8 * n) j = false → elem mask (8 * n) j = 0) ∧
        (let ports := s.portsAfter rd (some v) data mask
         (own va → v.val < 24 → Runs o occupied { s.withResult (.v v data mask) 68 false with ports := ports }) ∧
         (¬ own va → v.val < 24 → Runs o s { s.withResult (.v v data mask) 1 true with ports := ports }) ∧
         (own va → 24 ≤ v.val → Runs o occupied { s.me with ports := ports }) ∧
         (¬ own va → 24 ≤ v.val → Runs o s { s.me with ports := ports }))
    s.pathBusy = false →
      loads [] (fun j => s.rx a + BitVec.ofNat 64 j * s.rx b) (exec (.vlds v a b k d64) s) ∧
      loads [i] (fun j => s.rx a + BitVec.ofInt 64 (elemS (s.operand i) 32 j * n)) (exec (.vgth v a i k d64) s)

/-- R139, R140, R141, R76 to R78: strided and indexed stores of a register or of a port's transfer: of several active elements at one place
the highest-numbered remains; no other byte changes. Each port that is read is popped once. -/
def Sys2Proof.Claims.StridedAndIndexedStores : Prop :=
  ∀ (s : State), s.readyT → s.memoriesWf → ∀ (v i : VReg) (a b : XReg) (k : KReg) (d64 : Bool) (at' : Nat → Loc),
    let n := if d64 = true then 8 else 4
    let m := s.rk k
    let es := (List.range (256 / n)).filter (active m (8 * n))
    let val := fun (l : Loc) => es.reverse.findSome? (fun j => bytesOf (at' j) n (elem (s.operand v) (8 * n) j) l)
    let stores := fun (rd : List VReg) (va : Nat → Word) (o : Out) =>
      s.portsServe rd none →
      (∀ j ∈ es, s.reaches .store (va j) n n (at' j) ∧ (at' j).isMemory ∧ s.writeBad (at' j) n = false) →
        let x := { s.me with ports := s.portsAfter rd none 0 0 }
        ((∀ j ∈ es, inAlias (va j).toNat) → StoresTo o (s.setMyTile { s.myTile with pathFree := s.dtime + 64 }) x val) ∧
        ((¬ ∀ j ∈ es, inAlias (va j).toNat) → StoresTo o s x val)
    s.pathBusy = false → s.bad = [] → (∀ u, (s.tile u).bad = []) →
      stores [v] (fun j => s.rx a + BitVec.ofNat 64 j * s.rx b) (exec (.vsts v a b k d64) s) ∧
      stores [v, i] (fun j => s.rx a + BitVec.ofInt 64 (elemS (s.operand i) 32 j * n)) (exec (.vsct v a i k d64) s)

/-- Strided and indexed vector accesses: StridedAndIndexedLoads, StridedAndIndexedStores. -/
def Obligations.StridedAndIndexed : Prop :=
  Claims.StridedAndIndexedLoads ∧ Claims.StridedAndIndexedStores

/-- R143, R146: LDA zero-extends, STL stores, and in a machine that performs every access in the order of issue (the model's
reading of the order of memory, log 2) a FENCE only advances; the order and scope that a form names change no value. -/
def Sys2Proof.Claims.OrderedAccesses : Prop :=
  ∀ (s : State), s.ready → s.memoriesWf → ∀ (d a b : XReg) (ord : Ord) (sc : Scope) (dbl : Bool) (l : Loc),
    let n := if dbl = true then 8 else 4
    let va := s.rx a
    (s.reaches .load va n n l → l.isMemory → s.readBad l n = false →
      Runs (exec (.lda d a ord sc dbl) s) s (s.withResult (.x d (BitVec.ofNat 64 (leNat (s.bytesAt l n)))) 1 true)) ∧
    (s.reaches .store va n n l → l.isMemory → s.writeBad l n = false →
      StoresTo (exec (.stl a b ord sc dbl) s) s s.me (bytesOf l n (s.rx b).toNat)) ∧
    Runs (exec (.fence ord sc) s) s s.me

/-- R145: each atomic stores its new value at its address and returns the old one, sign-extended; AMOCAS stores only where the old
value is the expected one. At FABRIC scope the old value is what another host has stored there (R251), if anything. Order and the other scopes
change nothing (log 2). -/
def Sys2Proof.Claims.Atomics : Prop :=
  ∀ (s : State), s.ready → s.memoriesWf → ∀ (d a b : XReg) (ord : Ord) (sc : Scope) (dbl : Bool) (l : Loc),
    let n := if dbl = true then 8 else 4
    let va := s.rx a
    let old := leNat (s.bytesAt l n)
    let M := 2 ^ (8 * n)
    let y := (s.rx b).toNat % M
    let e := (s.rx d).toNat % M
    let x := s.withResult (.x d (BitVec.ofInt 64 (signedOf (8 * n) old))) 1 true
    let atomic := fun (new : Nat) (o : Out) => StoresTo o s x (bytesOf l n new)
    s.reaches .atomic va n n l → l.isMemory → s.readBad l n = false → s.writeBad l n = false →
      (∀ pa, l = .phys pa → sc = .fabric →
        ∀ i ∈ [Instr.amoadd d a b ord sc dbl, .amoand d a b ord sc dbl, .amoor d a b ord sc dbl, .amoxor d a b ord sc dbl, .amomin d a b ord sc dbl,
            .amomax d a b ord sc dbl, .amominu d a b ord sc dbl, .amomaxu d a b ord sc dbl, .amoswap d a b ord sc dbl, .amocas d a b ord sc dbl],
          exec i s = exec i (s.fetchForeign pa (pa + n))) ∧
      ((sc = .fabric → s.foreign = []) →
      atomic (old + y) (exec (.amoadd d a b ord sc dbl) s) ∧ atomic (old &&& y) (exec (.amoand d a b ord sc dbl) s) ∧
      atomic (old ||| y) (exec (.amoor d a b ord sc dbl) s) ∧ atomic (old ^^^ y) (exec (.amoxor d a b ord sc dbl) s) ∧
      atomic (if signedOf (8 * n) old < signedOf (8 * n) y then old else y) (exec (.amomin d a b ord sc dbl) s) ∧
      atomic (if signedOf (8 * n) old < signedOf (8 * n) y then y else old) (exec (.amomax d a b ord sc dbl) s) ∧
      atomic (min old y) (exec (.amominu d a b ord sc dbl) s) ∧ atomic (max old y) (exec (.amomaxu d a b ord sc dbl) s) ∧
      atomic y (exec (.amoswap d a b ord sc dbl) s) ∧
      (old = e → atomic y (exec (.amocas d a b ord sc dbl) s)) ∧
      (old ≠ e → Runs (exec (.amocas d a b ord sc dbl) s) s x))

/-- Ordered accesses, fences and atomics: OrderedAccesses, Atomics. -/
def Obligations.AtomicsAndOrder : Prop :=
  Claims.OrderedAccesses ∧ Claims.Atomics

/-! ## Class V -/

/-- R155, R150, R151, R152, R160, R161: integer arithmetic, logic, shifts, saturation, VSEL, VMOV and VMOVI, element by element. -/
def Obligations.VectorIntegers : Prop :=
  ∀ (s : State) (d a b : VReg) (k : KReg) (e : Ew) (keep : Bool),
    let w := e.bits
    let x := fun i => elem (s.operand a) w i
    let y := fun i => elem (s.operand b) w i
    let old := fun i => elem (s.operand d) w i
    let X := fun i => signedOf w (x i)
    let Y := fun i => signedOf w (y i)
    let lo : Int := -2 ^ (w - 1)
    let hi : Int := 2 ^ (w - 1) - 1
    let clamp := fun (v : Int) => wrapTo w (max lo (min v hi))
    let two := fun (lat : Nat) (f : Nat → Nat) (i : Instr) =>
      VecGives s (exec i s) d [a, b] false lat w (2048 / w) (active (s.rk k) w) f 0 false
    let one := fun (f : Nat → Nat) (i : Instr) =>
      VecGives s (exec i s) d [a] false 2 w (2048 / w) (active (s.rk k) w) f 0 false
    two 2 (fun i => x i + y i) (.vadd d a b k e keep) ∧ two 2 (fun i => wrapTo w (X i - Y i)) (.vsub d a b k e keep) ∧
    two 4 (fun i => x i * y i) (.vmul d a b k e keep) ∧
    two 4 (fun i => wrapTo w (X i * Y i / 2 ^ w)) (.vmulh d a b k e keep) ∧
    two 2 (fun i => wrapTo w (min (X i) (Y i))) (.vmin d a b k e keep) ∧
    two 2 (fun i => wrapTo w (max (X i) (Y i))) (.vmax d a b k e keep) ∧
    two 2 (fun i => min (x i) (y i)) (.vminu d a b k e keep) ∧ two 2 (fun i => max (x i) (y i)) (.vmaxu d a b k e keep) ∧
    two 2 (fun i => x i &&& y i) (.vand d a b k e keep) ∧ two 2 (fun i => x i ||| y i) (.vor d a b k e keep) ∧
    two 2 (fun i => x i ^^^ y i) (.vxor d a b k e keep) ∧
    two 2 (fun i => x i - (x i &&& y i)) (.vandn d a b k e keep) ∧
    two 2 (fun i => x i * 2 ^ (y i % w)) (.vsll d a b k e keep) ∧ two 2 (fun i => x i / 2 ^ (y i % w)) (.vsrl d a b k e keep) ∧
    two 2 (fun i => wrapTo w (X i / 2 ^ (y i % w))) (.vsra d a b k e keep) ∧
    two 2 (fun i => x i * 2 ^ (y i % w) + x i / 2 ^ (w - y i % w)) (.vrol d a b k e keep) ∧
    two 2 (fun i => clamp (X i + Y i)) (.vsadd d a b k e keep) ∧ two 2 (fun i => clamp (X i - Y i)) (.vssub d a b k e keep) ∧
    two 2 (fun i => wrapTo w ((X i + Y i + 1) / 2)) (.vavg d a b k e keep) ∧
    one (fun i => clamp (X i).natAbs) (.vabs d a k e keep) ∧ one x (.vmov d a k e keep) ∧
    VecGives s (exec (.vsel d a b k e keep) s) d [d, a, b] false 2 w (2048 / w) (active (s.rk k) w)
      (fun i => (old i &&& x i) ||| (y i - (old i &&& y i))) 0 false ∧
    (∀ imm : BitVec 13, VecGives s (exec (.vmovi d imm k e) s) d [] false 2 w (2048 / w) (active (s.rk k) w)
      (fun _ => wrapTo w imm.toInt) 0 false)

/-- R156, R157, R151, R152: floating arithmetic element by element under FRM, with the flags of the active elements; its result is
one for which an MFC of FFLAGS waits (log 123). What the operations are in
numbers is ExactArithmetic (in ScalarFloating), ExactQuotientsAndRoots and RoundedResults; VFEXP2, VFLOG2, VFTANH and VFSIGM are the model's own
series where ExactQuotientsAndRoots does not fix them (log 106). -/
def Sys2Proof.Claims.VectorFloatWords : Prop :=
  ∀ (s : State) (d a b : VReg) (k : KReg) (keep : Bool),
    let rm := Rm.ofCode s.me.frm.toNat
    (∀ e : Fw,
      let F := fwFloat e
      let w := e.bits
      let act := active (s.rk k) w
      let x := fun i => elem (s.operand a) w i
      let y := fun i => elem (s.operand b) w i
      let old := fun i => elem (s.operand d) w i
      let gives := fun (reads : List VReg) (r : Nat → Nat × FlagSet) (i : Instr) =>
        VecGives s (exec i s) d reads false 4 w (2048 / w) act (fun j => (r j).1) (flagsOf (2048 / w) act (fun j => (r j).2)) false true
      gives [a, b] (fun i => fAdd F rm (x i) (y i)) (.vfadd d a b k e keep) ∧
      gives [a, b] (fun i => fSub F rm (x i) (y i)) (.vfsub d a b k e keep) ∧
      gives [a, b] (fun i => fMul F rm (x i) (y i)) (.vfmul d a b k e keep) ∧
      gives [a, b] (fun i => fAbd F rm (x i) (y i)) (.vfabd d a b k e keep) ∧
      gives [d, a, b] (fun i => fFma F rm false false (x i) (y i) (old i)) (.vfma d a b k e keep) ∧
      gives [d, a, b] (fun i => fFma F rm false true (x i) (y i) (old i)) (.vfms d a b k e keep) ∧
      gives [d, a, b] (fun i => fFma F rm true false (x i) (y i) (old i)) (.vfnma d a b k e keep) ∧
      gives [d, a, b] (fun i => fFma F rm true true (x i) (y i) (old i)) (.vfnms d a b k e keep) ∧
      gives [a, b] (fun i => (fMin F (x i) (y i), 0)) (.vfmin d a b k e keep) ∧
      gives [a, b] (fun i => (fMax F (x i) (y i), 0)) (.vfmax d a b k e keep) ∧
      gives [a] (fun i => (fNeg F (x i), 0)) (.vfneg d a k e keep) ∧
      gives [a] (fun i => (fAbs F (x i), 0)) (.vfabs d a k e keep)) ∧
    (let act := active (s.rk k) 32
     let x := fun i => value32 (elem (s.operand a) 32 i)
     let y := fun i => value32 (elem (s.operand b) 32 i)
     let gives := fun (reads : List VReg) (r : Nat → Machine.Num × FlagSet) (i : Instr) =>
       VecGives s (exec i s) d reads false 8 32 64 act (fun j => (fp32Of rm (r j)).1)
         (flagsOf 64 act (fun j => (fp32Of rm (r j)).2)) false true
     gives [a, b] (fun i => divNum (x i) (y i)) (.vfdiv d a b k keep) ∧ gives [a] (fun i => sqrtNum (x i)) (.vfsqrt d a k keep) ∧
     gives [a] (fun i => rcpNum (x i)) (.vfrcp d a k keep) ∧ gives [a] (fun i => rsqNum (x i)) (.vfrsq d a k keep) ∧
     gives [a] (fun i => exp2Num (x i)) (.vfexp2 d a k keep) ∧ gives [a] (fun i => log2Num (x i)) (.vflog2 d a k keep) ∧
     gives [a] (fun i => tanhNum (x i)) (.vftanh d a k keep) ∧ gives [a] (fun i => sigmNum (x i)) (.vfsigm d a k keep))

/-- R157, R96: what the quotients and roots are rounded from: the number itself where it is a dyadic number of the grid, and otherwise a number of
128 bits or more just below it, marked as such; the exact cases of VFEXP2, VFLOG2, VFTANH and VFSIGM; and the table of the special operands, with
those of VFDIV, as patterns and flags under every mode. -/
def Sys2Proof.Claims.ExactQuotientsAndRoots : Prop :=
  (∀ (a b : Machine.Num) (x y : ℚ), a.Is x → b.Is y → y ≠ 0 → ∃ neg, (divNum a b).2 = 0 ∧ (x / y ≠ 0 → (neg = true ↔ x / y < 0)) ∧
    (divNum a b).1.Stands neg (fun u => u = |x / y|) (fun u => u < |x / y|) (fun u => |x / y| < u)) ∧
  (∀ (a : Machine.Num) (x : ℚ), a.Is x → 0 < x → (sqrtNum a).2 = 0 ∧
    (sqrtNum a).1.Stands false (fun u => u ^ 2 = x) (fun u => u ^ 2 < x) (fun u => x < u ^ 2)) ∧
  (∀ (a : Machine.Num) (x : ℚ), a.Is x → x < 0 → (sqrtNum a) = (.nan, flagNV) ∧ rsqNum a = (.nan, flagNV)) ∧
  (∀ (a : Machine.Num) (x : ℚ), a.Is x → x ≠ 0 → (rcpNum a).2 = 0 ∧
    (rcpNum a).1.Stands (decide (x < 0)) (fun u => u * |x| = 1) (fun u => u * |x| < 1) (fun u => 1 < u * |x|)) ∧
  (∀ (a : Machine.Num) (x : ℚ), a.Is x → 0 < x → (rsqNum a).2 = 0 ∧
    (rsqNum a).1.Stands false (fun u => u ^ 2 * x = 1) (fun u => u ^ 2 * x < 1) (fun u => 1 < u ^ 2 * x)) ∧
  (∀ (a : Machine.Num) (x : ℤ), a.Is x → |x| < 2 ^ 12 → (exp2Num a).1.Is (2 ^ x) ∧ (exp2Num a).2 = 0) ∧
  (∀ (p : Nat) (k : ℤ), (value32 p).Is (2 ^ k) → (log2Num (value32 p)).1.Is k ∧ (log2Num (value32 p)).2 = 0) ∧
  (∀ a : Machine.Num, a.Is 0 → (tanhNum a).1.Is 0 ∧ (sigmNum a).1.Is (1 / 2)) ∧
  (∀ rm : Rm,
    let can := 0x7FC00000
    let row := fun (p : Nat) => [sqrtNum, rcpNum, rsqNum, exp2Num, log2Num, tanhNum, sigmNum].map (fun f => fp32Of rm (f (value32 p)))
    row 0 = [(0, 0), (0x7F800000, flagDZ), (0x7F800000, flagDZ), (0x3F800000, 0), (0xFF800000, flagDZ), (0, 0), (0x3F000000, 0)] ∧
    row 0x80000000 = [(0x80000000, 0), (0xFF800000, flagDZ), (0xFF800000, flagDZ), (0x3F800000, 0), (0xFF800000, flagDZ), (0x80000000, 0),
      (0x3F000000, 0)] ∧
    row 0x7F800000 = [(0x7F800000, 0), (0, 0), (0, 0), (0x7F800000, 0), (0x7F800000, 0), (0x3F800000, 0), (0x3F800000, 0)] ∧
    row 0xFF800000 = [(can, flagNV), (0x80000000, 0), (can, flagNV), (0, 0), (can, flagNV), (0xBF800000, 0), (0, 0)] ∧
    fp32Of rm (log2Num (value32 0x3F800000)) = (0, 0) ∧
    (∀ p, 0x7F800000 < p % 2 ^ 31 → p < 2 ^ 32 → row p = List.replicate 7 (can, 0)) ∧
    (∀ p, 2 ^ 31 < p → p < 0xFF800000 → ∀ f ∈ [sqrtNum, rsqNum, log2Num], fp32Of rm (f (value32 p)) = (can, flagNV)) ∧
    (∀ p q, p < 2 ^ 32 → q < 2 ^ 32 →
      let a := p % 2 ^ 31
      let b := q % 2 ^ 31
      let z0 := if p / 2 ^ 31 = q / 2 ^ 31 then 0 else 2 ^ 31
      let r := fp32Of rm (divNum (value32 p) (value32 q))
      (0 < a → a < 0x7F800000 → b = 0 → r = (z0 + 0x7F800000, flagDZ)) ∧
      ((a = 0 ∧ b = 0) ∨ (a = 0x7F800000 ∧ b = 0x7F800000) → r = (can, flagNV)) ∧
      (0x7F800000 < a ∨ 0x7F800000 < b → r = (can, 0)) ∧
      (a = 0x7F800000 → b < 0x7F800000 → r = (z0 + 0x7F800000, 0)) ∧
      (a < 0x7F800000 → b = 0x7F800000 → r = (z0, 0)) ∧ (a = 0 → 0 < b → b < 0x7F800000 → r = (z0, 0))))

/-- Vector floating instructions, element by element: VectorFloatWords, ExactQuotientsAndRoots. -/
def Obligations.VectorFloats : Prop :=
  Claims.VectorFloatWords ∧ Claims.ExactQuotientsAndRoots

/-- R158, R151, R152: each bit of the mask a compare writes, by element width. -/
def Sys2Proof.Claims.VectorCompares : Prop :=
  ∀ (s : State) (d : KReg) (a b : VReg) (k : KReg) (keep : Bool),
    let gives := fun (lat w : Nat) (rel : Nat → Prop) (float : Bool) (i : Instr) =>
      ∃ m : Word,
        (w = 64 → ∀ j < 64, m.getLsbD j = true ↔ (s.rk k).getLsbD (2 * (j / 2)) = true ∧ rel (j / 2)) ∧
        (w = 32 → ∀ j < 64, m.getLsbD j = true ↔ (s.rk k).getLsbD j = true ∧ rel j) ∧
        (w < 32 → ∀ j < 64, m.getLsbD j = true ↔ (s.rk k).getLsbD j = true ∧ ∀ i < 2048 / w, i % 64 = j → rel i) ∧
        ScalarGives s (exec i s) [a, b] false lat (.k d m) float
    (∀ e : Ew,
      let w := e.bits
      let x := fun i => elemS (s.operand a) w i
      let y := fun i => elemS (s.operand b) w i
      gives 2 w (fun i => x i = y i) false (.vcmpEq d a b k e keep) ∧ gives 2 w (fun i => x i ≠ y i) false (.vcmpNe d a b k e keep) ∧
      gives 2 w (fun i => x i < y i) false (.vcmpLt d a b k e keep) ∧ gives 2 w (fun i => x i ≤ y i) false (.vcmpLe d a b k e keep)) ∧
    (∀ e : Fw,
      let w := e.bits
      let c := fun i => cmpNum ((fwFloat e).value (elem (s.operand a) w i)) ((fwFloat e).value (elem (s.operand b) w i))
      gives 4 w (fun i => c i = some 0) true (.vfcmpEq d a b k e keep) ∧ gives 4 w (fun i => c i ≠ some 0) true (.vfcmpNe d a b k e keep) ∧
      gives 4 w (fun i => c i = some (-1)) true (.vfcmpLt d a b k e keep) ∧
      gives 4 w (fun i => c i = some 0 ∨ c i = some (-1)) true (.vfcmpLe d a b k e keep))

/-- R159, R152, R162: the mask operations, KPOP, KFIRST, KSET, and VEXT. -/
def Sys2Proof.Claims.MaskOperations : Prop :=
  ∀ (s : State),
    (∀ d a b : KReg,
      let gives := fun (m : Word) (i : Instr) => ScalarGives s (exec i s) [] false 2 (.k d m)
      gives (s.rk a &&& s.rk b) (.kand d a b) ∧ gives (s.rk a ||| s.rk b) (.kor d a b) ∧ gives (s.rk a ^^^ s.rk b) (.kxor d a b) ∧
      gives (s.rk a &&& ~~~(s.rk b)) (.kandn d a b) ∧ gives (~~~(s.rk a)) (.knot d a)) ∧
    (∀ (d : KReg) (a : XReg), ScalarGives s (exec (.kset d a) s) [] false 2 (.k d (s.rx a))) ∧
    (∀ (d : XReg) (a : KReg),
      ScalarGives s (exec (.kpop d a) s) [] false 2
        (.x d (BitVec.ofNat 64 ((Finset.range 64).filter (fun i => (s.rk a).getLsbD i = true)).card)) ∧
      ∃ n ≤ 64, (∀ i < n, (s.rk a).getLsbD i = false) ∧ (n < 64 → (s.rk a).getLsbD n = true)
        ∧ ScalarGives s (exec (.kfirst d a) s) [] false 2 (.x d (BitVec.ofNat 64 n))) ∧
    (∀ (d : XReg) (a : VReg) (b : XReg) (e : Ew) (keep : Bool),
      ScalarGives s (exec (.vext d a b e keep) s) [a] true 3
        (.x d (BitVec.ofNat 64 (elem (s.operand a) e.bits ((s.rx b).toNat % (2048 / e.bits))))))

/-- Vector compares and mask operations: VectorCompares, MaskOperations. -/
def Obligations.ComparesAndMasks : Prop :=
  Claims.VectorCompares ∧ Claims.MaskOperations

/-- R162, R163, R151, R72: words that move elements. The elements that VINS does not name keep what stands there when it lands (log 96). -/
def Obligations.VectorMoves : Prop :=
  ∀ (s : State) (d a b : VReg) (xa xb : XReg) (k : KReg) (e : Ew) (keep : Bool),
    let w := e.bits
    let n := 2048 / w
    let x := fun i => elem (s.operand a) w i
    let y := fun i => elem (s.operand b) w i
    let old := fun i => elem (s.operand d) w i
    let t := s.rx xb
    let gives := fun (reads : List VReg) (whole : Bool) (f : Nat → Nat) (i : Instr) =>
      VecGives s (exec i s) d reads whole 3 w n (active (s.rk k) w) f 0 false
    gives [] false (fun _ => t.toNat) (.vbcast d xb k e) ∧
    VecGives s (exec (.vins d xa xb e) s) d [d] false 3 w n (fun i => i == (s.rx xa).toNat % n) (fun _ => t.toNat) 0 false ∧
    gives [d, a] true (fun i => if 0 ≤ (i : Int) + t.toInt ∧ (i : Int) + t.toInt < n then x ((i : Int) + t.toInt).toNat else old i)
      (.vslide d a xb k e keep) ∧
    gives [a, b] true (fun i => x (y i % n)) (.vperm d a b k e keep) ∧
    gives [a] true (fun i => x ((i + t.toNat) % n)) (.vrot d a xb k e keep) ∧
    gives [a, b] true (fun i => if i % 2 = 0 then x (i / 2) else y (i / 2)) (.vzip d a b k e keep) ∧
    gives [a, b] true (fun i => if i < n / 2 then x (2 * i) else y (2 * i - n)) (.vunzip d a b k e keep)

/-- R110, R164, R152: the reductions, as a tree over the elements of which an inactive one is the identity; element 0 receives the
result and every other element 0. -/
def Sys2Proof.Claims.VectorReductions : Prop :=
  ∀ (s : State) (d a : VReg) (k : KReg) (keep : Bool),
    let rm := Rm.ofCode s.me.frm.toNat
    let inputs := fun (w id i : Nat) => if active (s.rk k) w i then elem (s.operand a) w i else id
    let gives := fun (w : Nat) (r : Nat) (fl : BitVec 5) (float : Bool) (i : Instr) =>
      VecGives s (exec i s) d [a] true 6 w (2048 / w) (fun _ => true) (fun j => if j = 0 then r else 0) fl false float
    (∀ e : Ew,
      let w := e.bits
      let m := Nat.log2 (2048 / w)
      gives w (treeValue (fun x y => (x + y) % 2 ^ w) m (inputs w 0)) 0 false (.vrsum d a k e keep) ∧
      gives w (treeValue (fun x y => if signedOf w x ≤ signedOf w y then y else x) m (inputs w (2 ^ (w - 1)))) 0 false
        (.vrmax d a k e keep) ∧
      gives w (treeValue (fun x y => if signedOf w x ≤ signedOf w y then x else y) m (inputs w (2 ^ (w - 1) - 1))) 0 false
        (.vrmin d a k e keep)) ∧
    (∀ e : Fw,
      let w := e.bits
      let F := fwFloat e
      let m := Nat.log2 (2048 / w)
      gives w (treeValue (fMax F) m (inputs w (F.infPat true))) 0 true (.vrfmax d a k e keep) ∧
      gives w (treeValue (fMin F) m (inputs w (F.infPat false))) 0 true (.vrfmin d a k e keep) ∧
      gives w (treeValue (fun x y => (fAdd F rm x y).1) m (inputs w (F.signBit true)))
        (treeFlags (fAdd F rm) m (inputs w (F.signBit true))) true (.vrfsum d a k e keep))

/-- R91, R97, R102 to R105, R165: what a conversion delivers, in numbers. An integer in range is exact; one out of range is clamped or reduced; a
number becomes the integer that its mode rounds it to; a floating target receives the exact number, rounded once (RoundedResults). From a format
to itself nothing is clamped (log 90). -/
def Sys2Proof.Claims.ConversionValues : Prop :=
  ∀ (src dst : Fmt) (rm : Rm) (sat : Bool) (x : Nat), src ≠ .lut4 → dst ≠ .lut4 → x < 2 ^ src.bits →
    let r := convertElem src dst 0 rm sat x
    let lo := (intRange dst).1
    let hi := (intRange dst).2
    let out := fun (i : ℤ) => intValue dst r.1 = (if sat = true then (if i < lo then lo else hi) else intValue dst (wrapInt dst i))
    r.2.2 = decide (src = .t2 ∧ x = 2) ∧
    (src.isInt = true → dst.isInt = true → r.2.1 = 0 ∧
      (lo ≤ intValue src x → intValue src x ≤ hi → intValue dst r.1 = intValue src x) ∧
      (intValue src x < lo ∨ hi < intValue src x → out (intValue src x))) ∧
    (∀ F, floatFmt? src = some F → dst.isInt = true →
      (F.value x = .nan → r.1 = 0 ∧ r.2.1 = flagNV) ∧
      (∀ neg, F.value x = .inf neg → r.2.1 = flagNV ∧ intValue dst r.1 = if sat = true then (if neg = true then lo else hi) else 0) ∧
      (∀ u, (F.value x).Is u → ∃ i : ℤ,
        (rm = .rup → i = ⌈u⌉) ∧ (rm = .rdn → i = ⌊u⌋) ∧ (rm = .rtz → i = if 0 ≤ u then ⌊u⌋ else ⌈u⌉) ∧
        (rm = .rne → |u - i| ≤ 1 / 2 ∧ (|u - i| = 1 / 2 → i % 2 = 0)) ∧
        (lo ≤ i → i ≤ hi → intValue dst r.1 = i ∧ r.2.1 = if (i : ℚ) = u then 0 else flagNX) ∧
        (i < lo ∨ hi < i → out i ∧ r.2.1 = flagNV))) ∧
    (∀ G, floatFmt? dst = some G →
      (src.isInt = true → (r.1, r.2.1) = roundNum G rm sat (ofInt (intValue src x))) ∧
      (∀ F, floatFmt? src = some F →
        (F.value x = .nan → r.1 = G.nanPat ∧ r.2.1 = if G.hasNan = true then 0 else flagNV) ∧
        (∀ neg, F.value x = .inf neg →
          (src = dst → r.1 = x ∧ r.2.1 = 0) ∧
          (src ≠ dst → sat = true → r.1 = G.signBit neg + G.maxPat ∧ r.2.1 = 0) ∧
          (src ≠ dst → sat = false → G.ieee = true → r.1 = G.infPat neg ∧ r.2.1 = 0) ∧
          (src ≠ dst → sat = false → G.ieee = false → r.2.1 = flagNV ∧ r.1 = if G.oneNan = true then G.nanPat else G.signBit neg + G.maxPat)) ∧
        (∀ u, (F.value x).Is u → (r.1, r.2.1) = roundNum G rm (sat && src != dst) (F.value x))))

/-- R165 to R168, R87, R91, R102 to R105: conversion, packing, lookup and scaling. -/
def Sys2Proof.Claims.VectorConversions : Prop :=
  ∀ (s : State) (d a b : VReg) (xb : XReg) (k : KReg) (keep : Bool),
    let rm := Rm.ofCode s.me.frm.toNat
    (∀ (src dst : Fmt) (r : Rm) (sat : Bool) (k4 : Fin 4), src ≠ .lut4 → dst ≠ .lut4 →
      let pad := fun (f : Fmt) => if f.bits = 6 then 8 else f.bits
      let n := 2048 / max (pad src) (pad dst)
      let act := fun i => (s.rk ⟨k4.val, by omega⟩).getLsbD (i % 64)
      let c := fun i => convertElem src dst 0 r sat (elem (s.operand a) src.bits i)
      VecPacks s (exec (.vcvt d a src dst r sat k4) s) d [a] false dst.bits n act (fun i => (c i).1)
        (flagsOf n act (fun i => (c i).2.1)) ((List.range n).any (fun i => act i && (c i).2.2)) true) ∧
    (∀ (e : Ew) (nf : Fmt), (Instr.vpack d a nf k e keep).wellFormed = true →
      let w := e.bits
      let n := 2048 / w
      let act := active (s.rk k) w
      VecPacks s (exec (.vpack d a nf k e keep) s) d [a] true nf.bits n act
        (fun i => intToInt nf true (elemS (s.operand a) w i)) 0 false ∧
      VecGives s (exec (.vunpk d a nf k e keep) s) d [a] true 3 w n act
        (fun i => wrapTo w (intValue nf (elem (s.operand a) nf.bits i))) 0
        ((List.range n).any (fun i => act i && (nf == .t2 && elem (s.operand a) nf.bits i == 2)))) ∧
    (∀ e : Fw,
      let w := e.bits
      let F := fwFloat e
      let n := 2048 / w
      let act := active (s.rk k) w
      let entry := fun i => FloatFmt.bf16.value (elem (s.operand b) 16 (elem (s.operand a) 4 i))
      let l := fun i => floatToFloat F rm false (entry i)
      let q := fun i => fScale F rm (elem (s.operand a) w i) ((s.rx xb).setWidth 16).toInt
      VecGives s (exec (.vlut d a b k e keep) s) d [a, b] false 3 w n act (fun i => (l i).1) (flagsOf n act (fun i => (l i).2)) false true ∧
      VecGives s (exec (.vscale d a xb k e keep) s) d [a] false 3 w n act (fun i => (q i).1) (flagsOf n act (fun i => (q i).2)) false true)

/-- Vector reductions and conversions: VectorReductions, ConversionValues, VectorConversions. -/
def Obligations.ReductionsAndConversions : Prop :=
  Claims.VectorReductions ∧ Claims.ConversionValues ∧ Claims.VectorConversions

/-- R77, R79, R84, R69, R171: every class V word that names ports. One that may not serve the word traps STREAMCFG with the subcode and the port,
sources before the destination in the order of the fields (log 119); a pop of a faulted port with nothing staged, and a push to a faulted port, traps
STREAMFAULT; a pop with nothing staged, a push without room, a full vector queue or a ring entry in use holds the word. None of these pops or
pushes: the ports of every strand stay as they were. -/
def Obligations.PortOperands : Prop :=
  ∀ (s : State), s.readyT → ∀ (i : Instr) (w : Nat), i.wellFormed = true → encode false i = some w → classOf w = 2 →
    let o := exec i s
    let x := s.me
    let ports := fun (l : List RegName) => l.filterMap (fun r => match r with | .v n => portOf n | _ => none)
    let rs := ports (reads i)
    let ws := ports (writes i)
    let kept := ∃ t, o = .next t ∧ ∀ h, (t.hart h).ports = (s.hart h).ports
    let usable := (∀ p ∈ rs, x.badRead p = none) ∧ ∀ p ∈ ws, x.badWrite p = none
    let whole := (∀ p ∈ rs, x.ports[p].fault = true → x.ports[p].ready = true) ∧ ∀ p ∈ ws, x.ports[p].fault = false
    (∀ (pre : List PortNo) p post c, rs = pre ++ p :: post → (∀ q ∈ pre, x.badRead q = none) → x.badRead p = some c →
      Traps o s 0x21 (BitVec.ofNat 64 (c + 256 * p.val)) ∧ kept) ∧
    (∀ p ∈ ws, ∀ c, (∀ q ∈ rs, x.badRead q = none) → x.badWrite p = some c →
      Traps o s 0x21 (BitVec.ofNat 64 (c + 256 * p.val)) ∧ kept) ∧
    (∀ (pre : List PortNo) p post, usable → rs = pre ++ p :: post → (∀ q ∈ pre, x.ports[q].fault = true → x.ports[q].ready = true) →
      x.ports[p].fault = true → x.ports[p].ready = false → TrapsAt o s 0x20 x.ports[p].fva (some p) ∧ kept) ∧
    (∀ p ∈ ws, usable → (∀ q ∈ rs, x.ports[q].fault = true → x.ports[q].ready = true) → x.ports[p].fault = true →
      TrapsAt o s 0x20 x.ports[p].fva (some p) ∧ kept) ∧
    (usable → whole →
      (4 ≤ x.vq.length ∨ s.dispatchBusy = true ∨ (∃ p ∈ rs, x.ports[p].ready = false) ∨ ∃ p ∈ ws, s.room s.cur x.ports[p] false = false) →
      Waits o s x)

/-! ## The matrix unit -/

/-- R75, R170, R171: a class X word of a strand that does not own the unit traps MATOWN; one whose entry of the dispatch ring is
taken holds, and a command holds while the sequencer has 16. The TVAL of MATOWN is not stated. -/
def Sys2Proof.Claims.MatrixWordsAtIssue : Prop :=
  ∀ (s : State), s.readyT → ∀ (c e : AccNo) (a b : RingNo) (fa fb tf : Fmt) (pa pb int sat : Bool) (x : XReg) (v : VReg) (rm : Rm)
      (row n : Fin 32),
    let commands := [Instr.mma c a b fa fb pa pb x, .mmasN6 c a b fa fb pa pb x, .mmasN8 c a b fa fb pa pb x,
      .mmasN12 c a b fa fb pa pb x, .mzero c, .macc c int e, .mdrains c x tf rm sat row, .mchainSend c n row,
      .mchainRecv c n int row, .mchainRelay c n int row]
    let others := [Instr.mdrain c v tf rm sat row, .mcbk a x, .mrset a x, .mradv a x, .mrstat a x, .mwait, .mseq x]
    (∀ i ∈ commands ++ others,
      (s.myTile.owner.toNat ≠ (strandOf s.cur).val → ∃ w, Traps (exec i s) s 0x33 w) ∧
      (s.myTile.owner.toNat = (strandOf s.cur).val → s.dispatchBusy = true → Waits (exec i s) s s.me)) ∧
    (s.mReady → 16 ≤ s.myTile.cmds.length → ∀ i ∈ commands, Waits (exec i s) s s.me) ∧
    (s.mReady → 16 ≤ s.myTile.cmds.length → v.val < 24 → Waits (exec (.mdrain c v tf rm sat row) s) s s.me)

/-- R169, R170, R171, R93, R186: a command enters the sequencer last, with the operand it reads at issue: the scale of an MMA, of
which x0 is 1.0, and the address of an MDRAINS; a handler's word makes REPLAY 0 (R326). An MDRAIN owes its register a result, or its port a push in the port's order, for which
staging needs no room yet (the model's choice, log 88). -/
def Sys2Proof.Claims.CommandsEnter : Prop :=
  ∀ (s : State), s.mReady → s.myTile.cmds.length < 16 →
    ∀ (c e : AccNo) (a b : RingNo) (fa fb tf : Fmt) (pa pb int sat : Bool) (x : XReg) (v : VReg) (rm : Rm) (row n : Fin 32),
    let scale : Word := if x = 0 then 0x3F800000 else BitVec.ofNat 64 ((s.rx x).toNat % 2 ^ 32)
    let with' := fun (i : Instr) (w : Word) => s.setMyTile { s.myTile with cmds := s.myTile.cmds ++ [s.command i w] }
    let enters := fun (i : Instr) (w : Word) => Runs (exec i s) (with' i w) (s.dispatched s.me)
    enters (.mma c a b fa fb pa pb x) scale ∧ enters (.mmasN6 c a b fa fb pa pb x) scale ∧
    enters (.mmasN8 c a b fa fb pa pb x) scale ∧ enters (.mmasN12 c a b fa fb pa pb x) scale ∧
    enters (.mzero c) 0 ∧ enters (.macc c int e) 0 ∧ enters (.mdrains c x tf rm sat row) (s.rx x) ∧
    enters (.mchainSend c n row) 0 ∧ enters (.mchainRecv c n int row) 0 ∧ enters (.mchainRelay c n int row) 0 ∧
    (let i := Instr.mdrain c v tf rm sat row
     let org := (s.command i 0).org
     (v.val < 24 → Runs (exec i s) (with' i 0) (s.dispatched { s.me with flight := s.me.flight
        ++ [{ due := none, land := .v v 0 (BitVec.allOnes 2048), wait := true, org := org }] })) ∧
     (∀ p : PortNo, v.val = 24 + p.val → s.me.badWrite p = none → s.me.ports[p].fault = false →
       Runs (exec i s) (with' i 0) (s.dispatched { s.me with
          ports := s.me.ports.set p (s.me.ports[p].pushed 0 (BitVec.allOnes 2048) (some org.order)) })))

/-- Class X words at issue, and the commands they enter: MatrixWordsAtIssue, CommandsEnter. -/
def Obligations.MatrixWords : Prop :=
  Claims.MatrixWordsAtIssue ∧ Claims.CommandsEnter

/-- R178 to R182, R188, R190: the words that act at issue, with their holds and their precise FORMAT traps. That MRSET's subcode 6 comes
before 10 is log 54, and that MCBK's PERM comes before its MISALIGN log 93. -/
def Obligations.RingAndWaitWords : Prop :=
  ∀ (s : State), s.mReady → ∀ (r : RingNo) (a : XReg),
    let x := s.myTile
    let q := x.rings[r]
    let w := s.rx a
    let named := ∃ c ∈ x.cmds, r ∈ c.kind.ringsOf
    let me := s.dispatched s.me
    let format := fun (sub : Nat) (o : Out) => Traps o s 0x34 (BitVec.ofNat 64 (sub + 256 * r.val) ||| pcHigh s.me.pc)
    let fed := ∃ (i : Fin 4) (p : PortNo),
      let f := (s.hart (4 * tileOf s.cur + i.val)).ports[p]
      f.cfg = true ∧ f.mode = .ring ∧ f.aux = r.val
    (named → Waits (exec (.mrset r a) s) s s.me ∧ Waits (exec (.mcbk r a) s) s s.me) ∧
    (¬ named → a ≠ 0 → ringConfigOk w = false → format 6 (exec (.mrset r a) s)) ∧
    (¬ named → (a = 0 ∨ ringConfigOk w = true) → fed → format 10 (exec (.mrset r a) s)) ∧
    (¬ named → (a = 0 ∨ ringConfigOk w = true) → ¬ fed → Runs (exec (.mrset r a) s)
      (s.setMyTile { x with rings := x.rings.set r { q with cfg := if a = 0 then 0 else w, head := 0, tail := 0 } }) me) ∧
    (w = 0 → Runs (exec (.mradv r a) s) s me) ∧
    (w ≠ 0 → q.cfg = 0 → format 2 (exec (.mradv r a) s)) ∧
    (w ≠ 0 → q.cfg ≠ 0 → q.count < w.toNat → format 7 (exec (.mradv r a) s)) ∧
    (w ≠ 0 → q.cfg ≠ 0 → w.toNat ≤ q.count → q.count < q.held + w.toNat → Waits (exec (.mradv r a) s) s s.me) ∧
    (w ≠ 0 → q.cfg ≠ 0 → q.held + w.toNat ≤ q.count → Runs (exec (.mradv r a) s)
      (s.setMyTile { x with rings := x.rings.set r { q with tail := q.tail + BitVec.ofNat 32 w.toNat } }) me) ∧
    Runs (exec (.mrstat r a) s) s (s.dispatched (s.withResult
      (.x a (if q.cfg = 0 then 0 else BitVec.ofNat 64 (q.tail.toNat * 2 ^ 32 + q.head.toNat))) 1 true)) ∧
    (x.cmds ≠ [] → Waits (exec .mwait s) s s.me) ∧ (x.cmds = [] → Runs (exec .mwait s) s me) ∧
    (x.cmds.length ≤ 16 → Runs (exec (.mseq a) s) s (s.dispatched (s.withResult
      (.x a (BitVec.ofNat 64 ((x.cmds.head?.map (·.org.seq)).getD (s.me.seq + 1)).toNat
        + BitVec.ofNat 64 (65536 * x.cmds.length))) 2 false))) ∧
    (∀ off, w.toNat = aliasBase + off → off % 32 = 0 → off + 32 ≤ scratchSize → ¬ named →
      x.lockBars (tileOf s.cur) w.toNat 32 false = false → s.readBad (.scratch (tileOf s.cur) off) 32 = false →
      Runs (exec (.mcbk r a) s) (s.setMyTile
        { x with rings := x.rings.set r { q with codebook := BitVec.ofNat 256 (leNat (s.bytesAt (.scratch (tileOf s.cur) off) 32)) } }) me) ∧
    (¬ named → ¬ inAlias w.toNat → Traps (exec (.mcbk r a) s) s 0x11 w) ∧
    (∀ off, w.toNat = aliasBase + off → off + 32 ≤ scratchSize → off % 32 ≠ 0 → ¬ named → Traps (exec (.mcbk r a) s) s 0x18 w) ∧
    (∀ off, w.toNat = aliasBase + off → off % 32 = 0 → off + 32 ≤ scratchSize → ¬ named → x.lockBars (tileOf s.cur) w.toNat 32 false = true →
      Traps (exec (.mcbk r a) s) s 0x15 w)

/-- R170, R176: when the command that starts next starts, and when it will retire. An array command waits for the array and its
tiles; MZERO and MACC for every command on their accumulators; a drain for the writers of its accumulator and the drain path. -/
def Sys2Proof.Claims.CommandStart : Prop :=
  ∀ (s : State) (t : Nat), s.power = .on → ∀ (earlier later : List Command) (c : Command),
    let x := s.tile t
    let now := s.dtime
    let starts := fun (retire array drain : Nat) => TileBecomes (exec (.seqCommandStart t) s) s t
      { x with
        cmds := earlier ++ { c with started := some now, retireAt := retire, place := none, starved := none } :: later
        arrayFree := array, drainFree := drain }
    let stays := exec (.seqCommandStart t) s = .next s
    let names := fun (a : AccNo) => ∃ d ∈ earlier, a ∈ d.kind.names
    let writes := fun (a : AccNo) => ∃ d ∈ earlier, d.kind.writes = some a
    x.NextToStart now earlier c later →
    (∀ a, c.instr = .mzero a → (names a → stays) ∧ (¬ names a → starts (now + 1) x.arrayFree x.drainFree)) ∧
    (∀ a i b, c.instr = .macc a i b →
      ((names a ∨ names b) → stays) ∧ (¬ names a → ¬ names b → starts (now + 16) x.arrayFree x.drainFree)) ∧
    (∀ a v tf rm sat row, c.instr = .mdrain a v tf rm sat row →
      ((writes a ∨ now < x.drainFree) → stays) ∧
      (¬ writes a → x.drainFree ≤ now → starts (now + 6) x.arrayFree (now + 2))) ∧
    (∀ a r tf rm sat row off, c.instr = .mdrains a r tf rm sat row →
      ((writes a ∨ now < x.drainFree) → stays) ∧
      (c.opnd.toNat = aliasBase + off → off + 8 * tf.bits ≤ scratchSize → off % (min (8 * tf.bits) 32) = 0 →
        x.lockBars t c.opnd.toNat (8 * tf.bits) true = false → s.writeBad (.scratch t off) (8 * tf.bits) = false →
        ¬ writes a → x.drainFree ≤ now → starts (now + 6) x.arrayFree (now + 2))) ∧
    (∀ n a ra rb fa fb pa pb, c.kind = .mma n a ra rb fa fb pa pb →
      let qa := x.rings[ra]
      let qb := x.rings[rb]
      let needA := tileNeed (elemBytesA n fa) qa.scale 64
      let needB := tileNeed (elemBytesB fb) qb.scale 128
      (now < x.arrayFree → stays) ∧
      (x.arrayFree ≤ now → qa.cfg ≠ 0 → qb.cfg ≠ 0 → popsBefore earlier ra < qa.held → popsBefore earlier rb < qb.held →
        pairOk fa fb = true → (n ≠ 0 → fa ≠ .fp32) → needA ≤ qa.tbytes → needB ≤ qb.tbytes →
        ¬ (qa.scale = true ∧ fa.isInt = true) → ¬ (qb.scale = true ∧ fb.isInt = true) →
        ¬ (fa.isInt = true ∧ fb.isInt = true ∧ c.scaled = true) →
        (∀ sa sb, s.tileString t qa (popsBefore earlier ra) needA = .ok sa → s.tileString t qb (popsBefore earlier rb) needB = .ok sb →
          (n = 0 ∨ sparseBad sa n fa.bits = none) → starts (now + mmaCycles n fa fb + 8) (now + mmaCycles n fa fb) x.drainFree)))

/-- R107, R183, R184, R186, R187, R95, R91: what each command does when it retires. That an MMA and a MACC read their accumulators then is log
94. -/
def Obligations.CommandRetire : Prop :=
  ∀ (s : State) (t : Nat), s.power = .on → ∀ (c : Command) (rest : List Command),
    let x := s.tile t
    x.DueFirst s.dtime c rest →
    (∀ a, c.instr = .mzero a → TileBecomes (exec (.mzeroRetire t) s) s t
      { x with cmds := rest, acc := x.acc.set a 0, mstat := setField x.mstat (16 + a.val) 1 0 }) ∧
    (∀ a int b, c.instr = .macc a int b → ∃ y, TileBecomes (exec (.maccRetire t) s) s t y ∧ y.cmds = rest
      ∧ y.accInt a = int ∧ (∀ e : AccNo, e ≠ a → y.acc[e] = x.acc[e] ∧ y.accInt e = x.accInt e)
      ∧ (∀ i < 2048, y.acc[a].get i = if int = true then x.acc[a].get i + x.acc[b].get i else addFX (x.acc[a].get i) (x.acc[b].get i))
      ∧ (y.mstat.getLsbD 0 = true ↔ x.mstat.getLsbD 0 = true ∨ (int = true ∧ ∃ i < 2048,
          ¬ ((x.acc[a].get i + x.acc[b].get i).toInt = (x.acc[a].get i).toInt + (x.acc[b].get i).toInt)))
      ∧ y.rings = x.rings ∧ y.scratch = x.scratch) ∧
    (∀ n a ra rb fa fb pa pb, c.kind = .mma n a ra rb fa fb pa pb →
      let qa := x.rings[ra]
      let qb := x.rings[rb]
      let sa := leNat (s.readLoc qa.tbytes (.scratch t (qa.slot qa.head)))
      let sb := leNat (s.readLoc qb.tbytes (.scratch t (qb.slot qb.head)))
      let ints := fa.isInt = true ∧ fb.isInt = true
      let sca := if qa.scale = true then some (scaleAt (elemBytesA n fa)) else none
      let scb := if qb.scale = true then some (scaleAt (elemBytesB fb)) else none
      let len := if fa = .fp32 ∨ fb = .fp32 then 1 else 8
      let one := FloatFmt.fp32.value (c.opnd.toNat % 2 ^ 32)
      ∃ y, TileBecomes (exec (.mmaRetire t) s) s t y ∧ y.cmds = rest ∧ (y.accInt a = true ↔ ints)
        ∧ (∀ e : AccNo, e ≠ a → y.acc[e] = x.acc[e] ∧ y.accInt e = x.accInt e)
        ∧ (∀ m < 32, ∀ j < 64,
            let old := x.acc[a].get (64 * m + j)
            (ints → y.acc[a].get (64 * m + j)
              = BitVec.ofInt 48 (old.toInt + ((List.range 48).map (fun k => aInt n fa sa m k * bInt fb sb k j)).sum)) ∧
            (¬ ints → y.acc[a].get (64 * m + j) = sumRuns len (48 / len) ((List.range 48).map (fun k =>
              (mulNum (aValue n fa qa.codebook sca one sa m k) (bValue fb qb.codebook scb sb k j)).1)) old))
        ∧ (y.mstat.getLsbD 0 = true ↔ x.mstat.getLsbD 0 = true ∨ (ints ∧ ∃ m < 32, ∃ j < 64,
            let i := (x.acc[a].get (64 * m + j)).toInt + ((List.range 48).map (fun k => aInt n fa sa m k * bInt fb sb k j)).sum
            ¬ (-2 ^ 47 ≤ i ∧ i < 2 ^ 47)))
        ∧ (y.mstat.getLsbD 1 = true ↔ x.mstat.getLsbD 1 = true
            ∨ (fa = .t2 ∧ ∃ i < (if n = 0 then 1536 else 64 * n), sa / 2 ^ (2 * i) % 4 = 2) ∨ (fb = .t2 ∧ ∃ i < 3072, sb / 2 ^ (2 * i) % 4 = 2))
        ∧ (∀ r : RingNo, y.rings[r] = { x.rings[r] with head := x.rings[r].head
            + (if ra = r ∧ pa = true then 1 else 0) + (if rb = r ∧ pb = true then 1 else 0) })
        ∧ y.scratch = x.scratch) ∧
    (∀ a tf rm sat row r, c.instr = .mdrains a r tf rm sat row → s.memoriesWf →
      ∀ off, c.opnd.toNat = aliasBase + off → off + 8 * tf.bits ≤ scratchSize →
      s.writeBad (.scratch t off) (8 * tf.bits) = false →
      let e := fun (n : Nat) => drainElem (x.accInt a) tf rm sat (x.acc[a].get (64 * row.val + n))
      ∃ u, exec (.mdrainsRetire t) s = .next u ∧ (u.tile t).cmds = rest
        ∧ (∀ n < 64, leNat (u.bytesAt (.scratch t off) (8 * tf.bits)) / 2 ^ (tf.bits * n) % 2 ^ tf.bits = (e n).1 % 2 ^ tf.bits)
        ∧ (∀ i, ¬ (off ≤ i ∧ i < off + 8 * tf.bits) → u.byteAt (.scratch t i) = s.byteAt (.scratch t i))
        ∧ (u.hart (4 * t + c.strand.val)).fflags
            = (s.hart (4 * t + c.strand.val)).fflags ||| flagsOf 64 (fun _ => true) (fun n => (e n).2)
        ∧ u.mem = s.mem) ∧
    (∀ a v tf rm sat row, c.instr = .mdrain a v tf rm sat row → ∀ h : v.val < 24,
      let e := fun (n : Nat) => drainElem (x.accInt a) tf rm sat (x.acc[a].get (64 * row.val + n))
      let me := s.hart (4 * t + c.strand.val)
      ∀ f, me.flight.find? (fun g => g.org.order == c.org.order) = some f → f.land = .v v 0 (BitVec.allOnes 2048) →
      ∃ u, exec (.mdrainRetire t) s = .next u ∧ (u.tile t).cmds = rest
        ∧ (let y := u.hart (4 * t + c.strand.val)
           (∀ n < 64, elem (y.v[v.val]) tf.bits n = (e n).1 % 2 ^ tf.bits)
           ∧ (∀ j, 64 * tf.bits ≤ j → j < 2048 → (y.v[v.val]).getLsbD j = false)
           ∧ y.fflags = me.fflags ||| flagsOf 64 (fun _ => true) (fun n => (e n).2)
           ∧ y.flight = me.flight.filter (fun g => g.org.order != c.org.order) ∧ y.x = me.x)
        ∧ u.mem = s.mem) ∧
    (∀ a v tf rm sat row, c.instr = .mdrain a v tf rm sat row → ∀ p : PortNo, v.val = 24 + p.val →
      let e := fun (n : Nat) => drainElem (x.accInt a) tf rm sat (x.acc[a].get (64 * row.val + n))
      let me := s.hart (4 * t + c.strand.val)
      let q := me.ports[p]
      ∀ (pre post : List Push) (w : Push), q.pend = pre ++ w :: post → w.owed = some c.org.order →
      (∀ z ∈ pre ++ post, z.owed ≠ some c.org.order) → (∀ g ∈ me.flight, g.org.order ≠ c.org.order) →
      ∃ (u : State) (val : VWord), exec (.mdrainRetire t) s = .next u ∧ (u.tile t).cmds = rest
        ∧ (∀ n < 64, elem val tf.bits n = (e n).1 % 2 ^ tf.bits) ∧ (∀ j, 64 * tf.bits ≤ j → j < 2048 → val.getLsbD j = false)
        ∧ (let y := u.hart (4 * t + c.strand.val)
           y.ports[p] = { q with pend := pre ++ { w with bytes := leBytes (q.w * q.l) val.toNat, owed := none } :: post }
           ∧ y.fflags = me.fflags ||| flagsOf 64 (fun _ => true) (fun n => (e n).2) ∧ y.v = me.v ∧ y.x = me.x ∧ y.flight = me.flight)
        ∧ u.mem = s.mem)

/-- R189, R109, R268, R170, R22: along a chain of more than one tile a send or a relay of the first tile puts its rows on their way to the
next tile of the chain as it was at the start, the message reaches that tile's empty buffer, after the PUTQs of the sender for that tile that
left before it (which they are is log 133), and a receive adds it, with IOVF under I = 1, as a relay at a later position does, which then sends
the sum if it is not the last. A send starts when the next tile's buffer is empty and no earlier send is on its way or under way; a receive
when its message is there and no earlier receive holds it. That the rows are taken, and the accumulator read, at retirement is log 94. -/
def Obligations.ChainCommands : Prop :=
  ∀ (s : State) (t : Nat), s.power = .on → ∀ (c : Command) (rest : List Command),
    let x := s.tile t
    let now := s.dtime
    (x.DueFirst now c rest → ∀ (a : AccNo) (n row : Fin 32) (int : Bool) (l : ChainPlace), c.place = some l → 1 < l.p →
      let rows := n.val + 1
      let message := fun (i : Bool) (y : Tile) (u : Nat) => ({
        rows := rows, int := i, data := y.acc[a].rows row rows, launch := x.launch, dst := u, behind := s.putqsFor t u } : ChainMsg)
      let sent := fun (i : Bool) => ∀ u, l.next = some u →
        TileBecomes (exec (.chainSendDone t) s) s t { x with cmds := rest, chainOut := some (message i x u) }
      (c.instr = .mchainSend a n row → sent false) ∧
      (c.instr = .mchainRelay a n int row → l.j = 0 → sent int) ∧
      (c.instr = .mchainRecv a n int row ∨ (c.instr = .mchainRelay a n int row ∧ l.j ≠ 0) → ∀ m, x.chain = some m →
        let inside := fun (i : Nat) => 64 * row.val ≤ i ∧ i < 64 * (row.val + rows)
        let got := fun (i : Nat) => m.data.get (i - 64 * row.val)
        let on := c.instr = .mchainRelay a n int row ∧ l.j + 1 < l.p
        ∃ y, TileBecomes (exec (.chainReceiveRetire t) s) s t y
        ∧ y.cmds = rest ∧ y.chain = none ∧ y.accInt a = int
        ∧ (on → ∀ u, l.next = some u → y.chainOut = some (message int y u)) ∧ (¬ on → y.chainOut = x.chainOut)
        ∧ (∀ e : AccNo, e ≠ a → y.acc[e] = x.acc[e] ∧ y.accInt e = x.accInt e)
        ∧ (y.mstat.getLsbD 0 = true ↔ x.mstat.getLsbD 0 = true ∨ (int = true ∧ ∃ i < 2048, inside i ∧
            ¬ ((got i + x.acc[a].get i).toInt = (got i).toInt + (x.acc[a].get i).toInt)))
        ∧ (∀ i < 2048, y.acc[a].get i = if inside i then (if int = true then got i + x.acc[a].get i else addFX (got i) (x.acc[a].get i))
            else x.acc[a].get i))) ∧
    (∀ earlier later, x.NextToStart now earlier c later → ∀ (a : AccNo) (n row : Fin 32) (int : Bool) (j p : Nat) (next : Option Nat), 1 < p →
      s.chainPos t = (j, p, next) → (∀ d ∈ earlier, d.kind.writes ≠ some a) → x.drainFree ≤ now →
      let rows := n.val + 1
      let starts := TileBecomes (exec (.seqCommandStart t) s) s t
        { x with
          cmds := earlier ++ { c with started := some now, retireAt := now + 6 * rows, place := some ⟨j, p, next⟩, starved := none } :: later
          drainFree := now + 2 * rows }
      let clear := fun (u : Nat) => (s.tile u).chain = none ∧ x.chainOut = none ∧ ∀ d ∈ earlier, d.sends = false
      let relay := c.instr = .mchainRelay a n int row
      (c.instr = .mchainSend a n row ∨ (relay ∧ j = 0) → j + 1 ≠ p → ∀ u, next = some u →
        (clear u → starts) ∧ (¬ clear u → exec (.seqCommandStart t) s = .next s)) ∧
      (c.instr = .mchainRecv a n int row ∨ relay → j ≠ 0 → ∀ m, x.chain = some m → m.rows = rows → m.int = int →
        ((∀ d ∈ earlier, d.receives = false) → (¬ relay ∨ j + 1 = p ∨ ∃ u, next = some u ∧ clear u) → starts) ∧
        ((∀ d ∈ earlier, d.receives = false) → relay → j + 1 ≠ p → (∀ u, next = some u → ¬ clear u) → exec (.seqCommandStart t) s = .next s) ∧
        ((∃ d ∈ earlier, d.receives = true) → c.starved = none → TileBecomes (exec (.seqCommandStart t) s) s t
          { x with cmds := earlier ++ { c with starved := some now } :: later }))) ∧
    (∀ m, x.chainOut = some m → m.dst ≠ t → (s.tile m.dst).chain = none → (s.tile m.dst).presence = .present →
      ((∀ q ∈ s.putqs, (q.hart, q.order) ∉ m.behind) → exec (.chainMessageArrival t) s
        = .next ((s.setTile t { x with chainOut := none }).setTile m.dst { s.tile m.dst with chain := some m })) ∧
      ((∃ q ∈ s.putqs, (q.hart, q.order) ∈ m.behind) → exec (.chainMessageArrival t) s = .next s))

/-- R172, R173, R326: a command whose tiles have been missing for RINGTIME cycles raises RINGSTARVED late on its strand, and it and
every later command stay for the fault to be taken (parked), when they are held; so does one with an unconfigured ring, with FORMAT subcode 2. Of two rings the first is named (log 120). -/
def Sys2Proof.Claims.CommandFaults : Prop :=
  ∀ (s : State) (t : Nat), s.power = .on → ∀ (earlier later : List Command) (c : Command) n a ra rb fa fb pa pb,
    let x := s.tile t
    let h := 4 * t + c.strand.val
    let faults := fun (i : Instr) (cause : Cause) (low : Nat) => ∃ u, exec i s = .next u
      ∧ (u.hart h).late = (s.hart h).late ++ [⟨cause, BitVec.ofNat 64 low ||| pcHigh c.org.pc, 0, true, c.org⟩]
      ∧ (u.tile t).cmds = earlier
      ∧ (u.tile t).held = x.held ++ (c :: later).map (fun d => { d with started := none, starved := none, parked := some c.org.order })
      ∧ (u.tile t).acc = x.acc ∧ (u.tile t).rings = x.rings ∧ u.mem = s.mem
    x.NextToStart s.dtime earlier c later → c.kind = .mma n a ra rb fa fb pa pb → x.arrayFree ≤ s.dtime →
    (∀ d ∈ earlier, d.org.order < c.org.order) → (∀ d ∈ later, c.org.order < d.org.order) →
    (∀ since, x.rings[ra].cfg ≠ 0 → x.rings[rb].cfg ≠ 0 → x.rings[ra].held ≤ popsBefore earlier ra → c.starved = some since →
      since + 2 ^ (x.mstat.toNat / 2 ^ 8 % 2 ^ 5) ≤ s.dtime → faults (.ringstarved t) 0x31 ra.val) ∧
    (x.rings[ra].cfg = 0 → faults (.seqCommandStart t) 0x34 (2 + 256 * ra.val)) ∧
    (x.rings[ra].cfg ≠ 0 → x.rings[rb].cfg = 0 → faults (.seqCommandStart t) 0x34 (2 + 256 * rb.val))

/-- When commands of the sequencer start, and how they fault: CommandStart, CommandFaults. -/
def Obligations.CommandsStartAndFault : Prop :=
  Claims.CommandStart ∧ Claims.CommandFaults

/-! ## Ports, copies, PUTQ -/

/-- R77, R79, R84, R199: QGET pops eight bytes and QPUT pushes the low bytes of a register; a port that does not serve the word, a
port that is wider than QPUT takes, a fault, and a hold. -/
def Sys2Proof.Claims.PortGetAndPut : Prop :=
  ∀ (s : State), s.readyT → ∀ (a : XReg) (p : PortNo),
    let q := s.me.ports[p]
    let get := exec (.qget a p) s
    let put' := exec (.qput p a) s
    (s.me.badRead p = none → q.ready = true → Runs get s
      { s.withResult (.x a (BitVec.ofNat 64 (elem q.next 64 0))) 1 true with ports := s.me.ports.set p q.popped }) ∧
    (s.me.badRead p = none → q.ready = false → q.fault = false → Waits get s s.me) ∧
    (s.me.badRead p = none → q.ready = false → q.fault = true → TrapsAt get s 0x20 q.fva (some p)) ∧
    (∀ c, s.me.badRead p = some c → Traps get s 0x21 (BitVec.ofNat 64 (c + 256 * p.val))) ∧
    (∀ c, s.me.badWrite p = some c → Traps put' s 0x21 (BitVec.ofNat 64 (c + 256 * p.val))) ∧
    (s.me.badWrite p = none → 8 < q.w * q.l → Traps put' s 0x21 (BitVec.ofNat 64 (5 + 256 * p.val))) ∧
    (s.me.badWrite p = none → q.w * q.l ≤ 8 →
      (q.fault = true → TrapsAt put' s 0x20 q.fva (some p)) ∧
      (q.fault = false → s.room s.cur q false = false → Waits put' s s.me) ∧
      (q.fault = false → s.room s.cur q false = true → Runs put' s { s.me with
        ports := s.me.ports.set p (q.pushed (BitVec.ofNat 2048 (s.rx a).toNat) (BitVec.allOnes 2048) none) }))

/-- R198, R200: QCLOSE of an unconfigured port, a read port, a write port with its pushes written, faulted, or with pushes left; and
what each selector of QSTAT reads, i3 running on past CNT3 beyond the last element (log 114), and the transfers done those whose every byte is
written. -/
def Sys2Proof.Claims.PortCloseAndStatus : Prop :=
  ∀ (s : State), s.readyT → ∀ (d : XReg) (p : PortNo),
    let q := s.me.ports[p]
    let x := s.myTile
    let close := exec (.qclose p) s
    let withPort := fun (r : PortCtx) => { s.me with ports := s.me.ports.set p r }
    let stat := fun (k : Fin 8) (w : Word) => Gives s (.x d w) 1 (exec (.qstat d p k) s)
    (q.cfg = false → Runs close s (withPort { q with eos := false, fault := false })) ∧
    (q.cfg = true → q.write = false → ∃ r : PortCtx, r.cfg = false ∧ r.close = true ∧ r.wait = q.wait ∧ r.stage = [] ∧ r.fault = false
      ∧ r.eos = false ∧ Runs close s (withPort r)) ∧
    (q.cfg = true → q.write = true → q.fault = true → TrapsAt close s 0x20 q.fva (some p)) ∧
    (q.cfg = true → q.write = true → q.fault = false → q.pend ≠ [] ∨ q.later ≠ [] → Waits close s s.me) ∧
    (q.cfg = true → q.write = true → q.fault = false → q.pend = [] → q.later = [] → Runs close
      (s.setMyTile { x with locks := x.locks.filter (fun l => !(l.owner == .port s.cur p && l.id == 0)) }) (withPort {})) ∧
    (q.cfg = false → ∀ k, stat k 0) ∧
    (q.cfg = true →
      let e := q.pos * q.l
      stat 0 (BitVec.ofNat 64 q.pos) ∧
      stat 1 (BitVec.ofNat 64 ((Finset.range q.done).filter (fun t => ∀ z ∈ q.later, z.t ≠ t)).card) ∧
      stat 2 (if q.fault = true then BitVec.ofNat 64 q.fidx else BitVec.allOnes 64) ∧ stat 3 (if q.fault = true then q.fva else 0) ∧
      stat 4 (BitVec.ofNat 64 (e % q.cnt[0])) ∧ stat 5 (BitVec.ofNat 64 (e / q.cnt[0] % q.cnt[1])) ∧
      stat 6 (BitVec.ofNat 64 (e / (q.cnt[0] * q.cnt[1]) % q.cnt[2])) ∧
      stat 7 (BitVec.ofNat 64 (e / (q.cnt[0] * q.cnt[1] * q.cnt[2]))))

/-- R192, R196, R197, R216: QCFG with a record of 64 bytes that breaks no rule configures the port as the record's fields say, with its
lock; one that breaks a rule traps STREAMCFG with the subcode of the first row of R196 that it breaks (that the rows count in their order
is the model's choice, log 50): width or RING length, a count, MODE, BASE and the reserved bits, DEPTH, the index port, the ring. -/
def Sys2Proof.Claims.PortConfiguration : Prop :=
  ∀ (s : State), s.readyT → ∀ (p : PortNo) (a : XReg) (l : Loc),
    let b := s.bytesAt l 64
    let field := fun (lo n : Nat) => leNat ((b.drop lo).take n)
    let word := fun (lo : Nat) => BitVec.ofNat 64 (field lo 8)
    let m := field 10 1
    let x := s.myTile
    let old := s.me.ports[p]
    let q : PortCtx :=
      { cfg := true, write := m / 4 % 2 == 1
        mode := if m % 4 = 0 then .affine else if m % 4 = 1 then .indexed else .ring
        base := word 0, w := field 8 1 + 1, l := field 9 1 + 1, aux := m / 8 % 8
        depth := if field 11 1 = 0 then 2 else field 11 1
        fill := BitVec.ofNat 32 (field 12 4)
        cnt := #v[field 16 4, field 20 4, field 24 4, field 28 4]
        stride := #v[word 32, word 40, word 48, word 56]
        sys := s.me.priv != .user, since := s.dtime }
    let i := s.me.ports[Fin.ofNat 8 q.aux]
    let fed := (List.range 4).any (fun j => (List.range 8).any (fun n =>
      let g := 4 * tileOf s.cur + j
      let r := (s.hart g).ports[Fin.ofNat 8 n]
      !(g == s.cur && n == p.val) && r.cfg && r.mode == .ring && r.aux == q.aux))
    let bad : Option Nat :=
      if 256 < (field 8 1 + 1) * (field 9 1 + 1) ∨ (m % 4 = 2 ∧ field 9 1 ≠ 0) then some 16
      else if field 16 4 = 0 ∨ field 20 4 = 0 ∨ field 24 4 = 0 ∨ field 28 4 = 0
          ∨ 2 ^ 40 ≤ field 16 4 * field 20 4 * field 24 4 * field 28 4 then some 17
      else if m % 4 = 3 ∨ (m / 4 % 2 = 1 ∧ m % 4 ≠ 0) ∨ m / 64 ≠ 0 ∨ 2 ^ 48 ≤ field 0 8 ∨ (m % 4 = 0 ∧ m / 8 % 8 ≠ 0) then some 18
      else if field 11 1 = 1 ∨ 64 < field 11 1 then some 19
      else if m % 4 = 1 ∧ (m / 8 % 8 = p.val ∨ i.cfg = false ∨ i.write = true ∨ i.mode ≠ .affine ∨ (i.w ≠ 4 ∧ i.w ≠ 8)
          ∨ field 40 8 ≠ 0 ∨ (word 56).toInt < (word 48).toInt) then some 20
      else if m % 4 = 2 ∧ (x.rings[Fin.ofNat 8 q.aux].cfg = 0 ∨ fed = true) then some 21
      else none
    let free := x.locks.filter (fun k => !(k.owner == .port s.cur p && k.id == 0))
    x.dbgctl.getLsbD 0 = false → s.me.qcfg = none → s.reaches .load (s.rx a) 64 64 l → l.isMemory → s.readBad l 64 = false →
      (∀ c, bad = some c → Traps (exec (.qcfg p a) s) s 0x21 (BitVec.ofNat 64 (c + 256 * p.val))) ∧
      (bad = none → s.boxBarred (tileOf s.cur) (q.box (tileOf s.cur)) = false → old.close = false →
        ¬ (old.cfg = true ∧ old.write = false ∧ old.wait = true) →
        ¬ (old.cfg = true ∧ old.write = true ∧ old.fault = false ∧ old.pend ≠ []) → old.later = [] → free.length < 16 →
        Runs (exec (.qcfg p a) s)
          (s.setMyTile { x with
            locks := free ++ [⟨(q.box (tileOf s.cur)).1, (q.box (tileOf s.cur)).2, q.write, .port s.cur p, 0⟩] })
          { s.me with ports := s.me.ports.set p q })

/-- QGET, QPUT, QCLOSE, QSTAT and QCFG: PortGetAndPut, PortCloseAndStatus, PortConfiguration. -/
def Obligations.PortWords : Prop :=
  Claims.PortGetAndPut ∧ Claims.PortCloseAndStatus ∧ Claims.PortConfiguration

/-- R79, R193, R195, R197, R198, R201, R202, R81: a read engine stages the next transfer, its elements in order and fill beyond the last,
while fewer than two are staged, or fewer than DEPTH and the 32 KiB of staging have room (log 113), and for INDEXED pops an index of its
index port for each element (that its address wraps is log 124); a write engine writes the oldest push, element
by element, or puts its checked elements by, of which each is performed in a turn of its own, in an order that nothing fixes (log 53); a RING engine fills the next tile and no other byte; a closed port releases its lock. -/
def Obligations.StreamEngines : Prop :=
  ∀ (s : State) (h : Nat) (p : PortNo), s.power = .on →
    let t := tileOf h
    let x := s.tile t
    let q := (s.hart h).ports[p]
    let port := fun (r : PortCtx) => { s.hart h with ports := (s.hart h).ports.set p r }
    (x.enginesOn = true → q.cfg = true → q.write = false → q.mode = .affine → q.fault = false → q.wait = false →
      q.pend = [] → (q.stage.length < 2 ∨ (q.stage.length < q.depth ∧ s.stagingUse t + q.w * q.l ≤ 0x8000)) →
      q.done < q.transfers → ∀ b : Nat → List Byte,
      (∀ e < q.elems, s.engineRead (.port h p) q.sys q.since (q.addr e) q.w = (.ok (b e), s)) →
      exec (.streamFetch h p) s = .next (s.setHart h (port { q with
        stage := q.stage ++ [(List.range q.l).flatMap (fun j =>
          if q.done * q.l + j < q.elems then b (q.done * q.l + j) else (List.range q.w).map q.fillByte)]
        done := q.done + 1, taken := q.taken.drop q.l }))) ∧
    (∀ (i : PortNo) (bi b : List Byte), q.aux = i.val → i ≠ p → x.enginesOn = true → q.cfg = true → q.write = false → q.mode = .indexed →
      q.fault = false → q.wait = false → q.pend = [] → q.taken = [] → q.l = 1 →
      (q.stage.length < 2 ∨ (q.stage.length < q.depth ∧ s.stagingUse t + q.w * q.l ≤ 0x8000)) → q.done < q.transfers →
      let iq := (s.hart h).ports[i]
      iq.cfg = true → iq.write = false → iq.mode = .affine → 0 < iq.w → iq.stage.head? = some bi → bi.length = iq.w →
      let n := (BitVec.ofNat (8 * iq.w) (leNat bi)).toInt
      q.stride[2].toInt ≤ n → n ≤ q.stride[3].toInt →
      let v := s.setHart h { s.hart h with ports := (s.hart h).ports.set i iq.popped }
      v.engineRead (.port h p) q.sys q.since (q.base + BitVec.ofInt 64 (n * q.stride[0].toInt)) q.w = (.ok b, v) →
      exec (.streamFetch h p) s = .next (v.setHart h { v.hart h with
        ports := (v.hart h).ports.set p { q with stage := q.stage ++ [b], done := q.done + 1 } })) ∧
    (∀ u rest, q.pend = u :: rest → x.enginesOn = true → q.cfg = true → q.write = true → q.fault = false → q.wait = false →
      (q.later = [] ∨ s.turn % 2 = 1) → u.owed = none → u.keep = List.replicate (q.w * q.l) true → u.bytes.length = q.w * q.l → 0 < q.w → x.bad = [] → s.memoriesWf →
      ∀ off : Nat → Nat, (∀ e < q.elems, (q.addr e).toNat = aliasBase + off e ∧ off e + q.w ≤ scratchSize
        ∧ (q.addr e).toNat % 0x10000 + q.w ≤ 0x10000) →
      let js := (List.range q.l).filter (fun j => decide (u.t * q.l + j < q.elems))
      let part := fun (j : Nat) => (u.bytes.drop (j * q.w)).take q.w
      (s.turn % 2 = 1 → exec (.streamWrite h p) s = .next (s.setHart h (port { q with
        pend := rest, done := q.done + 1
        later := q.later ++ js.map (fun j => ⟨u.t, u.t * q.l + j, [(.scratch t (off (u.t * q.l + j)), q.w)], part j, List.replicate q.w true⟩) }))) ∧
      (s.turn % 2 = 0 → ∃ v, exec (.streamWrite h p) s = .next v ∧ v.hart h = port { q with pend := rest, done := q.done + 1 }
        ∧ (∀ l, v.byteAt l = (js.reverse.findSome? (fun j =>
            bytesOf (.scratch t (off (u.t * q.l + j))) q.w (leNat (part j)) l)).getD (s.byteAt l))
        ∧ ∀ g, g ≠ h → v.hart g = s.hart g)) ∧
    (∀ (pre : List Deferred) d post off, q.later = pre ++ d :: post → pre.length = s.turn / 2 % q.later.length → x.enginesOn = true →
      (q.canWrite = false ∨ s.turn % 2 = 0) → d.places = [(.scratch t off, d.bytes.length)] → d.keep = List.replicate d.bytes.length true →
      d.bytes ≠ [] → x.bad = [] → s.memoriesWf →
      ∃ v, exec (.streamWrite h p) s = .next v ∧ v.hart h = port { q with later := pre ++ post }
        ∧ (∀ l, v.byteAt l = (bytesOf (.scratch t off) d.bytes.length (leNat d.bytes) l).getD (s.byteAt l))
        ∧ ∀ g, g ≠ h → v.hart g = s.hart g) ∧
    (∀ i : RingNo, q.aux = i.val → x.enginesOn = true → q.cfg = true → q.mode = .ring → q.fault = false → q.wait = false → q.eos = false →
      let r := x.rings[i]
      r.cfg ≠ 0 → r.held < r.count → 0 < q.w → 0 < r.tbytes → s.memoriesWf → s.writeBad (.scratch t (r.slot r.tail)) r.tbytes = false →
      ∀ b : Nat → List Byte, (∀ e < q.elems, s.engineRead (.port h p) q.sys q.since (q.addr e) q.w = (.ok (b e), s) ∧ (b e).length = q.w) →
      let at' := fun (k : Nat) => if k < q.elems * q.w then (b (k / q.w)).getD (k % q.w) 0 else q.fillByte (k % q.w)
      ∃ v, exec (.ringTileAdvance h p) s = .next v
        ∧ v.bytesAt (.scratch t (r.slot r.tail)) r.tbytes = (List.range r.tbytes).map (fun k => at' (q.done * r.tbytes + k))
        ∧ (v.tile t).rings = x.rings.set i { r with tail := r.tail + 1 }
        ∧ v.hart h = port { q with done := q.done + 1, eos := decide (q.elems * q.w ≤ (q.done + 1) * r.tbytes) }
        ∧ v.mem = s.mem ∧ (∀ i, ¬ (r.slot r.tail ≤ i ∧ i < r.slot r.tail + r.tbytes) → v.byteAt (.scratch t i) = s.byteAt (.scratch t i))
        ∧ (∀ u, u ≠ t → v.tile u = s.tile u) ∧ ∀ g, g ≠ h → v.hart g = s.hart g) ∧
    (q.close = true → q.wait = false → exec (.streamCloseDone h p) s
      = .next ((s.setTile t { x with locks := x.locks.filter (fun l => !(l.owner == .port h p && l.id == 0)) }).setHart h
          (port { q with close := false })))

/-- R203, R205, R206, R207, R209, R210: the copy words on the channel of the moving tile or core; CPYGO takes its parameters from the
shadow registers, or from the 64 bytes of a layout record that it can read. It takes its ID first, and with the ID taken holds while the table of
range locks has no room. -/
def Sys2Proof.Claims.CopyWords : Prop :=
  ∀ (s : State), s.ready → ∀ (c : ChanNo) (a b d : XReg) (f : CpyField) (p : CopyParams) (l : Loc),
    let u := if isT s.cur = true then tileOf s.cur else 512 + gcoreOf s.cur
    let x := s.chan u c
    let w := s.rx a
    let num := fun (lo n : Nat) => BitVec.ofNat 64 (leNat (((s.bytesAt l 64).drop lo).take n))
    let t := tileOf s.cur
    let n := s.pkgnum
    let locks : List Lock := if isT s.cur = false ∨ p.empty = true then [] else
      (if p.srcRemote n = true then [] else [⟨(p.srcBox t).1, (p.srcBox t).2, false, .chan u c, x.nextId⟩])
        ++ (if p.dstRemote n = true then [] else [⟨(p.dstBox t).1, (p.dstBox t).2, true, .chan u c, x.nextId⟩])
    let s1 := if locks = [] then s else s.setMyTile { s.myTile with locks := s.myTile.locks ++ locks }
    let stat := fun (k : CpySel) (v : Word) => Gives s (.x d v) 1 (exec (.cpystat d c k) s)
    (∃ sh : CopyParams, Runs (exec (.cpyset c a f) s) (s.setChan u c { x with shadow := sh }) s.me
      ∧ ∀ i : Fin 10, sh[i] = if i.val = f.code then w else x.shadow[i]) ∧
    Runs (exec (.cpysetClrerr c) s) (s.setChan u c { x with cerrId := 0, cerrSt := 0, cerrVa := 0 }) s.me ∧
    ((isT s.cur = true → s.myTile.dbgctl.getLsbD 0 = false) → s.me.cpygo = none →
      ((b = 0 ∧ p = x.shadow) ∨ (b ≠ 0 ∧ s.reaches .load (s.rx b) 64 64 l ∧ l.isMemory ∧ s.readBad l 64 = false
        ∧ p = #v[num 0 8, num 8 8, num 48 4, num 16 8, num 24 8, num 52 4, num 32 8, num 40 8, num 56 4, num 60 4])) →
      (∀ y ∈ x.live, y.hart = s.cur → y.handed = true) →
      let go := exec (.cpygo d b c) s
      let id := x.nextId
      let new : Xfer := { id := id, p := p, hart := s.cur, sys := s.me.priv != .user, handed := false }
      (p.bad = true → Traps go s 0x21 (BitVec.ofNat 64 (32 + 256 * c.val))) ∧
      (p.bad = false → s.copyBarred p = false → 8 ≤ x.live.length → Waits go s { s.me with cpygo := some p }) ∧
      (p.bad = false → s.copyBarred p = false → x.live.length < 8 →
        (isT s.cur = true → s.myTile.locks.length + locks.length ≤ 16) →
        (p.empty = true → Runs go (s.setChan u c { x with nextId := id + 1 })
          { s.withResult (.x d (BitVec.ofNat 64 id)) 1 false with latch := true }) ∧
        (p.empty = false → Runs go
          (s1.setChan u c { x with nextId := id + 1, live := x.live ++ [{ new with handed := true, since := s.dtime }] })
          (s.withResult (.x d (BitVec.ofNat 64 id)) 1 false))) ∧
      (p.bad = false → s.copyBarred p = false → x.live.length < 8 → p.empty = false → isT s.cur = true →
        16 < s.myTile.locks.length + locks.length →
        Waits go (s.setChan u c { x with nextId := id + 1, live := x.live ++ [new] }) { s.me with cpygo := some p })) ∧
    (∀ (pre : List Xfer) y post, x.live = pre ++ y :: post → y.hart = s.cur → y.handed = false → y.p = p → p.empty = false →
      (∀ z ∈ pre, z.hart = s.cur → z.handed = true) → (∀ z ∈ pre ++ post, z.id ≠ y.id) → s.me.cpygo = some p →
      (isT s.cur = true → s.myTile.dbgctl.getLsbD 0 = false) →
      let locks := locks.map (fun k => { k with id := y.id })
      (isT s.cur = true → s.myTile.locks.length + locks.length ≤ 16) →
      Runs (exec (.cpygo d b c) s)
        ((if locks = [] then s else s.setMyTile { s.myTile with locks := s.myTile.locks ++ locks }).setChan u c
          { x with live := pre ++ { y with handed := true, since := s.dtime } :: post })
        (s.withResult (.x d (BitVec.ofNat 64 y.id)) 1 false)) ∧
    ((if x.live = [] then w.toNat < x.nextId else ∀ y ∈ x.live, w.toNat < y.id) → Runs (exec (.cpywait c a) s) s s.me) ∧
    (¬ (if x.live = [] then w.toNat < x.nextId else ∀ y ∈ x.live, w.toNat < y.id) → Waits (exec (.cpywait c a) s) s s.me) ∧
    (∀ k, ((x.live = [] ∧ k = x.nextId) ∨ (∃ y ∈ x.live, y.id = k ∧ ∀ z ∈ x.live, k ≤ z.id)) → stat .cdone (BitVec.ofNat 64 k)) ∧
    stat .nextid (BitVec.ofNat 64 x.nextId) ∧ stat .cerrid (BitVec.ofNat 64 x.cerrId) ∧
    stat .cerrst (BitVec.ofNat 64 x.cerrSt.toNat) ∧ stat .cerrva x.cerrVa

/-- R206, R207, R208, R210, R211: transfers of a channel start in the order of their IDs, once their CPYGO has handed them over, with ORDER only when no lower one is left, and one to
or from another package asks that package; a row between disjoint places of the tile's own scratchpad is copied whole, its locks go and
the latch of its strand is set. When another package answers a cause, PERM, WAYBILL, RECALLED and DATAERR end the transfer with it and
PAGE stalls it; an answer that is none of these stands for a package out of reach, 0xFF; the error registers hold the lowest ID, its
cause and an address of a byte not yet written (how far the transfer came is a free value, log 102). -/
def Sys2Proof.Claims.CopyTransfers : Prop :=
  ∀ (s : State) (u : Nat) (c : ChanNo), s.power = .on → (u < 512 → (s.tile u).enginesOn = true) →
    let ch := s.chan u c
    (∀ pre x post, ch.live = pre ++ x :: post → (∀ y ∈ pre, y.started = true) → x.started = false →
      (x.handed = false → exec (.copyTransferStart u c) s = .next s) ∧ (x.handed = true →
      (∀ y ∈ pre ++ post, y.id ≠ x.id) →
      (x.p.ordered = true → (∃ y ∈ pre ++ post, y.id < x.id) → exec (.copyTransferStart u c) s = .next s) ∧
      ((x.p.ordered = true → ∀ y ∈ pre ++ post, x.id < y.id) →
        let n := s.pkgnum
        let ctx := (s.engineCtx (.chan u c)).getD 0
        exec (.copyTransferStart u c) s = .next ({ s with linkOut := s.linkOut ++
            (if x.p.dstRemote n = true then [LinkMsg.copy x.p.dstPkg ctx x.p]
             else if x.p.srcRemote n = true then [LinkMsg.read x.p.srcPkg ctx x.p] else []) }.setChan u c
          { ch with live := pre ++ { x with started := true } :: post })))) ∧
    (∀ (x : Xfer) (a b : Nat), u < 512 → ch.live.find? (fun y => y.id == x.id && y.started && !y.wait) = some x →
      x.row = 0 → x.off = 0 → x.p.cnt1 = 1 → x.p.cnt2 = 1 → x.p.srcRemote s.pkgnum = false → x.p.dstRemote s.pkgnum = false →
      let n := x.p.len0
      x.p.src.toNat = aliasBase + a → x.p.dst.toNat = aliasBase + b → a + n ≤ scratchSize → b + n ≤ scratchSize →
      (a + n ≤ b ∨ b + n ≤ a) → 0 < n → (s.tile u).bad = [] → s.memoriesWf →
      ∃ t, exec (.copyTransferComplete u c x.id 0) s = .next t
        ∧ t.bytesAt (.scratch u b) n = s.bytesAt (.scratch u a) n
        ∧ (∀ i, ¬ (b ≤ i ∧ i < b + n) → t.byteAt (.scratch u i) = s.byteAt (.scratch u i))
        ∧ (t.tile u).locks = (s.tile u).locks.filter (fun l => !(l.owner == .chan u c && l.id == x.id))
        ∧ t.chan u c = { ch with live := ch.live.filter (fun y => y.id != x.id) }
        ∧ t.hart x.hart = { s.hart x.hart with latch := true } ∧ t.mem = s.mem) ∧
    (∀ (x : Xfer) (a r : Nat), u < 512 → ch.live.find? (fun y => y.id == x.id && y.started && !y.wait) = some x →
      x.row = 0 → x.off = 0 → x.p.cnt1 = 1 → x.p.cnt2 = 1 → x.p.srcRemote s.pkgnum = false → x.p.dstRemote s.pkgnum = true →
      x.p.src.toNat = aliasBase + a → a + x.p.len0 ≤ scratchSize → 0 < x.p.len0 → (s.tile u).bad = [] → r ≠ 0 →
      ∃ t, exec (.copyTransferComplete u c x.id r) s = .next t ∧ (∀ l, t.byteAt l = s.byteAt l ∨ r = 0x10) ∧
        if r = 0x10 then (∃ y ∈ (t.chan u c).live, y.id = x.id ∧ y.wait = true) ∨
          ((∀ y ∈ (t.chan u c).live, y.id ≠ x.id) ∧ ((ch.cerrId = 0 ∨ x.id < ch.cerrId) → (t.chan u c).cerrSt = 0x10))
        else ∃ off < x.p.len0, t.chan u c = { ch with
            live := ch.live.filter (fun y => y.id != x.id)
            cerrId := if ch.cerrId = 0 ∨ x.id < ch.cerrId then x.id else ch.cerrId
            cerrSt := if ch.cerrId = 0 ∨ x.id < ch.cerrId then (if 0x11 ≤ r ∧ r ≤ 0x14 then BitVec.ofNat 8 r else 0xFF) else ch.cerrSt
            cerrVa := if ch.cerrId = 0 ∨ x.id < ch.cerrId then x.p.dst + BitVec.ofNat 64 off else ch.cerrVa }
          ∧ (t.hart x.hart).latch = true)

/-- Copy words and the transfers of the copy channels: CopyWords, CopyTransfers. -/
def Obligations.Copies : Prop :=
  Claims.CopyWords ∧ Claims.CopyTransfers

/-- R22, R212, R213, R214, R215, R333, R399: PUTQ takes its payload and is owed a status; messages of a tile, or of a core, to one queue or inbox,
whatever it is called, keep their order, one of a strand whose context is switched out waits unless it goes to an inbox with room (log 80),
and one for a tile waits for a chain message of its tile to the same one that left before it (log 133);
of the others turn = 0 chooses the oldest (log 53). A message that may be delivered reaches an inbox with room, or
finds it full, or is refused for a bad target; or it fills the slot at TAIL of a queue of this package and advances TAIL, with no other byte
written, or finds the queue full or its SLOTS no power of two from 2 to 2^20, with nothing written; one for another package leaves and has one of the statuses that R214 lists; its status
lands in xd. What another package answers is free, and nothing leaves where it is out of reach (log 14). -/
def Sys2Proof.Claims.QueueWords : Prop :=
  (∀ (s : State), s.ready → ∀ (d a b : XReg) (len : Fin 64) (l : Loc),
    let n := len.val + 1
    let va := s.rx a
    let v := s.rx b
    let t := tileOf s.cur
    let m : PutqMsg :=
      { target := v, payload := s.bytesAt l n, hart := s.cur, ctx := (s.ctxOf s.cur).getD 0, priv := s.me.priv, order := s.me.issued }
    (isT s.cur = true → s.myTile.dbgctl.getLsbD 0 = false ∧ inAlias va.toNat ∧ inAlias (va.toNat + n - 1)
      ∧ ∀ u, Target.phaseTile v t s.pkgnum = some u → s.phaseBars t u = false) →
    s.reaches .load va n 1 l → l.isMemory → s.readBad l n = false →
      Runs (exec (.putq d a b len) s) { s with putqs := s.putqs ++ [m] }
        { s.me with flight := s.me.flight ++ [{ due := none, land := .x d 0, wait := true, org := s.origin }] }) ∧
  (∀ (s : State), s.readyT → s.myTile.dbgctl.getLsbD 0 = false → ∀ (d a b : XReg) (len : Fin 64),
    ¬ inAlias (s.rx a).toNat → Traps (exec (.putq d a b len) s) s 0x11 (s.rx a)) ∧
  (∀ (s : State) (m : PutqMsg) (rest : List PutqMsg) (f : InFlight) (d : XReg) (w : Word), s.power = .on → s.turn = 0 → s.putqs = m :: rest →
    s.sided m = false → s.behindChain m = false → (s.hart m.hart).flight.find? (fun g => g.org.order == m.order && g.due.isNone) = some f → f.land = .x d w →
    let u := m.target.toNat % 512
    let lands := fun (t : State) (st : Word) => t.putqs = rest
      ∧ (d ≠ 0 → (t.hart m.hart).x[d] = st)
      ∧ (t.hart m.hart).flight = (s.hart m.hart).flight.filter (fun g => !(g.org.order == m.order && g.due.isNone))
    (m.target.getLsbD 63 = true → ∃ t, exec (.putqDelivery 0) s = .next t ∧ lands t 0x11 ∧ t.tiles = s.tiles ∧ t.mem = s.mem) ∧
    (m.target.getLsbD 63 = false → m.target.getLsbD 61 = true → m.target.toNat / 2 ^ 48 % 2 ^ 13 ≠ s.pkgnum → ∀ r,
      ∃ t, exec (.putqDelivery r) s = .next t ∧ t.tiles = s.tiles ∧ t.mem = s.mem ∧
        (if r = 0 ∨ r = 1 ∨ r = 2 ∨ (0x10 ≤ r ∧ r ≤ 0x14) ∨ r = 0x17 then lands t (BitVec.ofNat 64 r)
            ∧ t.linkOut = s.linkOut ++ [.putq (m.target.toNat / 2 ^ 48 % 2 ^ 13) m.ctx m.target m.payload]
         else lands t 0xFF ∧ t.linkOut = s.linkOut)) ∧
    (m.target.getLsbD 63 = false → m.target.getLsbD 61 = false → m.target.getLsbD 62 = true → isT m.hart = true →
      s.away m.ctx u = false → (u = tileOf m.hart ∨ (s.lost u = false ∧ s.together (tileOf m.hart) u = true)) →
      (8 ≤ (s.tile u).inbox.length → ∃ t, exec (.putqDelivery 0) s = .next t ∧ lands t 1 ∧ t.tiles = s.tiles) ∧
      ((s.tile u).inbox.length < 8 → ∃ t, exec (.putqDelivery 0) s = .next t ∧ lands t 0
        ∧ (t.tile u).inbox = (s.tile u).inbox ++ [m.payload ++ List.replicate (64 - m.payload.length) 0]
        ∧ ∀ i < 4, (t.hart (4 * u + i)).latch = true)) ∧
    (∀ (lh ls : Loc), m.target.getLsbD 63 = false → m.target.getLsbD 61 = false → m.target.getLsbD 62 = false → m.payload.length ≤ 64 → s.memoriesWf →
      let rq := s.requester m.hart m.priv
      let place := fun (va : Nat) (l : Loc) =>
        va % 64 = 0 ∧ l.addr % 64 = 0 ∧
          ((isT m.hart = true ∧ ∃ off, va = aliasBase + off ∧ off + 64 ≤ scratchSize ∧ l = .scratch (tileOf m.hart) off)
          ∨ (isT m.hart = true ∧ ∃ v off, v < 512 ∧ off + 64 ≤ scratchSize ∧ va = windowBase + v * 0x100000 + off ∧ l = .scratch v off
              ∧ (v = tileOf m.hart ∨ (s.lost v = false ∧ s.together (tileOf m.hart) v = true)))
          ∨ ((isT m.hart = true → ¬ inAlias va ∧ ¬ inWindow va) ∧ ∃ pa, s.deviceAt rq (BitVec.ofNat 64 va) .store 64 pa ∧ va < 2 ^ 48 ∧ l = .phys pa))
      let b := s.bytesAt lh 64
      let num := fun (lo n : Nat) => leNat ((b.drop lo).take n)
      let slots := num 8 4
      let head := num 16 8
      let tail := num 24 8
      place (m.target.toNat % 2 ^ 48 / 64 * 64) lh → s.readBad lh 64 = false →
      ((¬ ∃ k, 1 ≤ k ∧ k ≤ 20 ∧ slots = 2 ^ k) → ∃ t, exec (.putqDelivery 0) s = .next t ∧ lands t 0x11 ∧ t.tiles = s.tiles ∧ t.mem = s.mem) ∧
      ((∃ k, 1 ≤ k ∧ k ≤ 20 ∧ slots = 2 ^ k) → place (num 0 8 + tail % slots * 64) ls → ls ≠ lh →
        (slots + head ≤ tail → ∃ t, exec (.putqDelivery 0) s = .next t ∧ lands t 1 ∧ t.tiles = s.tiles ∧ t.mem = s.mem) ∧
        (tail < slots + head → ∃ t, exec (.putqDelivery 0) s = .next t ∧ lands t 0
          ∧ t.bytesAt ls 64 = m.payload ++ List.replicate (64 - m.payload.length) 0
          ∧ t.bytesAt lh 64 = b.take 24 ++ leBytes 8 ((tail + 1) % 2 ^ 64) ++ b.drop 32
          ∧ ∀ l, ls.offsetIn 64 l = none → lh.offsetIn 64 l = none → t.byteAt l = s.byteAt l)))) ∧
  (∀ (s : State) (r : Nat), s.power = .on → (∀ m ∈ s.putqs, s.sided m = true ∨ s.behindChain m = true) → exec (.putqDelivery r) s = .next s) ∧
  (∀ (s t : State) (r : Nat), s.power = .on → exec (.putqDelivery r) s = .next t →
    let moves := fun (m : PutqMsg) => s.sided m = false ∧ s.behindChain m = false
    (∃ m ∈ s.putqs, moves m) →
    ∃ pre m post, s.putqs = pre ++ m :: post ∧ t.putqs = pre ++ post ∧ moves m ∧ ∀ n ∈ pre, moves n →
      (n.hart = m.hart ∨ (isT n.hart = true ∧ isT m.hart = true ∧ tileOf n.hart = tileOf m.hart)) → s.goal n ≠ s.goal m) ∧
  (∀ (s : State) (m : PutqMsg), m.target.getLsbD 63 = false →
    let v := m.target.toNat
    let off := v % 2 ^ 48 / 64 * 64
    (m.target.getLsbD 61 = false ∨ v / 2 ^ 48 % 2 ^ 13 = s.pkgnum →
      (m.target.getLsbD 62 = true → s.goal m = .inbox (v % 512)) ∧
      (m.target.getLsbD 62 = false → isT m.hart = true →
        (∀ o, off = aliasBase + o → o < scratchSize → s.goal m = .queue (.scratch (tileOf m.hart) o)) ∧
        ∀ u o, u < 512 → o < scratchSize → off = windowBase + u * 0x100000 + o → s.goal m = .queue (.scratch u o))) ∧
    (m.target.getLsbD 61 = true → v / 2 ^ 48 % 2 ^ 13 ≠ s.pkgnum →
      ∃ i n, s.goal m = .remote (v / 2 ^ 48 % 2 ^ 13) i n))

/-- R204, R218, R338: an arrival over a link without an entry of the inbound context table is refused: a copy piece, a source read and a PUTQ are
answered PERM, and a SIGS or SIGW is dropped (log 101); a PUTQ for the inbox of a tile of its context is put there and answered 0, or FULL. A PAGE in an engine stalls its port until
the replay, whose argument is the kernel's answer (log 17) and which clears the stall or faults the port. -/
def Sys2Proof.Claims.LinkArrivalsAndReplay : Prop :=
  ∀ (s : State), s.power = .on →
    (∀ (kind : LinkKind) (spkg sctx : Nat) (addr : Word) (data : List Byte),
      (s.inbound spkg sctx = none →
        (kind = .copyPiece ∨ (∃ n, kind = .sourceRead n) ∨ kind = .putqQueue ∨ kind = .putqInbox →
          exec (.chipLinkArrival kind spkg sctx addr data) s = .next { s with linkOut := s.linkOut ++ [.status spkg 0x11 []] }) ∧
        ((∃ b, kind = .sigs b) ∨ (∃ h b, kind = .sigw h b) → exec (.chipLinkArrival kind spkg sctx addr data) s = .next s)) ∧
      (∀ c, s.inbound spkg sctx = some c →
        let u := addr.toNat % 512
        s.absent c u = false → s.lost u = false → (s.tile u).ctx = c → data.length ≤ 64 →
        ((s.tile u).inbox.length < 8 → ∃ t, exec (.chipLinkArrival .putqInbox spkg sctx addr data) s = .next t
          ∧ (t.tile u).inbox = (s.tile u).inbox ++ [data ++ List.replicate (64 - data.length) 0]
          ∧ (∀ i < 4, (t.hart (4 * u + i)).latch = true) ∧ t.mem = s.mem ∧ t.linkOut = s.linkOut ++ [.status spkg 0 []]) ∧
        (8 ≤ (s.tile u).inbox.length → exec (.chipLinkArrival .putqInbox spkg sctx addr data) s
          = .next { s with linkOut := s.linkOut ++ [.status spkg 1 []] }))) ∧
    (∀ (h : Nat) (p : PortNo),
      let q := (s.hart h).ports[p]
      (q.wait = true →
        exec (.engineReplay (.port h p) false) s
          = .next (s.setHart h { s.hart h with ports := (s.hart h).ports.set p { q with wait := false } }) ∧
        (q.cfg = true → exec (.engineReplay (.port h p) true) s
          = .next (s.setHart h { s.hart h with ports := (s.hart h).ports.set p { q with fault := true, wait := false, fsub := 0x10 } }))) ∧
      (let e := q.done * q.l
       (s.tile (tileOf h)).enginesOn = true → q.cfg = true → q.write = false → q.mode = .affine → q.fault = false → q.wait = false →
       q.close = false → 0 < q.l → s.stagingRoom h q = true → q.done < q.transfers →
       s.engineRead (.port h p) q.sys q.since (q.addr e) q.w = (.error 0x10, s) →
       (s.engineRecord (.port h p) false 0 e [q.ctr0 e, q.ctr1 e, q.ctr2 e, q.ctr3 e] (q.addr e)).1 = none →
       ∃ t, exec (.enginePageFault (.port h p)) s = .next t
         ∧ ((t.hart h).ports[p]).wait = true ∧ ((t.hart h).ports[p]).fidx = e ∧ ((t.hart h).ports[p]).fva = q.addr e))

/-- PUTQ, deliveries, arrivals over the chip links and replays (the model's choices: logs 14, 17, 53, 80, 101 and 133): QueueWords, LinkArrivalsAndReplay. -/
def Obligations.QueuesAndLinks : Prop :=
  Claims.QueueWords ∧ Claims.LinkArrivalsAndReplay

/-! ## Barriers, consists, tasks, signals, handles -/

/-- R258, R260, R261, R255: BAR and PHASE record the strand's next arrival and give its number, unless two are pending; a phase of the
tile closes with its arrival. BARW waits for its generation. A level of size 0 has no barrier. -/
def Sys2Proof.Claims.BarrierArrivals : Prop :=
  ∀ (s : State), s.readyT → ∀ (d a : XReg) (lv : Level),
    let x := s.myTile
    let l := lv.idx
    let size := match lv with | .group => x.gsize | .domain => x.dsize | _ => 1
    let n := s.me.arrivals[l] + 1
    let free := (x.gen[l] - (n - 2)).toNat < 2 ^ 31
    let arrives := fun (phase : Bool) (o : Out) => ∃ s' : State,
      s' = { s with tiles := s'.tiles } ∧ (∀ u, u ≠ tileOf s.cur → s'.tile u = s.tile u)
      ∧ s'.myTile = { x with marks := if phase = true then x.marks.set l (x.marks[l] ++ [n]) else x.marks, dommem := s'.myTile.dommem }
      ∧ (∀ i, s'.myTile.dommem.getLsbD i = x.dommem.getLsbD i ∨ (53 ≤ i ∧ i < 57 ∧ s'.myTile.dommem.getLsbD i = false))
      ∧ ((∀ i : Fin 4, x.runs i = true ↔ i = strandOf s.cur) → n = x.gen[l] + 1 → s'.myTile.dommem.getLsbD (53 + l.val) = false)
      ∧ Runs o s' { s.withResult (.x d (BitVec.ofNat 64 n.toNat)) 1 false with arrivals := s.me.arrivals.set l n }
    (size = 0 → Traps (exec (.bar d lv) s) s 0x01 s.wordTval ∧ Traps (exec (.phase d lv) s) s 0x01 s.wordTval
      ∧ Traps (exec (.barw a lv) s) s 0x01 s.wordTval) ∧
    (size ≠ 0 → free → arrives false (exec (.bar d lv) s) ∧ arrives true (exec (.phase d lv) s)) ∧
    (size ≠ 0 → ¬ free → Waits (exec (.bar d lv) s) s s.me ∧ Waits (exec (.phase d lv) s) s s.me) ∧
    (size ≠ 0 → (x.gen[l] - BitVec.ofNat 32 (s.rx a).toNat).toNat < 2 ^ 31 → Runs (exec (.barw a lv) s) s s.me) ∧
    (size ≠ 0 → ¬ (x.gen[l] - BitVec.ofNat 32 (s.rx a).toNat).toNat < 2 ^ 31 → Waits (exec (.barw a lv) s) s s.me)

/-- R255, R256: a generation completes on every member when every member has arrived, with the kind that its arrivals ask for, and sets
the members' event latches; while one has not arrived, or is stopped or kept in an image of a gang switch, nothing changes (the model's
choice, log 70). A member whose part of the launch has ended has arrived for every later generation, and its tile, which may run something
else, stays as it was. -/
def Sys2Proof.Claims.BarrierCompletes : Prop :=
  ∀ (s : State), s.power = .on → ∀ (t : Nat) (lv : Level),
    let l := lv.idx
    let ms := s.members t lv
    let n := (s.tile t).gen[l] + 1
    let mine := (s.tile t).launch
    let imaged := fun (u : Nat) => mine ≠ none ∧ ∃ i ∈ s.images, i.tile = u ∧ i.st.launch = mine
    let here := fun (u : Nat) => (s.tile u).launch = mine ∧ ¬ imaged u ∧ (s.tile u).presence ≠ .stopped ∧ (s.tile u).presence ≠ .absent
    let ended := fun (u : Nat) => (s.tile u).launch ≠ mine ∧ ¬ imaged u
    let own := ∃ u ∈ ms, here u ∧ ∃ i < 4, ((s.hart (4 * u + i)).arrivals[l] - n).toNat < 2 ^ 31
    ((∃ u ∈ ms, ¬ ended u ∧ (here u → s.tileArrived u l n = false)) → exec (.barrierCompletion t lv) s = .next s) ∧
    (own → (∀ u ∈ ms, ended u ∨ (here u ∧ s.tileArrived u l n = true)) → ∃ v, exec (.barrierCompletion t lv) s = .next v
      ∧ (∀ u ∈ ms, here u → (v.tile u).gen[l] = n ∧ (∀ i < 4, (v.hart (4 * u + i)).latch = true)
        ∧ (s.tileArrived u l (n + 1) = false →
            ((v.tile u).dommem.getLsbD (53 + l.val) = true ↔ ∃ w ∈ ms, here w ∧ n ∈ (s.tile w).marks[l])))
      ∧ (∀ u, (u ∉ ms ∨ ¬ here u) → v.tile u = s.tile u) ∧ v.mem = s.mem)

/-- Barrier arrivals, waits and completions: BarrierArrivals, BarrierCompletes. -/
def Obligations.Barriers : Prop :=
  Claims.BarrierArrivals ∧ Claims.BarrierCompletes

/-- R263, R264, R266, R267: COUPLE traps with its subcode, the lowest where several hold (the model's choice, log 50), or waits; a tile that
waits with another value and names this one traps too; when every member waits with the value the consist forms, and the COUPLE ends,
also when it is issued again after an entry (log 50); UNCOUPLE leaves it, and outside one does nothing; ERET of a member waits, and the
consist resumes when every member waits in ERET, or in a HALT that it has issued (log 39), or in an SCALL that KICK_RESTART has it issue
again (log 86), each with the cycles that were still before it. -/
def Obligations.Consists : Prop :=
  (∀ (s : State), s.readyT → ∀ (a : XReg),
    let t := tileOf s.cur
    let x := s.tile t
    let v := s.rx a
    let lead := v.toNat % 512
    let size := v.toNat / 512 % 16 + 1
    let formed := s.me.coupled = true ∧ s.me.couple.map (·.1) = some s.me.pc
    (formed → Runs (exec (.couple a) s) s { s.me with coupled := false, couple := none }) ∧
    (¬ formed → (x.shared = true ∨ x.dsize = 0) → Traps (exec (.couple a) s) s 0x60 1) ∧
    (¬ formed → x.shared = false → x.dsize ≠ 0 →
      let misfit := 2 ^ 13 ≤ v.toNat ∨ size = 1 ∨ 15 < lead % 16 + (size - 1) ∨ t < lead ∨ lead + size ≤ t
        ∨ ∃ j < size, lead + j ∉ s.members t .domain
      let other := fun (u : Nat) (w : Word) => u ∈ s.members t .domain ∧ u ≠ t ∧ (s.hart (4 * u)).coupling = some w ∧ w ≠ v
      let names := fun (w : Word) (u : Nat) => w.toNat % 512 ≤ u ∧ u < w.toNat % 512 + w.toNat / 512 % 16 + 1
      (misfit → Traps (exec (.couple a) s) s 0x60 2) ∧
      (¬ misfit → 1 < x.csize → Traps (exec (.couple a) s) s 0x60 3) ∧
      (¬ misfit → x.csize ≤ 1 →
        ((∃ u w, other u w ∧ names v u) → (∀ u w, other u w → ¬ names w t) → Traps (exec (.couple a) s) s 0x60 4) ∧
        (∀ u w, other u w → names w t → (∀ u' w', other u' w' → names w' t → u' = u) → (s.members t .domain).Nodup →
          (s.hart (4 * u)).priv = .user → (s.tile u).csize ≤ 1 → ∃ y, exec (.couple a) s = .next y
            ∧ Entered (s.hart (4 * u)) (y.hart (4 * u)) (s.tvecOf (4 * u)) 0x60 0x60 4 0xFFFF false false 0) ∧
        ((∀ u w, other u w → ¬ names v u ∧ ¬ names w t) →
          ((∃ j < size, lead + j ≠ t ∧ (s.hart (4 * (lead + j))).coupling ≠ some v) →
            Waits (exec (.couple a) s) s { s.me with coupling := some v, coupled := false }) ∧
          (s.cur = 4 * t → (∀ j < size, lead + j ≠ t → (s.hart (4 * (lead + j))).coupling = some v) →
            ∃ y, exec (.couple a) s = .next y ∧ y.mem = s.mem ∧ Issued
                { s.me with arrivals := s.me.arrivals.set 1 0, coupling := none, coupled := true } (y.hart s.cur)
              ∧ ∀ j < size, (y.tile (lead + j)).cpos = j ∧ (y.tile (lead + j)).csize = size ∧ (y.tile (lead + j)).gen[1] = 0
                ∧ (y.tile (lead + j)).line.length = j)))) ∧
    (x.csize ≤ 1 → Runs (exec .uncouple s) s s.me) ∧
    (1 < x.csize → ∃ u, exec .uncouple s = .next u ∧ (u.tile t).cpos = 0 ∧ (u.tile t).csize = 1 ∧ (u.tile t).gen[1] = 0
      ∧ (u.tile t).dommem.getLsbD 54 = false ∧ (∀ i < 4, (u.hart (4 * t + i)).arrivals[1] = 0 ∧ (u.hart (4 * t + i)).rest = 0) ∧ u.mem = s.mem
      ∧ (∀ w, w ≠ t → u.tile w = s.tile w))) ∧
  (∀ (s : State), s.power = .on → ∀ (t : Nat) (v : Word),
    let lead := v.toNat % 512
    let size := v.toNat / 512 % 16 + 1
    (s.hart (4 * t)).coupling = some v →
    ((∃ j < size, (s.hart (4 * (lead + j))).coupling ≠ some v) → exec (.consistForm t) s = .next s) ∧
    ((∀ j < size, (s.hart (4 * (lead + j))).coupling = some v) → ∃ u, exec (.consistForm t) s = .next u
      ∧ (∀ j < size, (u.tile (lead + j)).cpos = j ∧ (u.tile (lead + j)).csize = size ∧ (u.tile (lead + j)).gen[1] = 0
          ∧ (u.tile (lead + j)).line.length = j ∧ (u.hart (4 * (lead + j))).coupled = true ∧ (u.hart (4 * (lead + j))).coupling = none)
      ∧ (∀ w, (w < lead ∨ lead + size ≤ w) → u.tile w = s.tile w) ∧ u.mem = s.mem)) ∧
  (∀ (s : State), s.power = .on → ∀ (t : Nat), 1 < (s.tile t).csize →
    let ms := s.members t .consist
    let mine := (s.tile t).launch
    let here := fun (u : Nat) => (s.tile u).launch = mine ∧ ¬ (mine ≠ none ∧ ∃ i ∈ s.images, i.tile = u ∧ i.st.launch = mine)
      ∧ (s.tile u).presence ≠ .stopped ∧ (s.tile u).presence ≠ .absent
    let halts := fun (m : Nat) => (s.hart (4 * m)).run = .halting
    let waits := fun (m : Nat) => here m ∧ ((s.hart (4 * m)).ereting = true ∨ halts m ∨ (s.hart (4 * m)).restarted = true)
    let resumed := fun (u : State) => u.mem = s.mem ∧
      (∀ m ∈ ms, m ≠ t → (s.hart (4 * m)).ereting = false → (s.hart (4 * m)).restarted = false → u.hart (4 * m) = s.hart (4 * m)) ∧
      (∀ m ∈ ms, m ≠ t → (s.hart (4 * m)).ereting = false → (s.hart (4 * m)).restarted = true →
        (u.hart (4 * m)).run = .running ∧ (u.hart (4 * m)).restarted = false ∧ (u.hart (4 * m)).pc = (s.hart (4 * m)).pc
          ∧ (u.hart (4 * m)).bubble = 2) ∧
      (∀ m ∈ ms, (m = t → ¬ halts t) → (m ≠ t → (s.hart (4 * m)).ereting = true) →
        (u.hart (4 * m)).ereting = false
        ∧ (u.hart (4 * m)).pc = (s.hart (4 * m)).tpc &&& 0x0000FFFFFFFFFFF8
        ∧ (u.hart (4 * m)).priv = Priv.ofCode ((s.hart (4 * m)).tstatus.toNat % 4)
        ∧ (u.hart (4 * m)).bubble = if (s.tile m).cpos = 0 then 2 + (s.hart (4 * m)).rest else 2)
    ((∃ m ∈ ms, ¬ waits m) → exec (.consistResume t) s = .next s) ∧
    ((∀ m ∈ ms, waits m) → (halts t ∨ (s.hart (4 * t)).ereting = true) → ∃ u, exec (.consistResume t) s = .next u ∧ resumed u) ∧
    (s.cur = 4 * t → isT s.cur = true → s.me.priv ≠ .user → tsStart s.me = false → s.me.run ≠ .halting →
      ((∃ m ∈ ms, m ≠ t ∧ ¬ waits m) → Waits (exec .eret s) s { s.me with ereting := true }) ∧
      (here t → (∀ m ∈ ms, m ≠ t → waits m) → t ∈ ms → ∃ u, exec .eret s = .next u ∧ resumed u)))

/-- R286: INBX copies the oldest entry of the inbox to the local alias and frees it; an empty inbox, and the checks of its address. -/
def Sys2Proof.Claims.InboxWord : Prop :=
  ∀ (s : State), s.readyT → s.memoriesWf → ∀ (d a : XReg) (poll : Bool),
    let va := s.rx a
    let t := tileOf s.cur
    let x := s.myTile
    let o := exec (.inbx d a poll) s
    (va.toNat % 64 ≠ 0 → Traps o s 0x18 va) ∧
    (va.toNat % 64 = 0 → ¬ inAlias va.toNat → Traps o s 0x11 va) ∧
    (∀ off, va.toNat = aliasBase + off → off < scratchSize → off % 64 = 0 →
      (x.lockBars t va.toNat 64 false = true → Traps o s 0x15 va) ∧
      (x.lockBars t va.toNat 64 false = false →
        (x.inbox = [] → poll = true → GivesV s (.x d (BitVec.allOnes 64)) o) ∧
        (x.inbox = [] → poll = false → Waits o s s.me) ∧
        (∀ e es, x.inbox = e :: es → e.length = 64 → s.writeBad (.scratch t off) 64 = false →
          StoresTo o (s.setMyTile { x with inbox := es }) (s.withResult (.x d (BitVec.ofNat 64 es.length)) 1 true)
            (bytesOf (.scratch t off) 64 (leNat e)))))

/-- R280, R350, R265: JNEXT deals the next chunk of a card, min(rem, max(CMIN, ceil(rem / (2 PART)))), and moves NEXT past it; on a card with
ON set it deals dealt points only, under the screen of its launch, or, where no launch has started with it, under the card's own (log 122);
a follower of a consist delivers its leader's pair. -/
def Sys2Proof.Claims.CardDeals : Prop :=
  ∀ (s : State), s.readyT → s.memoriesWf → ∀ (d a : XReg) (l : Loc),
    let b := s.bytesAt l 64
    let field := fun (lo n : Nat) => leNat ((b.drop lo).take n)
    let n := field 32 8
    let count := field 24 8
    let rem := count - n
    let part := max (field 40 4) 1
    let c := min rem (max (max (field 20 4) 1) ((rem + 2 * part - 1) / (2 * part)))
    let pair := fun (n c : Nat) => (s.withTwo (.x d (BitVec.ofNat 64 n)) (.x (d + 1) (BitVec.ofNat 64 c)))
    let next := fun (v : Nat) (m : Loc) => match l.offsetIn 64 m with
      | some i => if 32 ≤ i ∧ i < 40 then some (BitVec.ofNat 8 (v / 2 ^ (8 * (i - 32)))) else none
      | none => none
    let with' := fun (n c : Nat) => { s with issue := { s.issue with dealt := some (BitVec.ofNat 64 n, BitVec.ofNat 64 c) } }
    ∀ i ∈ [Instr.jnext d a, .jnextCovered d a],
      (s.issue.fwd = none → s.reaches .atomic (s.rx a) 64 64 l → l.isMemory → s.readBad l 64 = false → s.writeBad l 64 = false →
        let covered := s.coveredAt (tileOf s.cur) l.key (s.rx a)
        let deals := fun (p : Nat × Nat × Nat) => StoresTo (exec i s) (with' p.1 p.2.1) (pair p.1 p.2.1) (next p.2.2)
        (covered = none → Card.on b = false → deals (n, c, n + c)) ∧
        (covered = none → Card.on b = true → Card.expo b = 0 → deals (dealCovered b (dealt b (Card.screen b)))) ∧
        (∀ r, covered = some r → deals (dealCovered b (dealt r.card r.screen)))) ∧
      (∀ w n c, s.issue.fwd = some w → w.dealt = some (BitVec.ofNat 64 n, BitVec.ofNat 64 c) → Runs (exec i s) (with' n c) (pair n c))

/-- R282, R287, R288, R383: LARM and GDISP arm an IDLE record of the depot of the bound context, and fail with their codes; one whose
predecessors have all completed early, or more of them than its count, with event 0x0C, becomes READY at once; GJOIN reads the status of a
completed launch; all wait or poll as the manual says. -/
def Sys2Proof.Claims.DepotWords : Prop :=
  ∀ (s : State), s.power = .on → isCore s.cur = true → ∀ (d a : XReg) (poll : Bool),
    let i := (s.rx a).toNat
    let larm := exec (.larm d a) s
    let gdisp := exec (.gdisp d a) s
    let join := exec (.gjoin d a poll) s
    let code := fun (k : Nat) =>
      (isT s.cur = true → GivesV s (.x d (BitVec.ofNat 64 k)) larm) ∧
      (isT s.cur = false → GivesV s (.x d (BitVec.ofNat 64 (2 ^ 63 + k))) gdisp)
    (s.crashed = true → (isT s.cur = true → Waits larm s s.me) ∧ (isT s.cur = false → Waits gdisp s s.me)) ∧
    (s.crashed = false →
      (s.ctxOf s.cur = none → code 0x0A) ∧
      (∀ c, s.ctxOf s.cur = some c →
        ((s.ctx c).valid = false ∨ (s.ctx c).drecs ≤ i → code 0x0A) ∧
        ((s.ctx c).valid = true → i < (s.ctx c).drecs →
          let r := s.depot c i
          let va := (s.ctx c).depot.toNat + 64 * i
          (r.st ≠ .idle → code 0x0B) ∧
          (r.st = .idle → ∀ m, s.hubRead c va 64 = (.ok m, s) →
            let cnt := leNat ((m.drop 6).take 2)
            let bytes := fun (args : List Byte) => r.bytes.take 6 ++ (m.drop 6).take 2 ++ (r.bytes.drop 8).take 24 ++ args
            let armed := fun (r' : DepotRec) => r'.st = .armed ∧ r'.cnt = cnt - r.early ∧ r'.early = 0 ∧ r'.arms = r.arms + 1
              ∧ r'.dones = r.dones ∧ r'.status = r.status
            (r.early < cnt → isT s.cur = true →
              ∃ r', armed r' ∧ r'.bytes = bytes (m.drop 32) ∧ Runs larm (s.setDepot c i r') (s.withResult (.x d 0) 1 true)) ∧
            (cnt ≤ r.early → isT s.cur = true → ∃ r', armed r' ∧ r'.bytes = bytes (m.drop 32) ∧
              let s1 := s.setDepot c i r'
              let s2 := if cnt < r.early then s1.ctxEvent c 0x0C 0 (BitVec.ofNat 64 i) 0 0 else s1
              s2.depot c i = r' → s2.cur = s.cur → s2.recCheck c r'.bytes false = 0 →
                let s3 := { s2.setDepot c i { r' with st := .ready, readyAt := s2.dtime, handoff := none } with
                  launches := put s2.launches s2.nextLaunch
                    { ctx := c, queue := none, record := some i, bytes := r'.bytes, size := Rec.size r'.bytes, readyAt := s2.dtime }
                  nextLaunch := s2.nextLaunch + 1 }
                Runs larm s3 (s3.withResult (.x d 0) 1 true)) ∧
            (r.early < cnt → isT s.cur = false → ∀ s1, s.hubWrite c (va + 32) s.gdispArgs = (none, s1) → s1.cur = s.cur →
              s1.depot c i = r →
              ∃ r', armed r' ∧ Runs gdisp (s1.setDepot c i r')
                ((s1.setDepot c i r').withResult (.x d (BitVec.ofNat 64 (r.arms.toNat * 4096 + i))) 1 true)))))) ∧
    (isT s.cur = false →
      let g := i / 4096
      (∀ c, s.ctxOf s.cur = some c → i % 4096 < (s.ctx c).drecs →
        let r := s.depot c (i % 4096)
        (g < r.dones.toNat → GivesV s (.x d (BitVec.ofNat 64 (r.status.toNat + if g + 1 < r.dones.toNat then 256 else 0))) join) ∧
        (r.dones.toNat ≤ g → poll = true → GivesV s (.x d (BitVec.allOnes 64)) join) ∧
        (r.dones.toNat ≤ g → poll = false → Waits join s s.me)))

/-- INBX, JNEXT, LARM, GDISP and GJOIN: InboxWord, CardDeals, DepotWords. -/
def Obligations.TaskWords : Prop :=
  Claims.InboxWord ∧ Claims.CardDeals ∧ Claims.DepotWords

/-- R131, R292: SCALL claims the slot at the tail of the context's call ring, advances the tail, posts its call record with the token there
and gives the slot's address; 0 with a full ring, or one of no legal size. The model's choices: 0 with no ring, too, and that a slot claimed
by an SCALL that could not write it is the one that it writes when it runs again (log 48), and that RESULT and the other bytes of the slot's
header become 0 (log 111). -/
def Obligations.SupervisorCall : Prop :=
  ∀ (s : State), s.ready → ∀ (d a b : XReg) (l : Loc) (c : Nat),
    let o := exec (.scall d a b) s
    let ring := (s.ctx c).callring
    let token := (s.rx b).toNat % 65536
    let record := leBytes 8 1 ++ leBytes 2 token ++ List.replicate 54 0 ++ s.bytesAt l 64
    let here := s.me.pc + if s.issue.w1 = true then 4 else 0
    s.reaches .load (s.rx a) 64 64 l → l.isMemory → s.readBad l 64 = false → s.ctxOf s.cur = some c →
      ((∀ m, s.me.claim = some m → m.1 ≠ here) →
        ((s.ctx c).valid = false ∨ ring = 0 → GivesV s (.x d 0) o) ∧
        ((s.ctx c).valid = true → ring ≠ 0 → ∀ h, s.hubRead c ring.toNat 64 = (.ok h, s) →
          let field := fun (lo n : Nat) => leNat ((h.drop lo).take n)
          let slots := field 8 4
          let head := field 16 8
          let tail := field 24 8
          let legal := ∃ k, 1 ≤ k ∧ k ≤ 16 ∧ slots = 2 ^ k
          let slot : Word := BitVec.ofNat 64 (field 0 8 + tail % slots * 128)
          (¬ legal ∨ slots + head ≤ tail → GivesV s (.x d 0) o) ∧
          (legal → tail < slots + head → ∀ s1 s2, s.hubWrite c (ring.toNat + 24) (leBytes 8 (tail + 1)) = (none, s1) →
            s1.hubWrite c slot.toNat record = (none, s2) → s1.cur = s.cur → s2.cur = s.cur →
            Runs o s2 { s2.withResult (.x d slot) 1 true with claim := none }))) ∧
      (∀ slot, s.me.claim = some (here, slot) → ∀ s2, s.hubWrite c slot.toNat record = (none, s2) → s2.cur = s.cur →
        Runs o s2 { s2.withResult (.x d slot) 1 true with claim := none })

/-- R289, R290: SIGS stores the new value, and wakes and removes each registration that it reaches, telling another package's strand over the
links; SIGW completes on a value that reaches its target, or registers, and waits unless NOWAIT is set; while it waits it reads nothing, and
a wake gives it the waking value. A descriptor with bit 62 or 63 traps. The model's choices: that a message for another package is left in a
list of the machine, and that the value its home answers is free (log 14); where the waiting strand's side of that registration is kept
(log 101). -/
def Obligations.Signals : Prop :=
  ∀ (s : State), s.ready → s.memoriesWf → ∀ (d a b : XReg) (add nowait : Bool) (l : Loc),
    let g := s.rx a
    let va := g &&& 0x0000FFFFFFFFFFFF
    let old : Word := BitVec.ofNat 64 (leNat (s.bytesAt l 8))
    let new : Word := if add = true then old + s.rx b else s.rx b
    let t := s.rx b
    let sigs := exec (.sigs a b add) s
    let sigw := exec (.sigw d a b nowait) s
    let hit := fun (r : SigReg) => r.pa == l.key && decide (r.target.toNat ≤ new.toNat)
    let mine := fun (r : SigReg) => r.away = none ∧ r.hart = s.cur ∧ r.pa = l.key
    let rest := s.sigs.filter (fun r => !(r.away.isNone && r.hart == s.cur && r.pa == l.key))
    let launch := if isT s.cur = true then s.myTile.launch else none
    let legal := g.getLsbD 62 = false ∧ g.getLsbD 63 = false
    ((g.getLsbD 62 = true ∨ g.getLsbD 63 = true) → Traps sigs s 0x11 g ∧ Traps sigw s 0x11 g) ∧
    (legal → (∀ k w, s.me.wake = some (k, some w) → GivesV s (.x d w) sigw) ∧ (∀ k, s.me.wake = some (k, none) → Waits sigw s s.me)) ∧
    (legal → Target.remote g s.pkgnum = true → s.me.wake = none → ∃ v : Word,
      let k := 2 ^ 64 + g.toNat
      let asked := { s with free := s.free + 1, linkOut := s.linkOut ++ [LinkMsg.sigw (Target.pkg g) ((s.ctxOf s.cur).getD 0) s.cur g t nowait] }
      let others := s.sigsAway.filter (fun r => !(r.hart == s.cur && r.pa == k))
      let new : SigReg := { pa := k, target := t, hart := s.cur, nowait := nowait, launch := launch }
      (t.toNat ≤ v.toNat → Runs sigw { asked with sigsAway := others } (s.withResult (.x d v) 1 true)) ∧
      (v.toNat < t.toNat → nowait = true → Runs sigw { asked with sigsAway := others ++ [new] } (s.withResult (.x d v) 1 true)) ∧
      (v.toNat < t.toNat → nowait = false →
        Waits sigw { asked with sigsAway := others ++ [new] } { s.me with wake := some (k, none) })) ∧
    (legal → Target.remote g s.pkgnum = true →
      Runs sigs { s with linkOut := s.linkOut ++ [.sigs (Target.pkg g) ((s.ctxOf s.cur).getD 0) g (s.rx b) add] } s.me) ∧
    (legal → Target.remote g s.pkgnum = false → l.isMemory → s.readBad l 8 = false →
      (s.reaches .atomic va 8 8 l → s.writeBad l 8 = false →
        ((∀ r ∈ s.sigs, r.pa = l.key → new.toNat < r.target.toNat) → StoresTo sigs s s.me (bytesOf l 8 new.toNat)) ∧
        (∃ u, sigs = .next u ∧ u.sigs = s.sigs.filter (fun r => !hit r)
          ∧ u.linkOut = s.linkOut ++ (s.sigs.filter hit).filterMap (fun r => r.away.map (fun p => LinkMsg.wake p.1 r.hart p.2 new))
          ∧ (∀ m, u.byteAt m = (bytesOf l 8 new.toNat m).getD (s.byteAt m))
          ∧ (∀ r ∈ s.sigs, hit r = true → r.away = none → r.hart < 2 ^ 20 → r.hart ≠ s.cur → (u.hart r.hart).latch = true
            ∧ ((s.hart r.hart).wake = some (r.pa, none) → r.nowait = false → (u.hart r.hart).wake = some (r.pa, some new))))) ∧
      (s.reaches .load va 8 8 l →
        (s.me.wake = none → t.toNat ≤ old.toNat → Runs sigw { s with sigs := rest } (s.withResult (.x d old) 1 true)) ∧
        (s.me.wake = none → old.toNat < t.toNat → (s.sigs.length < 16384 ∨ ∃ r ∈ s.sigs, mine r) →
          (nowait = true → Runs sigw { s with sigs := rest ++ [{ pa := l.key, target := t, hart := s.cur, nowait := true, launch := launch }] } (s.withResult (.x d old) 1 true)) ∧
          (nowait = false → Waits sigw { s with sigs := rest ++ [{ pa := l.key, target := t, hart := s.cur, nowait := false, launch := launch }] } { s.me with wake := some (l.key, none) })) ∧
        (s.me.wake = none → old.toNat < t.toNat → 16384 ≤ s.sigs.length → (∀ r ∈ s.sigs, ¬ mine r) → Waits sigw s s.me)))

/-- R363, R364, R368 to R372: the HANDLE words of a strand or core none of whose posts is under way. For a home on another package HBIND's
status and HQUERY's word are what that package answers: 0, 1 or 2, and 2^63 or a word whose bits [63:57] are 0; a handle of generation 0
is stale. The model's choices: HNEW tests the exponent before the range, with the bad operand in TVAL, and HBIND answers 1 before 2
(log 66); a bind without a context (log 101); that a message for another package is left in a list of the machine, and that its answers are
free (log 14). -/
def Sys2Proof.Claims.HandleWords : Prop :=
  ∀ (s : State), s.ready → (∀ m ∈ s.posts, m.hart ≠ some s.cur) → ∀ (d a b : XReg),
    let die := if isT s.cur = true then tileOf s.cur / 128 else gcoreOf s.cur % 4
    let at' := fun (o : Nat) => die * 16384 + o
    let free := fun (o : Nat) => o < 16384 ∧ (s.slot (at' o)).live = false ∧ ∀ j < o, (s.slot (at' j)).live = true
    let full := ∀ o < 16384, (s.slot (at' o)).live = true
    let gen := fun (o : Nat) => if (s.slot (at' o)).gen + 1 = 0 then (1 : BitVec 29) else (s.slot (at' o)).gen + 1
    let name := fun (o e : Nat) => Handle.make s.pkgnum die o e (gen o)
    let h := s.rx a
    let E := h.toNat / 2 ^ 29 % 64
    let k := h.toNat / 2 ^ 49 % 4 * 16384 + h.toNat / 2 ^ 35 % 16384
    let live := (s.slot k).live = true ∧ (s.slot k).gen = BitVec.ofNat 29 h.toNat
    let home := h.toNat / 2 ^ 51 = s.pkgnum
    let new := exec (.hnew d a b) s
    let copy := exec (.hcopy d a) s
    let drop := exec (.hdrop a) s
    let bind := exec (.hbind d a b) s
    let query := exec (.hquery d a) s
    let e := (s.rx b).toNat
    (48 < e → Traps new s 0x01 (s.rx b)) ∧ (e ≤ 48 → 2 ^ 48 ≤ h.toNat → Traps new s 0x01 h) ∧
    (e ≤ 48 → h.toNat < 2 ^ 48 → full → GivesV s (.x d 0) new) ∧
    (e ≤ 48 → h.toNat < 2 ^ 48 → ∀ o, free o → Runs new
      (s.setSlot (at' o) { gen := gen o, live := true, exp := e, ctx := s.ctxOf s.cur, base := h.toNat / 2 ^ 16 * 2 ^ 16
                           frames := h.toNat % 2 ^ 16 })
      (s.withResult (.x d (name o e)) 1 true)) ∧
    (h = 0 → GivesV s (.x d 0) copy ∧ Gives s (.x a 0) 1 drop) ∧
    (h ≠ 0 → 0 < E → Runs copy s (s.withTwo (.x a (h - 2 ^ 29)) (.x d (h - 2 ^ 29)))) ∧
    (h ≠ 0 → E = 0 → full → Waits copy s s.me) ∧
    (h ≠ 0 → E = 0 → ∀ o, free o → Runs copy
      (s.setSlot (at' o) { gen := gen o, live := true, exp := 32, ctx := s.ctxOf s.cur, proxy := some h })
      (s.withTwo (.x a (name o 31)) (.x d (name o 31)))) ∧
    (h ≠ 0 → Runs drop { s with posts := s.posts ++ [{ handle := h, ctx := s.ctxOf s.cur, hart := some s.cur }] } (s.withResult (.x a 0) 1 false)) ∧
    (4096 ≤ e → Traps bind s 0x01 s.wordTval) ∧
    (home → e < 4096 → ¬ live → GivesV s (.x d 1) bind) ∧
    (home → e < 4096 → live → ∀ c, s.ctxOf s.cur = some c →
      ((s.ctx c).drecs ≤ e → GivesV s (.x d 2) bind) ∧
      (e < (s.ctx c).drecs → Runs bind (s.setSlot k { s.slot k with fin := some (c * 4096 + e) }) (s.withResult (.x d 0) 1 true))) ∧
    (home → e < 4096 → live → s.ctxOf s.cur = none → GivesV s (.x d 2) bind) ∧
    (¬ home → e < 4096 → ∃ v : Word, ∃ k : Nat, v.toNat < 3 ∧ (BitVec.ofNat 29 h.toNat = 0 → v = 1) ∧
      Runs bind { s with free := s.free + k, linkOut := s.linkOut ++ [.bind (h.toNat / 2 ^ 51) ((s.ctxOf s.cur).getD 0) h e] }
        (s.withResult (.x d v) 1 true)) ∧
    (¬ home → ∃ v : Word, ∃ k : Nat, (v = 0x8000000000000000 ∨ v.toNat < 2 ^ 57) ∧
      (BitVec.ofNat 29 h.toNat = 0 → v = 0x8000000000000000) ∧
      Runs query { s with free := s.free + k, linkOut := s.linkOut ++ [.query (h.toNat / 2 ^ 51) ((s.ctxOf s.cur).getD 0) h] }
        (s.withResult (.x d v) 1 true)) ∧
    (home → ¬ live → GivesV s (.x d 0x8000000000000000) query) ∧
    (home → live → GivesV s (.x d (BitVec.ofNat 64 ((2 ^ (s.slot k).exp - (s.slot k).returned) + 2 ^ 49 * (s.slot k).exp
      + (if (s.slot k).proxy.isSome then 2 ^ 55 else 0) + (if (s.slot k).fin.isSome then 2 ^ 56 else 0)))) query)

/-- R363 to R366, R370, R383: a post that may be delivered adds its weight to its object; with the whole weight back the object dies: its
generation goes on and its slot is free, then its region, if it has one, is reported to its owner with its name at exponent 0, then its finaliser
is armed as LARM does, with an event where that fails, and then a proxy posts the handle that it holds. A post for another generation, or one whose
weight is too much, is discarded and reported to the slot's owner, and one for a free slot to the context of its poster, on another package
too; one for another package leaves over the chip links, and one to an unreachable package is lost and reported; a post that arrives over a link is
counted as one of this package is. The model's choices: how the arrival names the context (log 101), what is left for the links
(log 14), and which of several posts goes first (log 53). -/
def Sys2Proof.Claims.HandlePosts : Prop :=
  (∀ (s : State), s.power = .on → s.turn = 0 → ∀ (m : Post) (ms : List Post), s.posts = m :: ms →
    let h := m.handle
    let k := h.toNat / 2 ^ 49 % 4 * 16384 + h.toNat / 2 ^ 35 % 16384
    let x := s.slot k
    let r := x.returned + 2 ^ (h.toNat / 2 ^ 29 % 64)
    let gen := if x.gen + 1 = 0 then (1 : BitVec 29) else x.gen + 1
    let name := Handle.make s.pkgnum (k / 16384) (k % 16384) 0 x.gen
    let o := exec .handlePost s
    let home := h.toNat / 2 ^ 51 = s.pkgnum
    let rest : State := { s with posts := ms }
    let event := fun (v : State) (c? : Option Nat) (sub : BitVec 8) (g : Word) (base frames : Nat) => match c? with
      | some c => v.ctxEvent c 0x51 sub g (BitVec.ofNat 64 base) frames
      | none => v
    let same := x.gen = BitVec.ofNat 29 h.toNat
    (home → x.live = false → m.away = none → o = .next (event rest m.ctx 1 h 0 0)) ∧
    (home → x.live = false → ∀ p c, m.away = some (p, c) → o = .next { rest with linkOut := s.linkOut ++ [.uncounted p c h] }) ∧
    (home → x.live = true → ¬ same → o = .next (event rest x.ctx 1 h 0 0)) ∧
    (home → x.live = true → same → 2 ^ x.exp < r → o = .next (event rest x.ctx 2 h 0 0)) ∧
    (home → x.live = true → same → r < 2 ^ x.exp → o = .next (rest.setSlot k { x with returned := r })) ∧
    (home → x.live = true → same → r = 2 ^ x.exp →
      let died := rest.setSlot k { gen := gen }
      let told := if x.frames = 0 then died else event died x.ctx 0 name x.base x.frames
      let ends := fun (v : State) => o = .next (match x.proxy with
        | some p => { v with posts := v.posts ++ [{ handle := p, ctx := x.ctx, hart := none }] }
        | none => v)
      (x.fin = none → ends told) ∧
      (∀ f, x.fin = some f →
        let c := f / 4096
        let i := f % 4096
        let q := told.depot c i
        (told.crashed = true → ends { told with finals := told.finals ++ [f] }) ∧
        (told.crashed = false →
          ((told.ctx c).valid = false ∨ (told.ctx c).drecs ≤ i → ends (told.ctxEvent c 0x0A 0 (BitVec.ofNat 64 i) 0 0)) ∧
          ((told.ctx c).valid = true → i < (told.ctx c).drecs →
            (q.st ≠ .idle → ends (told.ctxEvent c 0x0B 0 (BitVec.ofNat 64 i) 0 0)) ∧
            (q.st = .idle → ∀ b, told.hubRead c ((told.ctx c).depot.toNat + 64 * i) 64 = (.ok b, told) →
              q.early < leNat ((b.drop 6).take 2) →
              ends (told.setDepot c i { q with
                bytes := q.bytes.take 6 ++ (b.drop 6).take 2 ++ (q.bytes.drop 8).take 24 ++ b.drop 32
                st := .armed, cnt := leNat ((b.drop 6).take 2) - q.early, early := 0, arms := q.arms + 1 })))))) ∧
    (¬ home → o = .next { rest with linkOut := s.linkOut ++ [.post (h.toNat / 2 ^ 51) (m.ctx.getD 0) h] }) ∧
    (¬ home → exec .handlePostLost s = .next (event rest m.ctx 3 h 0 0)) ∧
    (home → exec .handlePostLost s = .next s) ∧
    (∀ spkg sctx data, home → m.hart = none → m.ctx = none → m.away = some (spkg, sctx) →
      ∃ u v, exec (.chipLinkArrival .post spkg sctx h data) s = .next u ∧ o = .next v ∧ u.handles = v.handles)) ∧
  (∀ (s : State), s.power = .on → ∀ (spkg sctx c : Nat) (h : Word) (data : List Byte),
    exec (.chipLinkArrival (.uncounted c) spkg sctx h data) s = .next (s.ctxEvent c 0x51 1 h 0 0)) ∧
  (∀ (s : State) (c : Nat) (cause sub : BitVec 8) (p v : Word) (i : Nat), (s.ctxEvent c cause sub p v i).handles = s.handles)

/-- Handles: their words, and the weights that go home (the model's choices: logs 14, 66 and 101): HandleWords, HandlePosts. -/
def Obligations.Handles : Prop :=
  Claims.HandleWords ∧ Claims.HandlePosts

/-! ## Frames, translations, device memory -/

/-- R240: a scalar load of a hub register reads its bytes, and a scalar store stands first in the agenda until the hub performs it, a step of the
model's own (log 5). The sensor frame is not among them (log 11). -/
def Obligations.HubRegisterAccesses : Prop :=
  ∀ (s : State), s.ready → ∀ (r a : XReg) (o : BitVec 13) (pa : Nat),
    let va := s.rx a + BitVec.ofInt 64 o.toInt
    let byMonitor := isT s.cur = false ∧ gcoreKn (gcoreOf s.cur) = some .monitor
    let stored := fun (n : Nat) => { s with agenda := .store pa n (BitVec.ofNat 64 ((s.rx r).toNat % 2 ^ (8 * n))) (decide byMonitor) :: s.agenda }
    physKind pa = .io → 0x08F000000000 ≤ pa → pa / 0x10000 ≠ 0x08F40001 →
      (s.reaches .load va 8 8 (.phys pa) → s.readBad (.phys pa) 8 = false → Runs (exec (.ld r a o) s) s (s.withResult (.x r (BitVec.ofNat 64 (leRead s.io pa 8))) 1 true)) ∧
      (s.reaches .load va 4 4 (.phys pa) → s.readBad (.phys pa) 4 = false → Runs (exec (.lwu r a o) s) s (s.withResult (.x r (BitVec.ofNat 64 (leRead s.io pa 4))) 1 true)) ∧
      (s.reaches .load va 1 1 (.phys pa) → s.readBad (.phys pa) 1 = false → Runs (exec (.lbu r a o) s) s (s.withResult (.x r (BitVec.ofNat 64 (leRead s.io pa 1))) 1 true)) ∧
      (s.reaches .store va 8 8 (.phys pa) → Runs (exec (.sd r a o) s) (stored 8) s.me) ∧
      (s.reaches .store va 4 4 (.phys pa) → Runs (exec (.sw r a o) s) (stored 4) s.me) ∧
      (s.reaches .store va 2 2 (.phys pa) → Runs (exec (.sh r a o) s) (stored 2) s.me) ∧
      (s.reaches .store va 1 1 (.phys pa) → Runs (exec (.sb r a o) s) (stored 1) s.me)

/-- R311: the statuses of a FRAME word that are decided before the transaction: BADFRAME, NOTOWNER, BADPEER, BADARG. No element of a
write stream waits to be performed (log 53). -/
def Sys2Proof.Claims.FrameStatuses : Prop :=
  ∀ (s : State), s.readyG → s.me.priv ≠ .user → s.elemsWait = false → ∀ (d a b : XReg),
    let fa := (s.rx a).toNat
    let v := (s.rx b).toNat
    let p := v / 2 ^ 16 % 4
    let st := fun (n : Nat) (i : Instr) => GivesV s (.x d (BitVec.ofNat 64 n)) (exec i s)
    let all := fun (n : Nat) => st n (.foffer d a b) ∧ st n (.faccept d a b) ∧ st n (.flend d a b) ∧ st n (.frecall d a b)
      ∧ st n (.frelease d a)
    (fa % 0x10000 ≠ 0 → all 1) ∧ (s.wb (fa / 0x10000) = none → all 1) ∧
    (∀ e, fa % 0x10000 = 0 → s.wb (fa / 0x10000) = some e →
      (e.getLsbD 34 = true → all 1) ∧
      (e.getLsbD 34 = false → gcoreKn (gcoreOf s.cur) = none → all 2) ∧
      (∀ k, e.getLsbD 34 = false → gcoreKn (gcoreOf s.cur) = some k →
        (wbOwner e ≠ k.code → st 2 (.foffer d a b) ∧ st 2 (.flend d a b) ∧ st 2 (.frecall d a b)) ∧
        (wbPeer e ≠ k.code → st 2 (.faccept d a b)) ∧
        (wbOwner e = k.code → (p = 3 ∨ p = k.code) → st 5 (.foffer d a b) ∧ st 5 (.flend d a b)) ∧
        (wbOwner e = k.code → p ≠ 3 → p ≠ k.code →
          ((v / 2 ^ 19 % 2 = 1 ∨ 2 ^ 30 ≤ v) → st 6 (.foffer d a b)) ∧
          ((v % 2 ^ 16 ≠ 0 ∨ 2 ^ 18 ≤ v) → st 6 (.flend d a b))) ∧
        (wbPeer e = k.code → 2 ^ 26 ≤ v → st 6 (.faccept d a b)) ∧
        (wbOwner e = k.code → v ≠ 0 → (v < 1000 ∨ 10000000 < v) → st 6 (.frecall d a b))))

/-- R305, R311, R312, R315, R316, R378: where elements of write streams wait to be performed (log 53), a FRAME word first performs them all;
what each transaction that is in order makes of its frame's entry, with its status, the translations that
it shoots down and the event that it posts; every other entry, every other translation and every byte outside a zeroed frame and an
event's record is as it was. Grants, and an acceptance from MONITOR, give the frame its key and zeroed bytes; a worn frame enters
QUARANTINE in place of FREE. The model's choices (log 67): FRELEASE of an OWNED frame by a kernel that is not its owner answers BADSTATE, and
a second FRECALL shoots the peer's translations down again. -/
def Sys2Proof.Claims.FrameTransactions : Prop :=
  (∀ (s : State), s.readyG → s.me.priv ≠ .user → ∀ (d a b : XReg),
    ∀ i ∈ [Instr.foffer d a b, .faccept d a b, .flend d a b, .frecall d a b, .frelease d a], exec i s = exec i s.performElems) ∧
  (∀ (s : State) (h : Nat) (p : PortNo), ((s.performElems.hart h).ports[p]).later = []) ∧
  ∀ (s : State), s.readyG → s.me.priv ≠ .user → s.memoriesWf → s.elemsWait = false →
    ∀ (d a b : XReg) (f : Nat) (e : BitVec 128) (k : Kernel),
    let v := (s.rx b).toNat
    let p := v / 2 ^ 16 % 4
    let grant := v / 2 ^ 18 % 2 = 1
    let grace := if v = 0 then 100000 else v
    let dl := s.dtime + (3 * grace + 1) / 2
    let gone := fun (t : State) (g : TlbEntry → Prop) => ∀ x, x ∈ t.tlb ↔ x ∈ s.tlb ∧ ¬ (g x ∧ x.pa ≤ f * 0x10000 ∧ f * 0x10000 < x.pa + 2 ^ x.sz)
    let of := fun (q : Nat) (x : TlbEntry) => x.kn.code = q
    let zeroed := fun (t : State) => ∀ pa, t.byteAt (.phys pa) = if pa / 0x10000 = f then 0 else s.byteAt (.phys pa)
    let ring := fun (q : Kernel) => 0x08FE00000000 + q.code * 0x10000
    let event := fun (t : State) (q kind other : Nat) (e' : BitVec 128) =>
      (q = 3 → t.mem = s.mem) ∧ ∀ r : Kernel, r.code = q →
        Logged s t (ring r) r 0x01 (leBytes 8 (f * 0x10000) ++ leBytes 1 kind ++ leBytes 1 other ++ leBytes 2 (wbTag e') ++ leBytes 4 0
          ++ leBytes 8 (wbDeadline e') ++ leBytes 8 s.dtime)
        ∧ (∀ pa, ¬ (s.ringSlot (ring r) ≤ pa ∧ pa < s.ringSlot (ring r) + 32) → t.byteAt (.phys pa) = s.byteAt (.phys pa))
    let answers := fun (i : Instr) (n : Nat) (P : State → BitVec 128 → Prop) => ∃ t e', exec i s = .next t
      ∧ (t.hart s.cur).flight = (s.withResult (.x d (BitVec.ofNat 64 n)) 1 true).flight ∧ t.wb f = some e' ∧ P t e'
      ∧ (∀ g, g ≠ f → t.wb g = s.wb g) ∧ t.tiles = s.tiles
    let entry := fun (e' : BitVec 128) (st o q : Nat) => wbState e' = st ∧ wbOwner e' = o ∧ wbPeer e' = q
    let bad := fun (i : Instr) => GivesV s (.x d (BitVec.ofNat 64 3)) (exec i s)
    let quiet := fun (t : State) => t.tlb = s.tlb ∧ t.mem = s.mem
    let kept := fun (t : State) (e' : BitVec 128) => wbState e' = 5 ∧ wbOwner e' = wbOwner e ∧ gone t (fun _ => True)
      ∧ Told s t 0x08F600000000 .monitor 0x02 ∧ ∀ r : Kernel, r.code = wbOwner e → Told s t (0x08F600000000 + r.code * 0x10000) r 0x02
    let pooled := fun (t : State) (e' : BitVec 128) => wbState e' = 0 ∧ wbOwner e' = 0 ∧ wbKey e' = 0 ∧ zeroed t
    (s.rx a).toNat = f * 0x10000 → s.wb f = some e → wbLocked e = false → gcoreKn (gcoreOf s.cur) = some k →
      (wbOwner e = k.code → p ≠ 3 → p ≠ k.code → v / 2 ^ 19 % 2 = 0 → v < 2 ^ 30 →
        let i := Instr.foffer d a b
        (grant → k = .monitor → s.keyOk p (v / 2 ^ 20 % 1024) = true → wbState e = 0 → answers i 0 (fun t e' =>
          entry e' 1 p (wbPeer e) ∧ wbKey e' = v / 2 ^ 20 % 1024 ∧ zeroed t ∧ t.tlb = s.tlb)) ∧
        (grant → k = .monitor → s.keyOk p (v / 2 ^ 20 % 1024) = true → wbState e ≠ 0 → bad i) ∧
        (grant → (k ≠ .monitor ∨ s.keyOk p (v / 2 ^ 20 % 1024) = false) → GivesV s (.x d (BitVec.ofNat 64 6)) (exec i s)) ∧
        (¬ grant → wbState e ≤ 1 → answers i 0 (fun t e' => entry e' 2 (wbOwner e) p ∧ wbTag e' = v % 2 ^ 16 ∧ wbKey e' = wbKey e
          ∧ (wbState e = 0 → t.tlb = s.tlb) ∧ (wbState e = 1 → wbRevoked e' = false ∧ gone t (of k.code)) ∧ event t p 1 k.code e')) ∧
        (¬ grant → 1 < wbState e → bad i)) ∧
      (wbPeer e = k.code → v < 2 ^ 26 → (wbOwner e = 0 → s.keyOk k.code (v / 2 ^ 16 % 1024) = true) →
        let i := Instr.faccept d a b
        (wbState e ≠ 2 → bad i) ∧
        (wbState e = 2 → wbTag e ≠ v % 2 ^ 16 → GivesV s (.x d (BitVec.ofNat 64 4)) (exec i s)) ∧
        (wbState e = 2 → wbTag e = v % 2 ^ 16 → answers i 0 (fun t e' => entry e' 1 k.code k.code ∧ t.tlb = s.tlb
          ∧ (wbOwner e = 0 → wbKey e' = v / 2 ^ 16 % 1024 ∧ zeroed t) ∧ (wbOwner e ≠ 0 → wbKey e' = wbKey e ∧ t.mem = s.mem)))) ∧
      (wbOwner e = k.code → p ≠ 3 → p ≠ k.code → v % 2 ^ 16 = 0 → v < 2 ^ 18 →
        let i := Instr.flend d a b
        (wbState e ≠ 1 → bad i) ∧
        (wbState e = 1 → answers i 0 (fun t e' => entry e' 3 k.code p ∧ wbRevoked e' = false ∧ quiet t))) ∧
      (wbOwner e = k.code → 1000 ≤ grace → grace ≤ 10000000 → dl < 2 ^ 64 →
        let i := Instr.frecall d a b
        (wbState e = 3 → answers i 0 (fun t e' => entry e' 4 k.code (wbPeer e) ∧ wbDeadline e' = dl ∧ gone t (of (wbPeer e))
          ∧ event t (wbPeer e) 2 k.code e')) ∧
        (wbState e = 4 → answers i 0 (fun t e' => entry e' 4 k.code (wbPeer e) ∧ wbDeadline e' = min dl (wbDeadline e)
          ∧ gone t (of (wbPeer e)) ∧ t.mem = s.mem)) ∧
        (wbState e ≠ 3 → wbState e ≠ 4 → bad i)) ∧
      (let i := Instr.frelease d a
       (wbState e = 1 → wbOwner e = k.code → k ≠ .monitor → s.worn.contains f = false → answers i 0 (fun t e' =>
         pooled t e' ∧ gone t (of k.code))) ∧
       (wbState e = 1 → wbOwner e = k.code → k ≠ .monitor → s.worn.contains f = true → answers i 0 kept) ∧
       (wbState e = 1 → (wbOwner e ≠ k.code ∨ k = .monitor) → bad i) ∧
       (wbState e = 2 → wbOwner e = k.code → (k = .monitor → s.worn.contains f = false) → answers i 0 (fun t e' =>
         entry e' (if k = .monitor then 0 else 1) k.code (wbPeer e) ∧ quiet t)) ∧
       (wbState e = 2 → wbOwner e = k.code → k = .monitor → s.worn.contains f = true → answers i 0 kept) ∧
       (wbState e = 3 → wbPeer e = k.code → answers i 0 (fun t e' => entry e' 1 (wbOwner e) k.code ∧ gone t (of k.code)
         ∧ event t (wbOwner e) 3 k.code e')) ∧
       (wbState e = 4 → wbPeer e = k.code → s.dtime < wbDeadline e → answers i 0 (fun t e' => entry e' 1 (wbOwner e) k.code
         ∧ gone t (of k.code) ∧ event t (wbOwner e) 3 k.code e')) ∧
       (wbState e = 4 → wbPeer e = k.code → wbDeadline e ≤ s.dtime → GivesV s (.x d (BitVec.ofNat 64 7)) (exec i s)) ∧
       (wbState e = 5 → k = .monitor → s.worn.contains f = false → answers i 0 (fun t e' => pooled t e' ∧ t.tlb = s.tlb)))

/-- R314: FQUERY reads the status, the entry's fields and the deadline for OWNER, PEER and MONITOR, and STATE and OWNER for others. -/
def Sys2Proof.Claims.FrameQuery : Prop :=
  ∀ (s : State), s.readyG → s.me.priv ≠ .user → ∀ (d a : XReg),
    let fa := (s.rx a).toNat
    let gives := fun (st v dl : Nat) => Runs (exec (.fquery d a) s) s
      (s.withTwo (.x d (BitVec.ofNat 64 (st * 2 ^ 56 + v))) (.x (d + 1) (BitVec.ofNat 64 dl)))
    (fa % 0x10000 ≠ 0 → gives 1 0 0) ∧ (fa % 0x10000 = 0 → s.wb (fa / 0x10000) = none → gives 1 0 0) ∧
    (∀ e, fa % 0x10000 = 0 → s.wb (fa / 0x10000) = some e →
      (wbLocked e = true → gives 1 0 0) ∧
      (wbLocked e = false → gcoreKn (gcoreOf s.cur) = none → gives 2 0 0) ∧
      (∀ k, wbLocked e = false → gcoreKn (gcoreOf s.cur) = some k →
        ((wbOwner e = k.code ∨ wbPeer e = k.code ∨ k = .monitor) → gives 0 (e.toNat % 2 ^ 56) (e.toNat / 2 ^ 64)) ∧
        (wbOwner e ≠ k.code → wbPeer e ≠ k.code → k ≠ .monitor → gives 2 (wbState e + 8 * wbOwner e) 0)))

/-- R312, R313, R317: at a recall's deadline PEER's translations of the frame go, a stream of PEER that stands at it is faulted and a copy of
PEER whose next piece lies on it ends, and no access that they issued before the deadline reaches it any more, though it may be lent again
(the model's reading, log 104); when PEER's accesses have drained the frame is OWNED and REVOKED, OVERRUN counts it, and both kernels are told.
Elements of write streams that have passed their checks and wait are performed before either. A key that an entry still holds is not
regenerated. -/
def Sys2Proof.Claims.RecallsAndKeys : Prop :=
  ∀ (s : State), s.power = .on → s.memoriesWf →
    (∀ f, exec (.recallDeadline f) s = exec (.recallDeadline f) s.performElems ∧ exec (.recallDrainDone f) s = exec (.recallDrainDone f) s.performElems) ∧
    (∀ (f : Nat) (e : BitVec 128), s.wb f = some e → s.elemsWait = false →
      let due := wbState e = 4 ∧ wbDeadline e ≤ s.dtime
      let lost := put s.revoked (f * 4 + wbPeer e) (wbDeadline e)
      let meets := fun (t : State) (u : EngineUnit) (sys : Bool) (since : Nat) (va : Word) (n : Nat) (k : AccKind) =>
        (({ s with tlb := t.tlb, revoked := lost } : State).enginePlace u sys since va n k).1 = .error 0x13
      let away := fun (x : TlbEntry) => x.kn.code = wbPeer e ∧ x.pa ≤ f * 0x10000 ∧ f * 0x10000 < x.pa + 2 ^ x.sz
      (¬ due → exec (.recallDeadline f) s = .next s ∧ exec (.recallDrainDone f) s = .next s) ∧
      (due → wbPeer e ≤ 2 →
        (∃ t, exec (.recallDeadline f) s = .next t ∧ (∀ x, x ∈ t.tlb ↔ x ∈ s.tlb ∧ ¬ away x)
          ∧ t = { s with tlb := t.tlb, revoked := lost, harts := t.harts, tiles := t.tiles, chans := t.chans }
          ∧ (∀ h, t.hart h = { s.hart h with ports := (t.hart h).ports, latch := (t.hart h).latch })
          ∧ (∀ u, t.tile u = { s.tile u with locks := (t.tile u).locks })
          ∧ (∀ h (p : PortNo) e, let q := (s.hart h).ports[p]
              isT h = true → (s.tile (tileOf h)).presence = .present → q.cfg = true → q.fault = false → q.wait = false →
              q.mode ≠ .ring → q.mode ≠ .indexed → q.done * q.l ≤ e → e < (q.done + 1) * q.l → e < q.elems →
              meets t (.port h p) q.sys q.since (q.addr e) q.w (if q.write = true then .store else .load) →
              (t.hart h).ports[p].fault = true ∧ (t.hart h).ports[p].fsub = 0x13)
          ∧ (∀ u c x, x ∈ (s.chan u c).live → (512 ≤ u ∨ (s.tile u).presence = .present) → x.handed = true → x.row < x.p.rows →
              x.p.srcRemote s.pkgnum = false → meets t (.chan u c) x.sys x.since x.srcAt x.pieceLen .load →
              (∀ y ∈ (t.chan u c).live, y.id ≠ x.id) ∧ ((s.chan u c).cerrId = 0 → x.id ≠ 0 → (t.chan u c).cerrId ≠ 0))) ∧
        (∀ (t : State) (u : EngineUnit) (sys : Bool) (since : Nat) (va : Word) (n : Nat) (k : AccKind) (ls : List (Loc × Nat)), t.revoked = lost → since < wbDeadline e →
          (∃ r : Kernel, (t.engineRequester u sys).2.kn = some r ∧ r.code = wbPeer e) → (t.enginePlace u sys since va n k).1 = .ok ls →
          ∀ q ∈ ls, ∀ pa, q.1 = .phys pa → pa / 0x10000 ≠ f) ∧
        (∃ t e', exec (.recallDrainDone f) s = .next t ∧ t.wb f = some e' ∧ wbState e' = 1 ∧ wbOwner e' = wbOwner e
          ∧ wbPeer e' = wbPeer e ∧ wbRevoked e' = true ∧ (∀ g, g ≠ f → t.wb g = s.wb g) ∧ (∀ u, t.tile u = { s.tile u with locks := (t.tile u).locks })
          ∧ t.revoked = lost
          ∧ (∀ x, x ∈ t.tlb ↔ x ∈ s.tlb ∧ ¬ away x)
          ∧ (let o := 0x08FE00000018 + wbPeer e * 0x10000
             t.ioRead o 8 = (s.ioRead o 8 + 1) % 2 ^ 64)
          ∧ (wbOwner e ≠ wbPeer e → ∀ r : Kernel, (r.code = wbOwner e ∨ r.code = wbPeer e) →
              Told s t (0x08FE00000000 + r.code * 0x10000) r 0x01)))) ∧
    (∀ k, (k = 0 ∨ 1024 ≤ k ∨ ∃ e ∈ s.waybill, wbKey e.2 = k) → exec (.keyRegenerate k) s = .next s) ∧
    (∀ k, 0 < k → k < 1024 → (∀ e ∈ s.waybill, wbKey e.2 ≠ k) →
      exec (.keyRegenerate k) s = .next { s with keyGen := put s.keyGen k (look 0 s.keyGen k + 1) })

/-- The waybill table's transactions, recalls and keys (the model's choices: logs 67 and 104): FrameStatuses, FrameTransactions, FrameQuery, RecallsAndKeys. -/
def Obligations.Frames : Prop :=
  Claims.FrameStatuses ∧ Claims.FrameTransactions ∧ Claims.FrameQuery ∧ Claims.RecallsAndKeys

/-- R304, R305: TLBI removes, from the caches of its scope, the issuing kernel's entries that its kind names, and no other; before it no
element of a write stream is left that was checked under a translation and is yet to be performed (log 53). -/
def Sys2Proof.Claims.TranslationInvalidate : Prop :=
  ∀ (s : State), s.readyG → s.me.priv ≠ .user → ∀ (a b : XReg) (sc : TlbiScope) (kind : TlbiKind) (k : Kernel),
    gcoreKn (gcoreOf s.cur) = some k →
      let va := (s.rx a).toNat
      let asn := (s.rx b).toNat % 4096
      let v := s.performElems
      let cached := fun (x : TlbEntry) => match sc with
        | .core => x.unit = 2000 + gcoreOf s.cur
        | .device => x.unit < 512 ∨ (1000 ≤ x.unit ∧ x.unit < 1004)
        | .package => True
      let page := fun (x : TlbEntry) => x.va ≤ va ∧ va < x.va + 2 ^ x.sz
      let named := fun (x : TlbEntry) => match kind with
        | .all => True
        | .asn => x.asn = asn ∧ x.glob = false
        | .page => page x ∧ (x.asn = asn ∨ x.glob = true)
        | .gpage => page x
      (∀ h (p : PortNo), ((v.hart h).ports[p]).later = []) ∧ (∀ x ∈ v.tlb, x ∈ s.tlb) ∧ v.cur = s.cur ∧
      v.me = { s.me with ports := v.me.ports, irqs := v.me.irqs, latch := v.me.latch } ∧ (s.elemsWait = false → v = s) ∧
      ∃ tl, Runs (exec (.tlbi sc a b kind) s) { v with tlb := tl } v.me
        ∧ ∀ x, x ∈ tl ↔ x ∈ v.tlb ∧ ¬ (cached x ∧ x.kn = k ∧ named x)

/-- R251, R306: FLUSH and INVAL translate each page of their range as a load; an empty range does nothing, and the first page that fails
traps. FLUSH changes no value, and INVAL none but what another host has stored in the granules of its range (log 100). -/
def Sys2Proof.Claims.FlushAndInval : Prop :=
  ∀ (s : State), s.ready → s.memoriesWf → ∀ (a b : XReg),
    let va := (s.rx a).toNat
    let n := (s.rx b).toNat
    let pages := (va + n - 1) / 0x10000 - va / 0x10000 + 1
    let start := fun (i : Nat) => if i = 0 then va else (va / 0x10000 + i) * 0x10000
    let loads := ∀ i < pages, ∃ l, s.reaches .load (BitVec.ofNat 64 (start i)) 1 1 l ∧ start i < 2 ^ 48
    (∀ o ∈ [exec (.flush a b) s, exec (.inval a b) s],
      (n = 0 → Runs o s s.me) ∧ (0 < n → 2 ^ 48 ≤ va → Traps o s 0x11 (s.rx a))) ∧
    (0 < n → loads → Runs (exec (.flush a b) s) s s.me) ∧
    (0 < n → loads → s.foreign = [] → Runs (exec (.inval a b) s) s s.me) ∧
    (∀ pa, 0 < n → va / 0x10000 = (va + n - 1) / 0x10000 → s.reaches .load (s.rx a) 1 1 (.phys pa) → (s.foreign.map (·.1)).Nodup →
      ∃ t, exec (.inval a b) s = .next t ∧ t.tiles = s.tiles
        ∧ (∀ q, t.byteAt (.phys q) = if pa / 64 * 64 ≤ q ∧ q < (pa + (n - 1)) / 64 * 64 + 64 then look (s.byteAt (.phys q)) s.foreign q
            else s.byteAt (.phys q)))

/-- R300, R302, R303: a fill whose translation is cached changes nothing; one that walks three levels to a 64 KiB leaf that lets the access
through caches its translation for the requester and the cache behind it. No core's TLB comes to hold more than 64 translations, and no
set of a shared cache more than 8 (the set of an address is free, log 7). -/
def Sys2Proof.Claims.TranslationFills : Prop :=
  ∀ (s : State), s.power = .on → ∀ (h : Nat) (va : Word) (k : AccKind), isCore h = true → va.toNat < 2 ^ 48 →
    let rq := s.requester h (s.hart h).priv
    let v := va.toNat
    let o := exec (.translationFill h va k) s
    (∀ e, s.tlb.find? (fun e => e.hits rq.unit rq v s.dtime) = some e → o = .next s) ∧
    (∀ (kn : Kernel) (e0 e1 e2 : Nat), (∀ e ∈ s.tlb, e.hits rq.unit rq v s.dtime = false ∧ e.hits rq.shared rq v s.dtime = false) →
      rq.kn = some kn →
      let pte := fun (node i : Nat) => leNat (s.readLoc 8 (.phys (node + 8 * i)))
      let next := fun (e : Nat) => e / 2 ^ 16 % 2 ^ 32 * 0x10000
      let node := fun (e : Nat) => e % 4 = 3 ∧ e / 2 ^ 2 % 2 ^ 7 = 0 ∧ e / 2 ^ 9 % 2 ^ 7 = 0 ∧ e < 2 ^ 48
      let bit := fun (i : Nat) => e2 / 2 ^ i % 2 == 1
      let pa := next e2 + v % 0x10000
      let pass := fun (a : Nat) => s.waybillCheck a (some kn) = none
      pte rq.root (v / 2 ^ 42 % 64) = e0 → node e0 → pte (next e0) (v / 2 ^ 29 % 8192) = e1 → node e1 →
      pte (next e1) (v / 2 ^ 16 % 8192) = e2 → e2 % 2 ^ 4 = 1 → e2 / 2 ^ 9 % 2 ^ 7 = 0 → e2 < 2 ^ 48 →
      permits (bit 4) (bit 5) (bit 6) k = true → (bit 7 = true → rq.user = false) → physKind pa ≠ .absent →
      pass rq.root → pass (next e0) → pass (next e1) → pass pa →
      (s.tlb.filter (fun x => x.unit == rq.unit)).length < 64 → (s.tlb.filter (fun x => x.unit == rq.shared)).length < 8 →
      ∃ x : TlbEntry, o = .next { s with tlb := x :: { x with unit := rq.shared } :: s.tlb }
        ∧ x.unit = rq.unit ∧ x.kn = kn ∧ x.asn = rq.asn ∧ x.va = v / 0x10000 * 0x10000 ∧ x.sz = 16 ∧ x.pa = next e2
        ∧ x.r = bit 4 ∧ x.w = bit 5 ∧ x.x = bit 6 ∧ x.glob = bit 8) ∧
    (∀ t, o = .next t →
      (∀ u, (u < 1000 ∨ (2000 ≤ u ∧ u < 3000)) → (s.tlb.filter (fun x => x.unit == u)).length ≤ 64 →
        (t.tlb.filter (fun x => x.unit == u)).length ≤ 64) ∧
      (∀ u set, ¬ (u < 1000 ∨ (2000 ≤ u ∧ u < 3000)) → (s.tlb.filter (fun x => x.place == (u, set))).length ≤ 8 →
        (t.tlb.filter (fun x => x.place == (u, set))).length ≤ 8))

/-- Translation fills and invalidation: TranslationInvalidate, FlushAndInval, TranslationFills. -/
def Obligations.Translations : Prop :=
  Claims.TranslationInvalidate ∧ Claims.FlushAndInval ∧ Claims.TranslationFills

/-- R250, R295, R296, R301: a device's bytes are performed where its root port's table maps them, with the permissions that a read, a write
and a read-modify-write need, and nowhere without a translation: where the walk of the port's table fails nothing is performed. -/
def Obligations.DeviceAccesses : Prop :=
  ∀ (s : State), s.power = .on → s.memoriesWf → ∀ (port : Nat) (va : Word) (data : List Byte),
    let rq := s.portRequester port
    let n := data.length
    let write := exec (.dmaWrite port va data) s
    let read := exec (.dmaRead port va n) s
    let swap := execDmaAtomic port va data s
    let fits := port < 4 ∧ 0 < n ∧ va.toNat % 0x10000 + n ≤ 0x10000 ∧ va.toNat < 2 ^ 48
    (4 ≤ port → write = .next s ∧ read = .next s ∧ swap = .next s) ∧
    (∀ e : TlbEntry, fits → s.tlb.find? (fun x => x.hits rq.unit rq va.toNat s.dtime) = some e →
      let l : Loc := .phys (e.pa + va.toNat % 2 ^ e.sz)
      let performs := fun (o : Out) => ∃ t, o = .next t
        ∧ (∀ m, t.byteAt m = (bytesOf l n (leNat data) m).getD (s.byteAt m)) ∧ t.harts = s.harts ∧ t.tiles = s.tiles
      l.isMemory →
      (e.w = true → s.writeBad l n = false → performs write) ∧ (e.w = false → write = .next s) ∧
      (e.r = true → s.readBad l n = false → read = .next s) ∧ (e.r = false → read = .next s) ∧
      (e.r = true → e.w = true → s.readBad l n = false → performs swap) ∧ ((e.r = false ∨ e.w = false) → swap = .next s)) ∧
    (fits → (∀ e ∈ s.tlb, e.hits rq.unit rq va.toNat s.dtime = false) →
      (s.waybillCheck rq.root (some .host) ≠ none
        ∨ leNat (s.readLoc 8 (.phys (rq.root + 8 * (va.toNat / 2 ^ 42 % 64)))) % 2 = 0) →
      write = .next s ∧ read = .next s ∧ swap = .next s)

/-! ## Results, entries, kicks, switches -/

/-- R51, R58, R60, R62, R73, R101, R403: the results whose cycle has come land by their cycle, and of one cycle in issue order, the last
writer of a register standing; the flags that land with them are sticky; a shadow lands again counted from the cycle in which the program's next word issues; a vector result's
latency counts from its last part. Latencies count the advancing cycles of a tile, and a profile G core's own. -/
def Obligations.ResultsLand : Prop :=
  (∀ (s : State), s.power = .on → ∀ (h : Nat) (wait : Bool) (o : Out),
    (o = exec (.resultLand h) s ∧ wait = false) ∨ (o = exec (.variableResultLand h) s ∧ wait = true) →
      let x := s.hart h
      let now := if isT h = true then (s.tile (tileOf h)).adv else s.clk
      let dueB := fun (f : InFlight) => f.wait == wait && (match f.due with | some d => wait || decide (d ≤ now) | none => false)
      let due := fun (f : InFlight) => dueB f = true
      ∃ t l, o = .next t ∧ LandsAs (x.flight.filter dueB) l ∧
        let y := t.hart h
        (∀ f, f ∈ y.flight ↔ f ∈ x.flight ∧ ¬ due f) ∧ y.flight.Sublist x.flight
        ∧ (∀ r, (∀ f ∈ x.flight, due f → ∀ v, f.land ≠ .x r v) → y.x[r] = x.x[r])
        ∧ (∀ r, (∀ f ∈ x.flight, due f → ∀ v, f.land ≠ .k r v) → y.k[r] = x.k[r])
        ∧ (∀ (r : VReg) (q : r.val < 24), (∀ f ∈ x.flight, due f → ∀ v m, f.land ≠ .v r v m) → y.v[r.val] = x.v[r.val])
        ∧ (∃ l, y.late = x.late ++ l)
        ∧ (∀ pre f post, l = pre ++ f :: post →
            (∀ r v, f.land = .x r v → r ≠ 0 → (∀ g ∈ post, ∀ u, g.land ≠ .x r u) → y.x[r] = v)
            ∧ (∀ r v, f.land = .k r v → r ≠ 0 → (∀ g ∈ post, ∀ u, g.land ≠ .k r u) → y.k[r] = v)
            ∧ (∀ (r : VReg) v m (q : r.val < 24), f.land = .v r v m → (∀ g ∈ post, ∀ u n, g.land ≠ .v r u n) →
                y.v[r.val] &&& m = v &&& m
                ∧ ((∀ g ∈ pre, ∀ u n, g.land ≠ .v r u n) → y.v[r.val] = (x.v[r.val] &&& ~~~m) ||| (v &&& m)))
            ∧ (f.en ≠ 0 → fpeFault f.en f.org (!f.org.vx) ∈ y.late))
        ∧ y.x[(0 : XReg)] = x.x[(0 : XReg)] ∧ y.k[(0 : KReg)] = x.k[(0 : KReg)]
        ∧ (∀ i, y.fflags.getLsbD i = true ↔ x.fflags.getLsbD i = true ∨ ∃ f ∈ x.flight, due f ∧ f.fl.getLsbD i = true)
        ∧ y = { x with flight := y.flight, x := y.x, v := y.v, k := y.k, fflags := y.fflags, landed := y.landed,
                        landedNow := y.landedNow, late := y.late }
        ∧ (if wait = true then y.landed = x.landed else y.landedNow = x.landedNow)
        ∧ (∀ g, g ≠ h → t.hart g = s.hart g) ∧ t = { s with harts := t.harts, tiles := t.tiles }
        ∧ (∀ u, t.tile u = { s.tile u with mstat := (t.tile u).mstat, ternLanded := (t.tile u).ternLanded })) ∧
  (∀ (s : State), s.power = .on → ∀ (h : Nat),
    let x := s.hart h
    let y := s.tile (tileOf h)
    let resumed := isT h = true ∧ y.presence = .present ∧ y.shared = false ∧ x.priv = .user ∧ x.run = .running
    (resumed → exec (.shadowReland h) s = .next (s.setHart h { x with
      flight := x.flight ++ x.shadow.map (fun f =>
        { due := some (y.adv + x.bubble + f.rem), land := f.land, fl := f.fl, en := f.en, tern := f.tern, org := f.org, float := f.float })
      shadow := [] })) ∧
    (¬ resumed → exec (.shadowReland h) s = .next s)) ∧
  (∀ (s : State), s.power = .on → ∀ (t : Nat) (i : Fin 4) (e : VqEntry),
    let x := s.tile t
    let y := s.hart (4 * t + i.val)
    ((x.shared = false ∨ x.dealtAt = some s.clk) → exec (.vectorPartBind t) s = .next s) ∧
    (x.shared = true → x.dealtAt ≠ some s.clk → y.vq = [e] → e.bound < 4 →
      (∀ j : Fin 4, j ≠ i → (s.hart (4 * t + j.val)).vq = []) →
      ∃ v, exec (.vectorPartBind t) s = .next v ∧ v.tile t = { x with dealtAt := some s.clk }
        ∧ v.hart (4 * t + i.val) = { y with
            vq := []
            flight := y.flight.map (fun f =>
              if f.org.order = e.order ∧ f.due = none ∧ f.lat ≠ 0 then { f with due := some (x.adv + f.lat) } else f) }))

/-- R321, R322, R323, R327, R329, R330, R341: at its boundary a strand takes the late fault of the earliest instruction, else STEP, else its
oldest interrupt, and with a vector, a place for its frame and a free slot it runs its handler at once; in shared mode STEP waits for the
results of its word, and a strand that waits in HALT takes no interrupt (log 39); the record that waits goes into its slot once that is FREE; a
kick interrupts or restarts the strands that it names. The model's readings: the vector is tested before the record (log 41), and a call-ring
write that restarts is made anew by the SCALL itself, with the trap registers as they were (log 48), in a consist once every member is ready to
resume (log 86). -/
def Obligations.EntriesAndKicks : Prop :=
  (∀ (s : State), s.power = .on → ∀ (h : Nat), isCore h = true → 
    (isT h = true → (s.tile (tileOf h)).presence = .present ∧ (s.tile (tileOf h)).csize ≤ 1
      ∧ ∀ m ∈ s.members (tileOf h) .consist, (s.hart (4 * m)).coupled = true → (s.hart (4 * m)).priv ≠ .user) →
    let x := s.hart h
    let waits := isT h = true ∧ (s.tile (tileOf h)).shared = true ∧ x.flight ≠ []
    let takes := fun (tc : Word) (cause : Cause) (tval : Word) (seq : BitVec 16) (late replay : Bool) (fa : Nat) (P : Hart → Prop) =>
      ∃ t, exec (.trapEntry h) s = .next t ∧ Entered x (t.hart h) (s.tvecOf h) tc cause tval seq late replay fa
        ∧ ((∀ d, (t.hart h).run ≠ .frozen d) → P (t.hart h))
        ∧ ∀ frame l slot hp sp, s.Delivers h frame l slot hp sp → s.Delivered t h (t.hart h) frame l slot hp sp
    (∀ pre f post, (x.run = .running ∨ x.run = .halting) → x.priv = .user → x.late = pre ++ f :: post →
      (∀ g ∈ pre, f.org.order < g.org.order) → (∀ g ∈ post, f.org.order ≤ g.org.order) →
      takes (f.cause.zeroExtend 64) f.cause f.tval (if f.org.vx = true then f.org.seq else 0xFFFF) true f.replay f.faddr.toNat
        (fun y => x.flight = [] → y.late = pre ++ post)) ∧
    (x.run = .running → x.priv = .user → x.late = [] →
      (∀ v, x.step = some v → waits → exec (.trapEntry h) s = .next s) ∧
      (∀ v, x.step = some v → ¬ waits → takes 0x42 0x42 v 0xFFFF false false 0 (fun y => y.step = none)) ∧
      (∀ code v q, x.step = none → x.irqs = (code, v) :: q →
        takes (code.zeroExtend 64 ||| 0x8000000000000000) code v 0xFFFF false false 0 (fun y => y.irqs = q)) ∧
      (x.step = none → x.irqs = [] → exec (.trapEntry h) s = .next s)) ∧
    (x.run = .halting → x.late = [] → exec (.trapEntry h) s = .next s) ∧
    (x.run = .inactive → exec (.trapEntry h) s = .next s)) ∧
  (∀ (s : State), s.power = .on → s.memoriesWf → ∀ (i : Nat) (r : FaultRec) (v : Word) (e : TlbEntry),
    let rq := s.hubIn r.ctx
    let pa := e.pa + v.toNat % 2 ^ e.sz
    s.recs[i]? = some r → r.slot = some v → r.bytes.length = 64 → v.toNat < 2 ^ 48 →
    s.tlb.find? (fun x => x.hits rq.unit rq v.toNat s.dtime) = some e → e.r = true → e.w = true → e.k = false →
    physKind pa ≠ .io → s.readBad (.phys pa) 64 = false →
      (s.memNat (pa + 1) 1 ≠ 0 → exec (.faultRecordWrite i) s = .next s) ∧
      (s.memNat (pa + 1) 1 = 0 → ∃ t, exec (.faultRecordWrite i) s = .next t ∧ t.recs = s.recs.eraseIdx i ∧ t.harts = s.harts
        ∧ ∀ l, t.byteAt l = (bytesOf (.phys pa) 64 (leNat (r.bytes.set 1 1)) l).getD (s.byteAt l))) ∧
  (∀ (s : State), s.power = .on → ∀ (t : Nat) (v : Word), t < 512 →
    (v.msb = false → ∃ u, exec (.kickInterrupt t v) s = .next u ∧ u = { s with harts := u.harts }
      ∧ (∀ h, u.hart h = let x := s.hart h
          if 4 * t ≤ h ∧ h < 4 * t + 4 ∧ v.getLsbD (h - 4 * t) = true ∧ x.run ≠ .inactive then
            { x with irqs := x.irqs ++ [((v >>> 4).setWidth 8, v)], latch := x.latch || x.priv != .user }
          else x)) ∧
    (v.msb = true → (s.tile t).csize ≤ 1 →
      (∀ i < 4, v.getLsbD i = true → ∀ d, (s.hart (4 * t + i)).run = .frozen d → d = .fetch ∨ d = .callRing) →
      ∃ u, exec (.kickRestart t v) s = .next u ∧ u = { s with harts := u.harts }
      ∧ (∀ h, (∀ d, (s.hart h).run ≠ .frozen d) → u.hart h = s.hart h)
      ∧ (∀ i < 4, v.getLsbD i = true → ∀ d, (s.hart (4 * t + i)).undelivered = some d →
          let x := s.hart (4 * t + i)
          (x.run = .frozen .fetch → u.hart (4 * t + i) = { x with run := .running, tcause := d.tcause, tval := d.tval }) ∧
          (x.run = .frozen .callRing → u.hart (4 * t + i) =
            { x with run := .running, tcause := d.tcause, tval := d.tval, undelivered := none, since := none }))) ∧
    (∀ d, v.msb = true → v.toNat % 16 = 1 → 1 < (s.tile t).csize →
      let x := s.hart (4 * t)
      let ms := s.members t .consist
      x.run = .frozen .callRing → x.undelivered = some d → x.priv = .user → x.ereting = false →
      let y : Hart := { x with tcause := d.tcause, tval := d.tval, undelivered := none, since := none, restarted := true }
      let ready := fun (m : Nat) => s.partHere (s.tile t).launch m = true
        ∧ ((s.hart (4 * m)).ereting = true ∨ (s.hart (4 * m)).run = .halting ∨ (s.hart (4 * m)).restarted = true)
      ((∃ m ∈ ms, m ≠ t ∧ ¬ ready m) → exec (.kickRestart t v) s = .next (s.setHart (4 * t) y)) ∧
      (t ∈ ms → s.partHere (s.tile t).launch t = true → (∀ m ∈ ms, m ≠ t → ready m) → ∃ u, exec (.kickRestart t v) s = .next u
        ∧ (u.hart (4 * t)).run = .running ∧ (u.hart (4 * t)).restarted = false ∧ (u.hart (4 * t)).pc = x.pc ∧ (u.hart (4 * t)).bubble = 2
        ∧ ∀ m ∈ ms, m ≠ t → (s.hart (4 * m)).ereting = true → (u.hart (4 * m)).ereting = false)))

/-- R331, R332, R334, R337: SWT arms a switch of its partition, too soon or busy otherwise; at SWT every tile of the partition stops; the
image of a drained tile is saved and the tile is absent; the incoming context's image is restored, and with the last tile the switch is done.
The model's readings: a tile without an image starts afresh with its monitor, and all tiles resume with the last restore (log 70); the image
is kept as data (log 29). -/
def Obligations.GangSwitches : Prop :=
  ∀ (s : State), s.power = .on → s.memoriesWf → ∀ (p : Nat), p < 16 →
    let frame := 0x08FB00000000 + p * 0x10000
    let status := fun (t : State) => t.ioRead (frame + 24) 1
    let inctx := s.ioRead (frame + 8) 2
    let mine := fun (u : Nat) => u < 512 ∧ (s.ioRead (0x08F10000C000 + 128 * p) 64).testBit u = true
    (∀ v : Word,
      (∀ w, s.switch? p = some w → ∃ t, exec (.switchArm p v) s = .next t ∧ status t = 5 ∧ t = { s with io := t.io } ∧ t.ioRead frame 8 = s.ioRead frame 8) ∧
      (s.switch? p = none → v.toNat < s.dtime + 3000 →
        ∃ t, exec (.switchArm p v) s = .next t ∧ status t = 4 ∧ t = { s with io := t.io } ∧ t.ioRead frame 8 = v.toNat) ∧
      (s.switch? p = none → s.dtime + 3000 ≤ v.toNat →
        ∃ t, exec (.switchArm p v) s = .next t ∧ status t = 1 ∧ t = { s with io := t.io, switches := t.switches }
          ∧ t.ioRead frame 8 = v.toNat ∧ ∃ w, t.switch? p = some w ∧ w.swt = v.toNat ∧ w.inctx = inctx ∧ w.stage = .armed)) ∧
    ((∀ w, s.switch? p = some w → w.stage ≠ .armed ∨ s.dtime < w.swt) → exec (.switchStop p) s = .next s) ∧
    (∀ w, s.switch? p = some w → w.stage = .armed → w.swt ≤ s.dtime →
      let ts := fun (u : Nat) => mine u ∧ ((s.tile u).presence = .present ∨ (s.tile u).presence = .crashed)
      (∃ u, ts u) → ∃ t, exec (.switchStop p) s = .next t ∧ status t = 2
        ∧ (∃ w', t.switch? p = some w' ∧ w'.stage = .saving ∧ w'.swt = w.swt ∧ w'.inctx = w.inctx ∧ ∀ u, u ∈ w'.todo ↔ ts u)
        ∧ (∀ u, ts u → (t.tile u).presence = .stopped) ∧ (∀ u, ¬ ts u → t.tile u = s.tile u) ∧ t.mem = s.mem) ∧
    (∀ (u : Nat), (s.switchOf u .saving = none → exec (.switchSave u) s = .next s) ∧
      (s.switchOf u .restoring = none → exec (.switchRestore u) s = .next s)) ∧
    (∀ (u : Nat) (w : Switch), s.switchOf u .saving = some (p, w) →
      (s.drained u = false → exec (.switchSave u) s = .next s) ∧
      (s.drained u = true → (s.tile u).presence ≠ .retired → mine u →
        (∀ v ∈ w.todo, ∀ i < 4, ∀ q : PortNo, (s.hart (4 * v + i)).ports[q].pend = [] ∧ (s.hart (4 * v + i)).ports[q].later = []) →
        ∃ t, exec (.switchSave u) s = .next t ∧ (t.tile u).presence = .absent ∧ ∃ j ∈ t.images, j.ctx = s.ioRead (0x08F10000C040 + 128 * p) 2
          ∧ j.tile = u ∧ j.chans = s.chanSet u ∧ j.harts = ([0, 1, 2, 3] : List Nat).map (fun i => s.hart (4 * u + i))
          ∧ j.st.scratch = (s.tile u).scratch ∧ j.st.acc = (s.tile u).acc ∧ j.st.mode = (s.tile u).mode)) ∧
    (∀ (u : Nat) (w : Switch), s.switchOf u .restoring = some (p, w) → (s.tile u).presence ≠ .retired →
      s.ioRead (0x08FA00000000 + 12) 4 = s.ioRead (0x08FA00000000 + 16) 4 →
      let last := ∀ v ∈ w.todo, v = u
      (∀ i, s.images.find? (fun i => i.ctx == w.inctx && i.tile == u) = some i → ¬ last →
        ∃ t, exec (.switchRestore u) s = .next t
          ∧ t.tile u = { i.st with presence := .stopped, born := (s.tile u).born, bad := (s.tile u).bad }
          ∧ (∀ j < 4, t.hart (4 * u + j) = i.harts.getD j {}) ∧ t.chanSet u = i.chans) ∧
      (s.images.find? (fun i => i.ctx == w.inctx && i.tile == u) = none → ¬ last →
        ∃ t, exec (.switchRestore u) s = .next t ∧ (t.tile u).presence = .stopped ∧ (t.tile u).ctx = w.inctx ∧ t.atMonitor u (t.hart (4 * u))) ∧
      (last → s.crashed = false → s.switches.find? (fun x => x.1 == p) = some (p, w) → ∃ t, exec (.switchRestore u) s = .next t ∧ status t = 3
        ∧ t.ioRead (0x08F10000C040 + 128 * p) 2 = w.inctx % 2 ^ 16 ∧ t.switch? p = none ∧ (mine u → (t.tile u).presence = .present)))

/-! ## Queues, launches, the hub's tables -/

/-- R269, R270, R271, R272, R294: notifications, the yard's admissions, evictions, ageing and releases, the taking of packets, and the
registration of queues; that a refused registration clears a record that was valid is the model's reading (log 63). -/
def Obligations.Yard : Prop :=
  ∀ (s : State), s.power = .on →
    let waiting := fun (q : Nat) => (s.queue q).st = .waiting
    let mapped := fun (q : Nat) => (s.queue q).st = .mapped
    let raised := fun (u : UQueue) => min ((s.dtime - u.since) / 65536) (7 - u.prio)
    let eff := fun (q : Nat) => (s.queue q).prio + raised (s.queue q)
    let older := fun (q r : Nat) => (s.queue q).since < (s.queue r).since ∨ ((s.queue q).since = (s.queue r).since ∧ q < r)
    let others := fun (t : State) (q : Nat) => ∀ r, r ≠ q → t.queue r = s.queue r
    let becomes := fun (o : Out) (q : Nat) (u : UQueue) => ∃ t, o = .next t ∧ t.queue q = u ∧ others t q ∧ t.events = s.events
    (∀ (q : Nat) (v : Word),
      let u := s.queue q
      let o := exec (.notifyWrite q v) s
      ((u.valid = false ∨ u.st = .overrun ∨ v.toNat ≤ u.widx.toNat) → o = .next s) ∧
      (u.valid = true → u.st ≠ .overrun → u.widx.toNat < v.toNat →
        (2 ^ u.sz < (v - u.ridx).toNat → becomes o q { u with st := .overrun }) ∧
        ((v - u.ridx).toNat ≤ 2 ^ u.sz →
          (u.st = .idle → becomes o q { u with widx := v, st := .waiting, since := s.dtime, aged := 0 }) ∧
          (u.st ≠ .idle → becomes o q { u with widx := v })))) ∧
    (∀ q, (waiting q → exec (.yardPriorityAge q) s = .next (s.setQueue q { s.queue q with aged := raised (s.queue q) })) ∧
      (¬ waiting q → exec (.yardPriorityAge q) s = .next s)) ∧
    ((s.queues.map (·.1)).Nodup →
      ((∀ q, ¬ waiting q) → exec .yardAdmit s = .next s) ∧
      (∀ q, waiting q → (∀ r, waiting r → r ≠ q → eff r < eff q ∨ (eff r = eff q ∧ older q r)) →
        let full := 32 ≤ (s.queues.filter (fun x => x.2.st == .mapped)).length
        let slot := fun (t : State) => t.queue q = { s.queue q with st := .mapped, since := s.dtime, busyAt := s.dtime, aged := 0 }
        (¬ full → ∃ t, exec .yardAdmit s = .next t ∧ slot t ∧ ∀ r, r ≠ q → (t.queue r).st = (s.queue r).st) ∧
        (full → ∀ r, mapped r → (s.queue r).prio < eff q →
          (∀ w, mapped w → w ≠ r → (s.queue r).prio < (s.queue w).prio ∨ ((s.queue r).prio = (s.queue w).prio ∧ older r w)) →
          ∃ t, exec .yardAdmit s = .next t ∧ slot t ∧ (t.queue r).st = .waiting ∧ (t.queue r).since = s.dtime
            ∧ ∀ w, w ≠ q → w ≠ r → (t.queue w).st = (s.queue w).st) ∧
        (full → (∀ r, mapped r → eff q < (s.queue r).prio ∨ (eff q = (s.queue r).prio ∧ s.dtime < (s.queue r).since + 0x100000)) →
          ∃ t, exec .yardAdmit s = .next t ∧ ∀ r, (t.queue r).st = (s.queue r).st))) ∧
    (∀ q, let u := s.queue q
      let idle := u.st = .mapped ∧ u.ridx = u.widx ∧ u.busyAt + 4096 ≤ s.dtime
      (idle → becomes (exec (.yardIdleRelease q) s) q { u with st := .idle }) ∧ (¬ idle → exec (.yardIdleRelease q) s = .next s)) ∧
    (∀ q, let u := s.queue q
      (¬ (u.st = .mapped ∧ u.ridx.toNat < u.widx.toNat) → exec (.packetTake q) s = .next s) ∧
      (u.st = .mapped → u.ridx.toNat < u.widx.toNat → ∀ b, s.hubRead u.ctx (u.hdr.toNat + 64 + u.ridx.toNat % 2 ^ u.sz * 64) 64 = (.ok b, s) →
        ∃ t, exec (.packetTake q) s = .next t ∧ t.events = s.events ++ [⟨q, u.ridx, u.ctx, b⟩]
          ∧ t.queue q = { u with ridx := u.ridx + 1, busyAt := s.dtime } ∧ others t q)) ∧
    (s.memoriesWf → ∀ q, q < 1024 →
      let e := 0x08F000000000 + 32 * q
      let hdr := s.ioRead e 8
      let sz := s.ioRead (e + 8) 1
      let prio := s.ioRead (e + 9) 1
      let bad := hdr % 64 ≠ 0 ∨ sz < 4 ∨ 16 < sz ∨ 7 < prio
      (bad → ∃ t, exec (.queueRegister q) s = .next t ∧ t.queue q = {} ∧ t.ioRead (e + 11) 1 = 0 ∧ others t q) ∧
      (¬ bad → ∃ t, exec (.queueRegister q) s = .next t ∧ t.ioRead (e + 11) 1 = 1 ∧ others t q
        ∧ t.queue q = { valid := true, hdr := BitVec.ofNat 64 hdr, sz := sz, prio := prio, ctx := s.ioRead (e + 10) 1 }) ∧
      (∃ t, exec (.queueRemove q) s = .next t ∧ t.queue q = {} ∧ t.ioRead (e + 11) 1 = 0 ∧ others t q))

/-- R272, R274, R276, R277, R278, R282, R284, R395, R399: the signal box takes packets, those of one queue in ring order; a launch that may start
takes the free tiles of the lowest corner's rectangle (CONCURRENT), or those that are free, writes NEXT and PART of its card, and gives each
its place and task record; more parts follow as tiles are free; the monitor enters when a part has ended; a launch completes when all have,
and ends early on request. A completion leads on the successors of its record, each READY at zero, and then adds 1 to its signal. A launch with a
handoff takes its predecessor's tile when that is free, and finds the region there as it was, also where another launch had the tile in between
(log 105); a member
whose part ends with a PHASE pending leaves it to the others (R255). The model's readings: which launch waits for a resident context (log 58),
what an ended part loses (log 62), and which event goes first (log 53). -/
def Obligations.Launches : Prop :=
  ∀ (s : State), s.power = .on →
    (s.events = [] → exec .signalBoxEvent s = .next s) ∧
    (s.events ≠ [] → ∃ t pre e post, exec .signalBoxEvent s = .next t ∧ s.events = pre ++ e :: post ∧ t.events = pre ++ post
      ∧ ∀ f ∈ pre, f.queue ≠ e.queue) ∧
    (∀ e es, s.turn = 0 → s.events = e :: es →
      (s.recCheck e.ctx e.packet true = 0 → ∃ t l, exec .signalBoxEvent s = .next t ∧ t.events = es ∧ t.launch? s.nextLaunch = some l
        ∧ t.nextLaunch = s.nextLaunch + 1 ∧ l.ctx = e.ctx ∧ l.queue = some (e.queue, e.index) ∧ l.bytes = e.packet ∧ l.begun = false
        ∧ l.tiles = [] ∧ ∀ n, n ≠ s.nextLaunch → t.launch? n = s.launch? n) ∧
      (s.recCheck e.ctx e.packet true ≠ 0 → ∃ t, exec .signalBoxEvent s = .next t ∧ t.events = es
        ∧ ∀ n, n ≠ 0 → t.launch? n = s.launch? n)) ∧
    (∀ n, (s.launch? n = none ∨ s.crashed = true) → exec (.launchPlace n) s = .next s) ∧
    (∀ n l, s.launch? n = some l → l.begun = false → l.ending = false → s.crashed = false → Rec.kind l.bytes = 1 →
      s.mayStart n l = true → s.resident l.ctx = true →
      let free := fun (u : Nat) => u ∈ s.partTiles l.ctx ∧ s.tileFree u = true
      let w := Rec.width l.bytes
      let h := Rec.height l.bytes
      let rect := fun (k : Nat) => (List.range h).flatMap (fun r => (List.range w).map (fun c => k + 16 * r + c))
      let fits := fun (k : Nat) => k % 16 + w ≤ 16 ∧ k / 16 + h ≤ 32 ∧ ∀ u ∈ rect k, free u
      let starts := fun (ts : List Nat) => ∀ card s1, ts ≠ [] → s.hubRead l.ctx (Rec.card l.bytes) 64 = (.ok card, s) →
        Card.on card = false → coverBad card = false →
        s.hubWrite l.ctx (Rec.card l.bytes + 32) (leBytes 8 0 ++ leBytes 4 (l.size * Rec.strands l.bytes)) = (none, s1) →
        ∃ t l', exec (.launchPlace n) s = .next t ∧ t.launch? n = some l' ∧ l'.begun = true ∧ l'.tiles = l.tiles ++ ts ∧ l'.card = card
          ∧ t.mem = s1.mem ∧ (∀ i, l.record = some i → (t.depot l.ctx i).st = .running) ∧ ∀ u ∈ ts, (t.tile u).launch = some n
      (∀ u r, l.handoff = some (u, r) → (free u → starts [u]) ∧ (¬ free u → exec (.launchPlace n) s = .next s)) ∧
      (l.handoff = none → recClass l.bytes = 2 →
        ((∀ k < 512, ¬ fits k) → exec (.launchPlace n) s = .next s) ∧
        (∀ k < 512, fits k → (∀ j < k, ¬ fits j) → starts (rect k))) ∧
      (l.handoff = none → recClass l.bytes ≠ 2 → ∀ ts, ts = ((s.partTiles l.ctx).filter s.tileFree).take (l.size - l.tiles.length) →
        (ts = [] → exec (.launchPlace n) s = .next s) ∧ starts ts)) ∧
    (∀ (b : List Byte) (pos : Nat), recClass b = 2 →
      let size := Rec.width b * Rec.height b
      let g := Rec.groups b
      dommemAt b pos = BitVec.ofNat 64 (16 + 2 ^ 57 * Rec.chlvl b + 2 ^ 9 * (pos * g / size) + 2 ^ 15 * (pos % (size / g)) + 2 ^ 24 * (size / g)
        + 2 ^ 34 * pos + 2 ^ 43 * size)) ∧
    (∀ (n : Nat) (l : Launch) (pos u : Nat), ((s.bind n l pos u).tile u).dommem = dommemAt l.bytes pos) ∧
    (s.memoriesWf → ∀ (n : Nat) (l : Launch) (pos u : Nat) (r : BitVec 32), l.handoff = some (u, r) →
      let lo := r.toNat % 2 ^ 20
      let size := r.toNat / 2 ^ 20 * 256
      let byte := fun (off : Nat) => memGet ((s.bind n l pos u).tile u).scratch off
      (l.region = none → ∀ off, lo ≤ off → off < lo + size → off < scratchSize → byte off = memGet (s.tile u).scratch off) ∧
      (∀ b, l.region = some b → b.length = size → ∀ off, lo ≤ off → off < lo + size → off < scratchSize → some (byte off) = b[off - lo]?)) ∧
    (∀ n l, s.launch? n = some l → l.begun = true → l.ending = false → s.crashed = false → Rec.kind l.bytes = 1 → recClass l.bytes ≠ 2 →
      l.handoff = none → l.bytes.length = 64 →
      let ts := ((s.partTiles l.ctx).filter s.tileFree).take (l.size - l.tiles.length)
      (s.resident l.ctx = false → exec (.launchPlace n) s = .next s) ∧
      (s.resident l.ctx = true → ts = [] → exec (.launchPlace n) s = .next s) ∧
      (s.resident l.ctx = true → ts ≠ [] → ∃ t, exec (.launchPlace n) s = .next t ∧ t.launch? n = some { l with tiles := l.tiles ++ ts }
        ∧ (∀ u, u ∉ ts → t.tile u = s.tile u)
        ∧ ∀ u ∈ ts, let y := t.tile u
          y.launch = some n ∧ y.ctx = l.ctx ∧ y.mode = (if Rec.shared l.bytes = true then 3 else 2)
          ∧ y.dommem = BitVec.ofNat 64 (16 + 2 ^ 57 * Rec.chlvl l.bytes) ∧ (∀ i : Fin 4, y.gen[i] = 0)
          ∧ (∀ off, memGet y.scratch off = 0) ∧ (∀ i < 4, (t.hart (4 * u + i)).latch = true)
          ∧ ∃ r, y.inbox = (s.tile u).inbox ++ [r] ∧ r.length = 64 ∧ field r 0 8 = Card.entry l.card ∧ field r 8 6 = Rec.card l.bytes
            ∧ field r 16 4 = 0 ∧ field r 20 1 = Rec.strands l.bytes ∧ r.drop 32 = l.bytes.drop 32)) ∧
    (∀ t, ((s.tile t).launch = none → exec (.monitorEntry t) s = .next s) ∧
      (∀ n l, (s.tile t).launch = some n → s.launch? n = some l →
        let p := (s.tile t).presence
        let ended := l.ending = false ∧ (p = .present ∨ p = .retired) ∧ s.partDone t = true
        (¬ ended → exec (.monitorEntry t) s = .next s) ∧
        (ended → ∃ u, exec (.monitorEntry t) s = .next u ∧ u.launch? n = some { l with ended := l.ended + 1 }
          ∧ (p = .present → u.atMonitor t (u.hart (4 * t)) ∧ (u.tile t).mode.getLsbD 1 = true)
          ∧ (p = .retired → u.tile t = { s.tile t with launch := none } ∧ u.harts = s.harts)
          ∧ (∀ v, v ≠ t → u.tile v = { s.tile v with marks := (u.tile v).marks })
          ∧ (∀ lv ∈ [Level.group, .domain], ∀ v ∈ s.members t lv, v ≠ t → (s.tile v).launch = some n →
              (∀ i ∈ s.images, i.tile = v → i.st.launch ≠ some n) →
              ∀ g, g ∈ (u.tile v).marks[lv.idx] ↔ g ∈ (s.tile v).marks[lv.idx] ∨ g ∈ (s.tile t).marks[lv.idx])))) ∧
    (∀ n l, s.launch? n = some l →
      let complete := l.ending = false ∧ l.begun = true ∧ l.tiles.length = l.size ∧ l.ended = l.size
      let completes := fun (o : Out) (status : BitVec 8) (also : State → Prop) =>
        (l.record = none → Rec.sig l.bytes = 0 → ∃ t, o = .next t ∧ t.launch? n = none ∧ t.depots = s.depots ∧ also t) ∧
        (∀ i, l.record = some i → Rec.succ (s.depot l.ctx i).bytes = [] → Rec.sig (s.depot l.ctx i).bytes = 0 →
          ∃ t, o = .next t ∧ t.launch? n = none ∧ also t
            ∧ t.depot l.ctx i = { s.depot l.ctx i with st := .idle, dones := (s.depot l.ctx i).dones + 1, status := status })
      (¬ complete → exec (.launchCompletion n) s = .next s) ∧
      (complete → Card.on l.card = false → n < s.nextLaunch →
        let o := exec (.launchCompletion n) s
        let signals := fun (v : Nat) (t : State) => (v = 0 → t.mem = s.mem) ∧
          (v ≠ 0 → v % 8 = 0 → s.memoriesWf → ∀ pa, pa % 8 = 0 → s.deviceAt (s.hubIn l.ctx) (BitVec.ofNat 64 v) .atomic 8 pa →
            t.bytesAt (.phys pa) 8 = leBytes 8 ((leNat (s.bytesAt (.phys pa) 8) + 1) % 2 ^ 64)
            ∧ ∀ m, (Loc.phys pa).offsetIn 8 m = none → t.byteAt m = s.byteAt m)
        (l.record = none → ∃ t, o = .next t ∧ t.launch? n = none ∧ t.depots = s.depots ∧ signals (Rec.sig l.bytes) t) ∧
        (∀ i, l.record = some i →
          let r := s.depot l.ctx i
          let js := Rec.succ r.bytes
          let x := fun (j : Nat) => s.depot l.ctx j
          let hand := l.tiles.head?.map (fun u => (u, Card.rreg l.card))
          js.Nodup → i ∉ js → (∀ j ∈ js, j < (s.ctx l.ctx).drecs ∧
            ((x j).st = .idle ∨ ((x j).st = .armed ∧ ((x j).cnt ≤ 1 → s.recCheck l.ctx (x j).bytes false = 0)))) →
          ∃ t, o = .next t ∧ t.launch? n = none ∧ signals (Rec.sig r.bytes) t
            ∧ t.depot l.ctx i = { r with st := .idle, dones := r.dones + 1, status := 0 }
            ∧ (∀ j ∈ js, (x j).st = .idle → t.depot l.ctx j = { x j with early := (x j).early + 1 })
            ∧ (∀ j ∈ js, (x j).st = .armed → 1 < (x j).cnt → t.depot l.ctx j = { x j with cnt := (x j).cnt - 1 })
            ∧ (∀ j ∈ js, (x j).st = .armed → (x j).cnt ≤ 1 →
                let h := if Rec.handoff (x j).bytes = true then hand else none
                t.depot l.ctx j = { x j with cnt := 0, st := .ready, readyAt := s.dtime, handoff := h }
                ∧ ∃ m y, t.launch? m = some y ∧ y.ctx = l.ctx ∧ y.record = some j ∧ y.bytes = (x j).bytes ∧ y.begun = false ∧ y.handoff = h)
            ∧ ∀ j, j ∉ js → j ≠ i → t.depot l.ctx j = x j)) ∧
      (l.ending = false → exec (.launchEndDone n) s = .next s) ∧
      (l.ending = true → completes (exec (.launchEndDone n) s) l.status (fun t =>
        ∀ u ∈ l.tiles, u < 512 → (s.tile u).launch = some n → t.atMonitor u (t.hart (4 * u))))) ∧
    (s.memoriesWf → ∀ v : Word,
      let i := v.toNat % 4096
      let c := v.toNat / 4096
      let echo := fun (t : State) => t.ioRead 0x08F300000008 8
      (2 ^ 20 ≤ v.toNat → exec (.endRequest v) s = .next s) ∧
      (v.toNat < 2 ^ 20 → ((s.ctx c).drecs ≤ i ∨ (s.depot c i).st ≠ .running) →
        ∃ t, exec (.endRequest v) s = .next t ∧ echo t = v.toNat ∧ t = { s with io := t.io }) ∧
      (v.toNat < 2 ^ 20 → i < (s.ctx c).drecs → (s.depot c i).st = .running → ∀ n l u, s.launch? n = some l →
        s.launches.find? (fun m => m.2.ctx == c && m.2.record == some i && m.2.begun && !m.2.ending) = some (n, l) →
        l.ended + (l.tiles.eraseDups.filter (fun v => (s.tile v).launch == some n || s.images.any (fun i => i.tile == v && i.st.launch == some n))).length
          ≤ l.size →
        u ∈ l.tiles → (s.tile u).launch = some n → (∀ i ∈ s.images, i.tile = u → i.st.launch ≠ some n) → s.partDone u = false →
        ∃ t, exec (.endRequest v) s = .next t ∧ echo t = v.toNat + 2 ^ 20 ∧ t.launch? n = some { l with ending := true, status := 0xF0 }
          ∧ (∀ j < 4, (t.hart (4 * u + j)).run = .inactive) ∧ (t.tile u).inbox = [] ∧ (t.tile u).cmds = [] ∧ (t.tile u).locks = []
          ∧ (∀ i ∈ t.images, i.st.launch ≠ some n)))

/-- R240, R281, R294, R295, R296, R315, R375, R400: stores to the hub's tables: contexts and their depots, partitions, roots, event frames, the
package's number, and fields without a behaviour of their own. The model's readings: a refused registration leaves a context invalid
(log 63), and a store to a root frame that would set a reserved bit is ignored as a whole (log 65). -/
def Obligations.HubTables : Prop :=
  ∀ (s : State), s.power = .on → s.memoriesWf →
    let sameIo := fun (t : State) => t = { s with io := t.io }
    (∀ c, c < 256 →
      let e := 0x08F100000000 + 128 * c
      let depot := s.ioRead e 8
      let drecs := s.ioRead (e + 8) 2
      let ring := s.ioRead (e + 16) 8
      let part := s.ioRead (e + 24) 1
      let bad := (depot ≠ 0 ∧ (depot % 64 ≠ 0 ∨ drecs = 0 ∨ 4096 < drecs)) ∨ ring % 64 ≠ 0 ∨ 15 < part
      let o := exec (.contextRegister c) s
      let n := if depot = 0 then 0 else drecs
      (bad → ∃ t, o = .next t ∧ (t.ctx c).valid = false ∧ t.ioRead (e + 25) 1 = 0 ∧ ∀ d, d ≠ c → t.ctx d = s.ctx d) ∧
      (¬ bad → ∀ bs, s.readDepot c depot n = (some bs, s) → ∃ t, o = .next t ∧ t.ioRead (e + 25) 1 = 1
        ∧ t.ctx c = { s.ctx c with valid := true, depot := BitVec.ofNat 64 depot, drecs := n, callring := BitVec.ofNat 64 ring, part := part }
        ∧ (∀ i < n, t.depot c i = { bytes := bs.getD i [] })
        ∧ (∀ m ∈ t.launches, ¬ (m.2.ctx = c ∧ m.2.record.isSome = true ∧ m.2.begun = false)) ∧ ∀ d, d ≠ c → t.ctx d = s.ctx d) ∧
      (let busy := ∃ i < (s.ctx c).drecs, (s.depot c i).st = .ready ∨ (s.depot c i).st = .running
       (busy → exec (.contextUnregister c) s = .next s) ∧
       (¬ busy → ∃ t, exec (.contextUnregister c) s = .next t ∧ t.ctx c = { s.ctx c with valid := false } ∧ t.ioRead (e + 25) 1 = 0
        ∧ ∀ d, d ≠ c → t.ctx d = s.ctx d))) ∧
    (∀ p j (v : Word), p < 16 → j < 8 →
      let map := fun (t : State) (q : Nat) => t.ioRead (0x08F10000C000 + 128 * q) 64
      let old := map s p
      let new := old - old / 2 ^ (64 * j) % 2 ^ 64 * 2 ^ (64 * j) + v.toNat * 2 ^ (64 * j)
      let refused := (∃ q < 16, q ≠ p ∧ map s q &&& new ≠ 0) ∨ (new ≠ old ∧ ∃ u < 512, old.testBit u = true ∧ (s.tile u).launch.isSome = true)
      (refused → exec (.partitionWrite p (8 * j) 8 v) s = .next s) ∧
      (¬ refused → ∃ t, exec (.partitionWrite p (8 * j) 8 v) s = .next t ∧ sameIo t ∧ map t p = new ∧ ∀ q < 16, q ≠ p → map t q = map s q)) ∧
    (∀ c (v : Word), c < 16 →
      let e := 0x08FF00000000 + c * 0x10000
      (s.ioRead (e + 10) 6 = 0 →
        (v.toNat % 2 ^ 16 ≠ 0 → exec (.rootWrite e 8 v) s = .next s) ∧
        (v.toNat % 2 ^ 16 = 0 → ∃ t, exec (.rootWrite e 8 v) s = .next t ∧ sameIo t ∧ t.ioRead e 8 = v.toNat ∧ t.ioRead (e + 8) 8 = s.ioRead (e + 8) 8)) ∧
      (s.ioRead e 2 = 0 →
        (2 ^ 16 ≤ v.toNat → exec (.rootWrite (e + 8) 8 v) s = .next s) ∧
        (v.toNat < 2 ^ 16 → ∃ t, exec (.rootWrite (e + 8) 8 v) s = .next t ∧ sameIo t ∧ t.ioRead (e + 8) 8 = v.toNat ∧ t.ioRead e 8 = s.ioRead e 8))) ∧
    (∀ (k : Kernel) (m : Bool) (v : Word),
      let b := 0x08FE00000000 + k.code * 0x10000
      let core := v.toNat % 32
      (∃ t, exec (.eventFrameWrite k m 0 8 v) s = .next t ∧ sameIo t ∧ t.ioRead b 8 = v.toNat) ∧
      (∀ off ∈ [16, 20], ∃ t, exec (.eventFrameWrite k m off 4 v) s = .next t ∧ sameIo t ∧ ∀ i < 64, t.ioRead (b + i) 1 = s.ioRead (b + i) 1) ∧
      (∃ t, exec (.eventFrameWrite k m 36 1 v) s = .next t ∧ sameIo t ∧ t.ioRead (b + 36) 1 =
        if k ≠ .monitor ∧ core < 16 ∧ Config.gcoreKernel core = k then core else s.ioRead (b + 36) 1)) ∧
    (∀ v : Word,
      (s.bootok = true → exec (.pkgnumWrite v) s = .next s) ∧
      (s.bootok = false → ∃ t, exec (.pkgnumWrite v) s = .next t ∧ sameIo t ∧ t.ioRead 0x08F400000008 8 = v.toNat % 2 ^ 13)) ∧
    (∀ v : Word,
      (∃ t, exec (.hubRegisterWrite 0x08F200000000 8 v) s = .next t ∧ sameIo t ∧ t.ioRead 0x08F200000000 8 = v.toNat) ∧
      (∀ off, off < 0xFFF8 → ∃ t, exec (.hubRegisterWrite (0x08F700000000 + off) 8 v) s = .next t ∧ sameIo t ∧ ∀ a, memGet t.io a = memGet s.io a) ∧
      (∀ p < 16, let f := 0x08FB00000000 + p * 0x10000
        ((s.switch? p).isSome = true → exec (.hubRegisterWrite (f + 8) 2 v) s = .next s) ∧
        (s.switch? p = none → ∃ t, exec (.hubRegisterWrite (f + 8) 2 v) s = .next t ∧ sameIo t ∧ t.ioRead (f + 8) 2 = v.toNat % 2 ^ 16)))

/-! ## Errors, repairs, the resident kernel -/

/-- R376, R377, R379, R380, R381: corrected errors are counted in their hour, and at the threshold a spare, a repair or a retrained link is taken,
or the part is retired; a read uncorrectable error puts its frame into QUARANTINE or retires its tile; a retired tile's row is remapped; a lost
number has no rows (R12). The model's readings: 512 spare rows a tile and the repairs of a bank (log 16), when the SPARED events come (log 71),
what a remapped tile is (log 74), and that an error is found in the step that reads it (log 77). -/
def Obligations.ErrorsAndRepairs : Prop :=
  ∀ (s : State), s.power = .on →
    (∀ (u : ErrUnit),
      let k := s.dtime / 90000000000
      let column := fun (t : Nat) => ((List.range 17).filter (fun p => !(look [] s.retired (t / 16)).contains p))[t % 16]?
      let place := fun (t : Nat) => 17 * (t / 16) + (column t).getD 17
      let there := match u with
        | .sramRow tl _ => tl < 512 ∧ column tl ≠ none
        | .hbmRow st b _ => st < 8 ∧ b < 32
        | .lane l i => l < 16 ∧ i < 8
      let c := match u with
        | .sramRow tl row => ErrUnit.sramRow (place tl) row
        | v => v
      let n := s.errCount c k + 1
      let limit := match u with | .sramRow .. => 4 | .hbmRow .. => 8 | .lane .. => 16
      let o := exec (.correctedError u) s
      (¬ there → o = .next s) ∧
      (there → n < limit → ∃ t, o = .next t ∧ t = { s with buckets := t.buckets } ∧ t.errCount c k = n
        ∧ ∀ w, w ≠ c → ∀ j, t.errCount w j = s.errCount w j) ∧
      (there → limit ≤ n → ∃ t, o = .next t ∧ (∀ j, t.errCount c j = 0)
        ∧ (match u with
          | .sramRow tl row =>
            if look 0 s.spares (place tl) < 512 then
              look 0 t.spares (place tl) = look 0 s.spares (place tl) + 1 ∧ t.sparing = s.sparing ++ [(place tl, row)]
            else (t.tile tl).presence = .retired
          | .hbmRow st b row =>
            look 0 s.repairs (st + 8 * b) < Config.hbmRepairs st b →
              look 0 t.repairs (st + 8 * b) = look 0 s.repairs (st + 8 * b) + 1 ∧ t.repairing = s.repairing ++ [(st, b, row)]
          | .lane l i =>
            if (s.link l).lanes = 8 then t.link l = { s.link l with lanes := 7, retrain := true, lane := i } else (t.link l).up = false)) ∧
      (∀ tl row, ((column tl = none ∨ (place tl, row) ∉ s.sparing) → exec (.rowSpareDone tl row) s = .next s) ∧
        (column tl ≠ none → (place tl, row) ∈ s.sparing → exec (.rowSpareDone tl row) s =
          .next ({ s with sparing := s.sparing.erase (place tl, row) }.mgmtEvent .monitor 3 0 tl 0 0)))) ∧
    (∀ st b row, ((st, b, row) ∉ s.repairing → exec (.hbmRepairDone st b row) s = .next s) ∧
      ((st, b, row) ∈ s.repairing → exec (.hbmRepairDone st b row) s =
        .next ({ s with repairing := s.repairing.erase (st, b, row) }.mgmtEvent .monitor 3 0 (st + 8 * b) 0 0))) ∧
    (∀ l, ((s.link l).retrain = false → exec (.linkRetrainDone l) s = .next s) ∧
      ((s.link l).retrain = true → exec (.linkRetrainDone l) s =
        .next ((s.setLink l { s.link l with retrain := false }).mgmtEvent .monitor 3 0 (l + 16 * (s.link l).lane) 0 0))) ∧
    (∀ g, g < 2 ^ 54 → physKind (64 * g) ≠ .io →
      (g ∉ s.bad → exec (.uncorrectableError g) s = .next s) ∧
      (∀ e, g ∈ s.bad → s.wb (g / 1024) = some e → ∃ t e', exec (.uncorrectableError g) s = .next t ∧ t.wb (g / 1024) = some e' ∧ wbState e' = 5
        ∧ (wbState e ≠ 5 → ∀ x ∈ t.tlb, ¬ (x.pa ≤ g / 1024 * 0x10000 ∧ g / 1024 * 0x10000 < x.pa + 2 ^ x.sz))
        ∧ (∀ f, f ≠ g / 1024 → t.wb f = s.wb f)) ∧
      (64 * g < 0x00C000000000 → exec (.patrolScrub g) s = exec (.uncorrectableError g) s) ∧
      (0x00C000000000 ≤ 64 * g → exec (.patrolScrub g) s = .next s)) ∧
    (∀ u k, k < 0x3000 →
      let o := exec (.uncorrectableError (2 ^ 54 + u * 2 ^ 14 + k)) s
      (k ∉ (s.tile u).bad → o = .next s) ∧
      (k ∈ (s.tile u).bad → ∃ t, o = .next t ∧ (t.tile u).presence = .retired ∧ (s.memoriesWf → (s.tile u).presence ≠ .retired → t.pending u = true)
        ∧ ∀ v, v ≠ u → t.tile v = s.tile v)) ∧
    (∀ t, t < 512 →
      let row := t / 16
      let gone := look [] s.retired row
      let holds := fun (u : Nat) => ∃ m ∈ s.launches, u ∈ m.2.tiles
        ∧ (recClass m.2.bytes = 2 ∨ (s.tile u).launch = some m.1 ∨ ∃ i ∈ s.images, i.tile = u ∧ i.st.launch = some m.1)
      let phys := fun (gone : List Nat) (c : Nat) => ((List.range 17).filter (fun p => !gone.contains p))[c]?
      (∀ f, phys gone (t % 16) = some f →
        let moves := fun (c : Nat) => c < 16 ∧ phys gone c ≠ phys (gone ++ [f]) c
        ((t ∉ s.pendingRet ∨ holds t ∨ ∃ c, moves c ∧ holds (16 * row + c)) → exec (.tileRemap t) s = .next s) ∧
        (t ∈ s.pendingRet → ¬ holds t → (∀ c, moves c → ¬ holds (16 * row + c)) → (∀ u ∈ s.pendingRet, u / 16 = row → u = t) →
          ∃ u, exec (.tileRemap t) s = .next u ∧ look [] u.retired row = gone ++ [f] ∧ t ∉ u.pendingRet
            ∧ (s.memoriesWf → u.ioRead 0x08F700000000 8 = (s.ioRead 0x08F700000000 8 + 1) % 2 ^ 64)
            ∧ (∀ c, moves c → phys (gone ++ [f]) c = none → (u.tile (16 * row + c)).presence = .retired)
            ∧ (∀ c, moves c → phys (gone ++ [f]) c ≠ none → (∀ off, memGet (u.tile (16 * row + c)).scratch off = 0)
                ∧ (let p := (s.tile (16 * row + c)).presence
                   (u.tile (16 * row + c)).presence = if p = .retired then (if s.crashed = true then .crashed else .present) else p)
                ∧ u.atMonitor (16 * row + c) (u.hart (4 * (16 * row + c))))
            ∧ (∀ w, (∀ c, moves c → w ≠ 16 * row + c) → u.tile w = s.tile w))))

/-- R382, R383, R384, R388: the watchdog; a crash of the resident kernel freezes every partition and resets its cores, and at the third ends every
context and frees the kernel's frames; adoption extends MEAS4 and starts the cores with x10 on a warm start; RESUME lets the partitions go on.
The model's readings: the expiry passes FROZEN and comes to REBOOT in one step (log 73), FAILS stays at 3 (log 72), and the values that an
adoption leaves (log 38). -/
def Obligations.ResidentKernel : Prop :=
  ∀ (s : State), s.power = .on →
    let rstate := fun (t : State) => t.ioRead 0x08F50000000A 1 % 4
    let fails := fun (t : State) => t.ioRead 0x08F50000000A 1 / 4 % 4
    let period := fun (t : State) => t.ioRead 0x08F500000008 2
    let due := (rstate s = 0 ∧ s.beatAt + period s * 1500000 ≤ s.dtime) ∨ ∃ c d, 12 ≤ c ∧ c < 16 ∧ (s.hart (2048 + c)).run = .frozen d
    let f := min 3 (fails s + 1)
    exec .watchdogBeat s = .next { s with beatAt := s.dtime } ∧
    (¬ due → exec .watchdogExpiry s = .next s) ∧
    (rstate s ≠ 2 → exec .residentAdopt s = .next s) ∧
    (rstate s ≠ 3 → exec .residentResume s = .next s) ∧
    (∀ v : Word, ¬ (10 ≤ v.toNat % 2 ^ 14 ∧ v.toNat % 2 ^ 14 ≤ 10000) → exec (.watchdogPeriodWrite v) s = .next s) ∧
    (s.memoriesWf →
      (∀ v : Word, 10 ≤ v.toNat % 2 ^ 14 → v.toNat % 2 ^ 14 ≤ 10000 →
        ∃ t, exec (.watchdogPeriodWrite v) s = .next t ∧ period t = v.toNat % 2 ^ 14 ∧ t = { s with io := t.io }) ∧
      (due → ∃ t, exec .watchdogExpiry s = .next t ∧ rstate t = 2 ∧ fails t = f
        ∧ (∀ c, 12 ≤ c → c < 16 → (t.hart (2048 + c)).run = .inactive)
        ∧ (f < 3 → (∀ u, let here := (s.tile u).presence
              let mine := ∃ p < 16, u < 512 ∧ (s.ioRead (0x08F10000C000 + 128 * p) 64).testBit u = true
              (here = .present ∧ mine → (t.tile u).presence = .crashed) ∧ (¬ (here = .present ∧ mine) → (t.tile u).presence = here))
            ∧ t.launches = s.launches ∧ t.ctxs = s.ctxs ∧ t.mem = s.mem)
        ∧ (f = 3 → t.launches = [] ∧ t.images = [] ∧ ∀ c, (t.ctx c).valid = false)
        ∧ (f = 3 → s.launches = [] → s.worn = [] → s.elemsWait = false → ∀ g e, s.wb g = some e → wbOwner e = Kernel.resident.code → wbLocked e = false →
            1 ≤ wbState e → wbState e ≤ 4 → ∃ e', t.wb g = some e' ∧ wbState e' = 0 ∧ wbOwner e' = 0 ∧ wbKey e' = 0
              ∧ ∀ pa, pa / 0x10000 = g → t.byteAt (.phys pa) = 0)) ∧
      (rstate s = 2 → ∃ t, exec .residentAdopt s = .next t ∧ rstate t = 3 ∧ fails t = fails s ∧ (∃ m, t.meas = s.meas.set 4 (sha384 s.meas[4] m))
        ∧ ∀ c, 12 ≤ c → c < 16 → (t.hart (2048 + c)).run = .running
          ∧ (fails s < 3 → (t.hart (2048 + c)).x[10] = BitVec.ofNat 64 (s.ioRead 0x08F500000010 6))
          ∧ (t.hart (2048 + c)).priv = (s.hart (2048 + c)).priv) ∧
      (rstate s = 3 → ∃ t, exec .residentResume s = .next t ∧ rstate t = 0 ∧ fails t = 0 ∧ t.beatAt = s.dtime ∧ t.finals = []
        ∧ (s.finals = [] → t.mem = s.mem)
        ∧ ∀ u < 512, (t.tile u).presence = if (s.tile u).presence = .crashed then .present else (s.tile u).presence))

/-! ## The package as a whole -/

/-- R316, R317, R388, R389, R390, R392: resets, which fill the key store anew, so that HBM, which is zeroed before a cold one (the model's choice,
log 3) and keeps its bytes over a warm one, reads through a key that they were not written under (log 68); starts that fail for their
reasons, safelight mode after the third, BOOTOK, measurements, each SHA-384 of the old value and a free one, and the answers of the sideband
port with their contents: version 1.3, ECDSA P-384, SHA-384, slot 0 (log 15). The model's readings: what a reset keeps (log 30), that STARTS stays
at 3, is cleared on leaving safelight mode, and what a boot timeout does (log 72). -/
def Obligations.PackageStarts : Prop :=
  ∀ (s : State),
    let reason := fun (t : State) => t.ioRead 0x08F400000000 1
    let starts := fun (t : State) => t.ioRead 0x08F400000001 1 % 4
    let safe := fun (t : State) => t.ioRead 0x08F400000001 1 / 4 % 2
    let fresh := fun (t : State) => t.harts = [] ∧ t.dtime = 0 ∧ t.ctxs = [] ∧ t.queues = [] ∧ t.launches = [] ∧ t.waybill = [] ∧ t.tlb = []
      ∧ t.meas = Vector.replicate 16 0 ∧ t.worn = s.worn ∧ t.retired = s.retired ∧ t.spares = s.spares ∧ t.repairs = s.repairs ∧ t.bootok = false
      ∧ t.keyFill = s.keyFill + 1
    let failsFrom := fun (o : Out) (r n : Nat) => ∃ t, o = .next t ∧ reason t = r ∧ fresh t ∧ starts t = min 3 (n + 1)
      ∧ (2 ≤ n → t.power = .safelight ∧ safe t = 1) ∧ (n < 2 → t.power ≠ .safelight ∧ safe t = 0)
    let fails := fun (o : Out) (r : Nat) => failsFrom o r (starts s)
    let replied := fun (o : Out) (r : Reply) => o = .next { s with replies := s.replies ++ [r] }
    let replies := fun (i : Instr) (r : Reply) => replied (exec i s) r
    let answers := fun (i : Instr) (r : Reply) => (s.spdm = 3 → replies i r) ∧ (s.spdm ≠ 3 → replies i .unexpected)
    (s.power = .on → s.bootok = true → ∃ t, exec .coldReset s = .next t ∧ fresh t ∧ t.power = .on ∧ t.mem = [] ∧ starts t = starts s
      ∧ ∀ pa < 0x00C000000000, t.byteAt (.phys pa) =
          ((Config.decrypt (Config.randomKey (s.keyFill + 1) 0 0) (BitVec.ofNat 42 (pa / 64))
            (Config.encrypt (Config.randomKey s.keyFill 0 (look 0 s.keyGen 0)) (BitVec.ofNat 42 (pa / 64)) 0)) >>> (8 * (pa % 64))).setWidth 8) ∧
    (s.power = .on → s.bootok = false → fails (exec .coldReset s) 9) ∧
    (s.power = .safelight → safe s = 1 →
      ∃ t, exec .coldReset s = .next t ∧ fresh t ∧ t.power = .on ∧ starts t = 0 ∧ safe t = 0 ∧ reason t = reason s) ∧
    (s.power = .off → s.trips = [] → ∃ t, exec .coldReset s = .next t ∧ fresh t ∧ t.power = .on ∧ safe t = 0) ∧
    (s.power = .off → s.trips ≠ [] → failsFrom (exec .coldReset s) 6 (if safe s = 1 then 0 else starts s)) ∧
    (s.power ≠ .off → ∃ t, exec .warmReset s = .next t ∧ fresh t ∧ t.power = s.power ∧ starts t = starts s
      ∧ t.mem = s.mem ∧ ∀ e ∈ s.sealed, e ∈ t.sealed) ∧
    (∀ r, s.power = .on →
      (s.bootok = false → (r = 1 ∨ r = 2 ∨ r = 3 ∨ r = 4 ∨ r = 8) → fails (execStartFails r s) r) ∧
      (s.bootok = true → execStartFails r s = .next s)) ∧
    (∀ i : Fin 16, s.power = .on → i ≠ 7 → ∃ m, execMeasure i s = .next { s with
      meas := s.meas.set i (sha384 s.meas[i] m), free := s.free + 1 }) ∧
    (s.power = .safelight → ∃ m, execRecovery s = .next { s with meas := s.meas.set 7 (sha384 s.meas[7] m), free := s.free + 1 }) ∧
    (s.power = .on →
      ((s.bootok = true ∨ s.dtime < 180000000000) → exec .bootTimeout s = .next s) ∧
      (s.bootok = false → 180000000000 ≤ s.dtime → fails (exec .bootTimeout s) 5)) ∧
    (s.power ≠ .off →
      (s.memoriesWf → ∃ t, exec .bootokWrite s = .next t ∧ t = { s with io := t.io } ∧ t.bootok = true ∧ starts t = 0 ∧ safe t = safe s ∧ reason t = reason s) ∧
      (∀ data, replies (.mctpControl data) (.control data)) ∧
      (∀ ty, replies (.sidebandOtherMessage ty) (if ty < 256 then .error else .unsupported)) ∧
      (∀ b : Byte, execResetMessage b s = if b = 1 then exec .warmReset s else if b = 2 then exec .coldReset s
        else .next { s with replies := s.replies ++ [.error] }) ∧
      exec .getVersion s = .next { s with spdm := 1, replies := s.replies ++ [.version 0x13] } ∧
      (s.spdm = 1 → exec .getCapabilities s = .next { s with spdm := 2, replies := s.replies ++ [.capabilities] }) ∧
      (s.spdm ≠ 1 → replies .getCapabilities .unexpected) ∧
      (s.spdm = 2 → exec .negotiateAlgorithms s = .next { s with spdm := 3, replies := s.replies ++ [.algorithms .ecdsaP384 .sha384 .sha384] }) ∧
      (s.spdm ≠ 2 → replies .negotiateAlgorithms .unexpected) ∧
      answers .getDigests (.digests 0 .sha384) ∧ answers .getCertificate (.certificate 0) ∧ answers .challenge (.challengeAuth 0 .ecdsaP384) ∧
      answers (.getMeasurements 0xFF) (.measurements .sha384 s.meas.toList) ∧
      (∀ i : Fin 16, answers (.getMeasurements (i.val + 1)) (.measurements .sha384 [s.meas[i]])))

/-- R315, R375, R385, R386, R391, R392, R393: what an event leaves in its ring; thresholds and die clocks, each held by every sensor whose
reading is past it; heartbeats and links that go down; a
freeze flit, taken and sent; a sensor's reading, of a process monitor, too; the frames of a CXL extent appear and go. The model's readings: the
steps of a clock, 8% and trip reasons (log 72), the numbering of the sensors (log 103), and the job tag, one EXTENT event, heartbeats in DTIME and
when a flit is sent (log 75). -/
def Obligations.PackageMonitoring : Prop :=
  ∀ (s : State), s.power = .on →
    (s.memoriesWf → ∀ (k : Kernel) (kind sub unit addr detail : Nat),
      Recorded s (s.mgmtEvent k kind sub unit addr detail) (0x08F600000000 + k.code * 0x10000) k 0x02
        (leBytes 1 kind ++ leBytes 1 sub ++ leBytes 2 unit ++ leBytes 4 0 ++ leBytes 8 addr ++ leBytes 8 s.dtime ++ leBytes 8 detail)) ∧
    (s.memoriesWf → ∀ (k : Kernel) (kind f other : Nat) (e : BitVec 128),
      Recorded s (s.wbEvent k kind f other e) (0x08FE00000000 + k.code * 0x10000) k 0x01
        (leBytes 8 (f * 0x10000) ++ leBytes 1 kind ++ leBytes 1 other ++ leBytes 2 (wbTag e) ++ leBytes 4 0 ++ leBytes 8 (wbDeadline e)
          ++ leBytes 8 s.dtime)) ∧
    (∀ die idx,
      let c := look {} s.clocks die
      let voltage := fun (e : SensorEvent) => e = .volt5 ∨ e = .volt5Clear ∨ e = .volt8
      let has := fun (e : SensorEvent) => (die < 4 ∧ (voltage e → idx < 8) ∧ (¬ voltage e → idx < 16)) ∨ (die = 4 ∧ ¬ voltage e ∧ idx < 4)
      let n := fun (e : SensorEvent) => 32 * die + (if e = .volt5 ∨ e = .volt5Clear ∨ e = .volt8 then 16 else 0) + idx
      let heeds := fun (e : SensorEvent) (P : State → Prop) => has e → ∃ t v, exec (.sensorThreshold die idx e) s = .next t
        ∧ t.sensors = put s.sensors (n e) v ∧ t.tiles = s.tiles ∧ P t
      let more := fun (l l' : List Nat) (m : Nat) => ∀ k, k ∈ l' ↔ k ∈ l ∨ k = m
      let fewer := fun (l l' : List Nat) (m : Nat) => ∀ k, k ∈ l' ↔ k ∈ l ∧ k ≠ m
      let clock := fun (P : DieClock → Prop) (t : State) => P (look {} t.clocks die) ∧ (∀ d, d ≠ die → look {} t.clocks d = look {} s.clocks d)
        ∧ t.power = .on
      (∀ e, ¬ has e → exec (.sensorThreshold die idx e) s = .next s)
      ∧ heeds .tempWarn (clock fun c' => c' = { c with warm := c'.warm } ∧ more c.warm c'.warm (n .tempWarn)) ∧ heeds .tempWarnClear (clock fun c' => c' = { c with warm := c'.warm } ∧ fewer c.warm c'.warm (n .tempWarn))
      ∧ heeds .tempCritical (clock fun c' => c' = { c with half := c'.half } ∧ more c.half c'.half (n .tempCritical)) ∧ heeds .tempCriticalClear (clock fun c' => c' = { c with half := c'.half } ∧ fewer c.half c'.half (n .tempCritical))
      ∧ heeds .volt5 (clock fun c' => c' = { c with volt := c'.volt } ∧ more c.volt c'.volt (n .volt5)) ∧ heeds .volt5Clear (clock fun c' => c' = { c with volt := c'.volt } ∧ fewer c.volt c'.volt (n .volt5))
      ∧ heeds .tempTrip (fun t => t.power = .off ∧ more s.trips t.trips (n .tempTrip))
      ∧ heeds .tripCool (fun t => t.power = .on ∧ fewer s.trips t.trips (n .tripCool))
      ∧ (has .tripCool → ∃ l, fewer s.trips l (n .tripCool) ∧
          exec (.sensorThreshold die idx .tripCool) { s with power := .off } = .next { s with power := .off, trips := l })
      ∧ heeds .volt8 (fun t => t.power = .off ∧ (s.memoriesWf → t.ioRead 0x08F400000000 1 = 7))
      ∧ (c.warm ≠ [] → exec (.thermalClockStep die) s = .next { s with clocks := put s.clocks die { c with steps := min 15 (c.steps + 1) } })
      ∧ (c.warm = [] → exec (.thermalClockStep die) s = .next s)) ∧
    (∀ l, l < 16 →
      let x := s.link l
      let sends := x.up = true ∧ x.sent + 150000 ≤ s.dtime
      (sends → exec (.heartbeatSend l) s = .next { s.setLink l { x with sent := s.dtime } with linkOut := s.linkOut ++ [.heartbeat l] }) ∧
      (¬ sends → exec (.heartbeatSend l) s = .next s) ∧
      exec (.heartbeatArrival l) s = .next (s.setLink l { x with heard := s.dtime }) ∧
      (x.up = true → x.heard + 75000000 ≤ s.dtime → ∃ t, exec (.linkdown l) s = .next t ∧ (t.link l).up = false ∧ (∀ m, m ≠ l → t.link m = s.link m)) ∧
      ((x.up = false ∨ s.dtime < x.heard + 75000000) → exec (.linkdown l) s = .next s)) ∧
    (∀ tag : Nat, ∃ t, exec (.freezeFlitArrival tag) s = .next t
      ∧ ∀ u, let here := (s.tile u).presence
        let named := ∃ p < 16, Config.jobTag p (s.ioRead (0x08F10000C040 + 128 * p) 2) = tag
          ∧ u < 512 ∧ (s.ioRead (0x08F10000C000 + 128 * p) 64).testBit u = true
        (here = .present ∧ named → (t.tile u).presence = .crashed) ∧ (¬ (here = .present ∧ named) → (t.tile u).presence = here)) ∧
    (∀ p ms, p < 16 →
      let ls := (List.range 16).filter (fun l => (s.link l).up)
      let tag := Config.jobTag p (s.ioRead (0x08F10000C040 + 128 * p) 2)
      step { s with agenda := Move.floodFreeze p :: ms } = .next { s with agenda := ms, linkOut := s.linkOut ++ ls.map (LinkMsg.freeze · tag) }) ∧
    (∀ n ms, (n < 132 → ∃ v, step { s with agenda := Move.sense n :: ms } =
        .next { s with agenda := ms, free := s.free + 1, sensors := put s.sensors n v })
      ∧ (132 ≤ n → step { s with agenda := Move.sense n :: ms } = .next { s with agenda := ms })) ∧
    (∀ port fr n block shared,
      let inside := fun (f : Nat) => fr ≤ f ∧ f < fr + n
      let bad := 4 ≤ port ∨ block % 0x10000 ≠ 0 ∨ block = 0 ∨ n = 0
        ∨ ∃ f, inside f ∧ ¬ (0x10000000 + port * 0x1000000 ≤ f ∧ f < 0x10000000 + (port + 1) * 0x1000000)
      (bad → exec (.extentAdd port fr n block shared) s = .next { s with fabric := s.fabric ++ [.refused fr] }) ∧
      (¬ bad → ∃ t, exec (.extentAdd port fr n block shared) s = .next t ∧ t.fabric = s.fabric ++ [.added fr]
        ∧ (s.memoriesWf → Told s t 0x08F600000000 .monitor 0x02)
        ∧ (∀ f, inside f → t.wb f = some 0 ∧ look (!shared) t.extents f = shared)
        ∧ ∀ f, ¬ inside f → t.wb f = s.wb f)) ∧
    (∀ fr n,
      let inside := fun (f : Nat) => fr ≤ f ∧ f < fr + n
      let there := fun (f : Nat) => inside f ∧ f ∈ s.extents.map (·.1)
      ((∀ f, ¬ there f) → exec (.extentRelease fr n) s = .next s) ∧
      ((∃ f, there f) → exec (.extentRelease fr n) s = exec (.extentRelease fr n) s.performElems) ∧
      ((∃ f, there f) → s.elemsWait = false → (∀ f, inside f → physKind (f * 0x10000) = .cxl) → ∃ t, exec (.extentRelease fr n) s = .next t
        ∧ t.fabric = s.fabric ++ [.released fr]
        ∧ (∀ f, inside f → t.wb f = none) ∧ (∀ f, ¬ inside f → t.wb f = s.wb f)
        ∧ ∀ f, there f → ∀ x ∈ t.tlb, ¬ (x.pa ≤ f * 0x10000 ∧ f * 0x10000 < x.pa + 2 ^ x.sz)))
end

