-- ==== Sys2Proof/Laws/Exec.lean ====
section
/-! SUPPORT. One law per constructor: the meaning that exec calls. -/

namespace Sys2Proof.Machine

theorem exec_add (d) (a) (b) (s : State) : exec (.add d a b) s = execAdd d a b s := rfl
theorem exec_sub (d) (a) (b) (s : State) : exec (.sub d a b) s = execSub d a b s := rfl
theorem exec_and (d) (a) (b) (s : State) : exec (.and d a b) s = execAnd d a b s := rfl
theorem exec_or (d) (a) (b) (s : State) : exec (.or d a b) s = execOr d a b s := rfl
theorem exec_xor (d) (a) (b) (s : State) : exec (.xor d a b) s = execXor d a b s := rfl
theorem exec_andn (d) (a) (b) (s : State) : exec (.andn d a b) s = execAndn d a b s := rfl
theorem exec_sll (d) (a) (b) (s : State) : exec (.sll d a b) s = execSll d a b s := rfl
theorem exec_srl (d) (a) (b) (s : State) : exec (.srl d a b) s = execSrl d a b s := rfl
theorem exec_sra (d) (a) (b) (s : State) : exec (.sra d a b) s = execSra d a b s := rfl
theorem exec_rol (d) (a) (b) (s : State) : exec (.rol d a b) s = execRol d a b s := rfl
theorem exec_slt (d) (a) (b) (s : State) : exec (.slt d a b) s = execSlt d a b s := rfl
theorem exec_sltu (d) (a) (b) (s : State) : exec (.sltu d a b) s = execSltu d a b s := rfl
theorem exec_min (d) (a) (b) (s : State) : exec (.min d a b) s = execMin d a b s := rfl
theorem exec_max (d) (a) (b) (s : State) : exec (.max d a b) s = execMax d a b s := rfl
theorem exec_minu (d) (a) (b) (s : State) : exec (.minu d a b) s = execMinu d a b s := rfl
theorem exec_maxu (d) (a) (b) (s : State) : exec (.maxu d a b) s = execMaxu d a b s := rfl
theorem exec_clz (d) (a) (s : State) : exec (.clz d a) s = execClz d a s := rfl
theorem exec_ctz (d) (a) (s : State) : exec (.ctz d a) s = execCtz d a s := rfl
theorem exec_popc (d) (a) (s : State) : exec (.popc d a) s = execPopc d a s := rfl
theorem exec_sel (d) (a) (b) (s : State) : exec (.sel d a b) s = execSel d a b s := rfl
theorem exec_mul (d) (a) (b) (s : State) : exec (.mul d a b) s = execMul d a b s := rfl
theorem exec_mulh (d) (a) (b) (s : State) : exec (.mulh d a b) s = execMulh d a b s := rfl
theorem exec_mulhu (d) (a) (b) (s : State) : exec (.mulhu d a b) s = execMulhu d a b s := rfl
theorem exec_div (d) (a) (b) (s : State) : exec (.div d a b) s = execDiv d a b s := rfl
theorem exec_divu (d) (a) (b) (s : State) : exec (.divu d a b) s = execDivu d a b s := rfl
theorem exec_rem (d) (a) (b) (s : State) : exec (.rem d a b) s = execRem d a b s := rfl
theorem exec_remu (d) (a) (b) (s : State) : exec (.remu d a b) s = execRemu d a b s := rfl
theorem exec_lea (d) (a) (b) (r0) (s : State) : exec (.lea d a b r0) s = execLea d a b r0 s := rfl
theorem exec_bfx (d) (a) (n) (p) (s : State) : exec (.bfx d a n p) s = execBfx d a n p s := rfl
theorem exec_bfi (d) (a) (n) (p) (s : State) : exec (.bfi d a n p) s = execBfi d a n p s := rfl
theorem exec_faddS (d) (a) (b) (s : State) : exec (.faddS d a b) s = execFaddS d a b s := rfl
theorem exec_fsubS (d) (a) (b) (s : State) : exec (.fsubS d a b) s = execFsubS d a b s := rfl
theorem exec_fmulS (d) (a) (b) (s : State) : exec (.fmulS d a b) s = execFmulS d a b s := rfl
theorem exec_fminS (d) (a) (b) (s : State) : exec (.fminS d a b) s = execFminS d a b s := rfl
theorem exec_fmaxS (d) (a) (b) (s : State) : exec (.fmaxS d a b) s = execFmaxS d a b s := rfl
theorem exec_fcvtSW (d) (a) (s : State) : exec (.fcvtSW d a) s = execFcvtSW d a s := rfl
theorem exec_fcvtWS (d) (a) (s : State) : exec (.fcvtWS d a) s = execFcvtWS d a s := rfl
theorem exec_feqS (d) (a) (b) (s : State) : exec (.feqS d a b) s = execFeqS d a b s := rfl
theorem exec_fltS (d) (a) (b) (s : State) : exec (.fltS d a b) s = execFltS d a b s := rfl
theorem exec_fleS (d) (a) (b) (s : State) : exec (.fleS d a b) s = execFleS d a b s := rfl
theorem exec_fmaS (d) (a) (b) (s : State) : exec (.fmaS d a b) s = execFmaS d a b s := rfl
theorem exec_fcvtSBf (d) (a) (s : State) : exec (.fcvtSBf d a) s = execFcvtSBf d a s := rfl
theorem exec_fcvtBfS (d) (a) (s : State) : exec (.fcvtBfS d a) s = execFcvtBfS d a s := rfl
theorem exec_addi (d) (a) (i) (s : State) : exec (.addi d a i) s = execAddi d a i s := rfl
theorem exec_andi (d) (a) (i) (s : State) : exec (.andi d a i) s = execAndi d a i s := rfl
theorem exec_ori (d) (a) (i) (s : State) : exec (.ori d a i) s = execOri d a i s := rfl
theorem exec_xori (d) (a) (i) (s : State) : exec (.xori d a i) s = execXori d a i s := rfl
theorem exec_slli (d) (a) (r0) (s : State) : exec (.slli d a r0) s = execSlli d a r0 s := rfl
theorem exec_srli (d) (a) (r0) (s : State) : exec (.srli d a r0) s = execSrli d a r0 s := rfl
theorem exec_srai (d) (a) (r0) (s : State) : exec (.srai d a r0) s = execSrai d a r0 s := rfl
theorem exec_slti (d) (a) (i) (s : State) : exec (.slti d a i) s = execSlti d a i s := rfl
theorem exec_lui (d) (i) (s : State) : exec (.lui d i) s = execLui d i s := rfl
theorem exec_luih (d) (i) (s : State) : exec (.luih d i) s = execLuih d i s := rfl
theorem exec_beq (a) (b) (o) (s : State) : exec (.beq a b o) s = execBeq a b o s := rfl
theorem exec_bne (a) (b) (o) (s : State) : exec (.bne a b o) s = execBne a b o s := rfl
theorem exec_blt (a) (b) (o) (s : State) : exec (.blt a b o) s = execBlt a b o s := rfl
theorem exec_bge (a) (b) (o) (s : State) : exec (.bge a b o) s = execBge a b o s := rfl
theorem exec_bltu (a) (b) (o) (s : State) : exec (.bltu a b o) s = execBltu a b o s := rfl
theorem exec_bgeu (a) (b) (o) (s : State) : exec (.bgeu a b o) s = execBgeu a b o s := rfl
theorem exec_jal (d) (o) (s : State) : exec (.jal d o) s = execJal d o s := rfl
theorem exec_jalr (d) (a) (i) (s : State) : exec (.jalr d a i) s = execJalr d a i s := rfl
theorem exec_loop (a) (o) (s : State) : exec (.loop a o) s = execLoop a o s := rfl
theorem exec_beos (p) (o) (s : State) : exec (.beos p o) s = execBeos p o s := rfl
theorem exec_trap (a) (s : State) : exec (.trap a) s = execTrap a s := rfl
theorem exec_eret (s : State) : exec (.eret) s = execEret s := rfl
theorem exec_wfe (a) (s : State) : exec (.wfe a) s = execWfe a s := rfl
theorem exec_wfeDeadline (h) (s : State) : exec (.wfeDeadline h) s = execWfeDeadline h s := rfl
theorem exec_yield (s : State) : exec (.yield) s = execYield s := rfl
theorem exec_halt (s : State) : exec (.halt) s = execHalt s := rfl
theorem exec_haltRetire (h) (s : State) : exec (.haltRetire h) s = execHaltRetire h s := rfl
theorem exec_brk (s : State) : exec (.brk) s = execBrk s := rfl
theorem exec_scall (d) (a) (b) (s : State) : exec (.scall d a b) s = execScall d a b s := rfl
theorem exec_mfc (d) (r) (s : State) : exec (.mfc d r) s = execMfc d r s := rfl
theorem exec_mtc (a) (r) (s : State) : exec (.mtc a r) s = execMtc a r s := rfl
theorem exec_modeWrite (v) (s : State) : exec (.modeWrite v) s = execModeWrite v s := rfl
theorem exec_arbWrite (v) (s : State) : exec (.arbWrite v) s = execArbWrite v s := rfl
theorem exec_vshareWrite (v) (s : State) : exec (.vshareWrite v) s = execVshareWrite v s := rfl
theorem exec_mownerWrite (v) (s : State) : exec (.mownerWrite v) s = execMownerWrite v s := rfl
theorem exec_fflagsWrite (v) (s : State) : exec (.fflagsWrite v) s = execFflagsWrite v s := rfl
theorem exec_mstatWrite (v) (s : State) : exec (.mstatWrite v) s = execMstatWrite v s := rfl
theorem exec_loopcWrite (v) (s : State) : exec (.loopcWrite v) s = execLoopcWrite v s := rfl
theorem exec_lb (d) (a) (o) (s : State) : exec (.lb d a o) s = execLb d a o s := rfl
theorem exec_lbu (d) (a) (o) (s : State) : exec (.lbu d a o) s = execLbu d a o s := rfl
theorem exec_lh (d) (a) (o) (s : State) : exec (.lh d a o) s = execLh d a o s := rfl
theorem exec_lhu (d) (a) (o) (s : State) : exec (.lhu d a o) s = execLhu d a o s := rfl
theorem exec_lw (d) (a) (o) (s : State) : exec (.lw d a o) s = execLw d a o s := rfl
theorem exec_lwu (d) (a) (o) (s : State) : exec (.lwu d a o) s = execLwu d a o s := rfl
theorem exec_ld (d) (a) (o) (s : State) : exec (.ld d a o) s = execLd d a o s := rfl
theorem exec_sb (r0) (a) (o) (s : State) : exec (.sb r0 a o) s = execSb r0 a o s := rfl
theorem exec_sh (r0) (a) (o) (s : State) : exec (.sh r0 a o) s = execSh r0 a o s := rfl
theorem exec_sw (r0) (a) (o) (s : State) : exec (.sw r0 a o) s = execSw r0 a o s := rfl
theorem exec_sd (r0) (a) (o) (s : State) : exec (.sd r0 a o) s = execSd r0 a o s := rfl
theorem exec_vld (v) (a) (o) (s : State) : exec (.vld v a o) s = execVld v a o s := rfl
theorem exec_vst (v) (a) (o) (s : State) : exec (.vst v a o) s = execVst v a o s := rfl
theorem exec_vlds (v) (a) (b) (k) (d64) (s : State) : exec (.vlds v a b k d64) s = execVlds v a b k d64 s := rfl
theorem exec_vsts (v) (a) (b) (k) (d64) (s : State) : exec (.vsts v a b k d64) s = execVsts v a b k d64 s := rfl
theorem exec_vgth (v) (a) (i) (k) (d64) (s : State) : exec (.vgth v a i k d64) s = execVgth v a i k d64 s := rfl
theorem exec_vsct (v) (a) (i) (k) (d64) (s : State) : exec (.vsct v a i k d64) s = execVsct v a i k d64 s := rfl
theorem exec_lda (d) (a) (ord) (scope) (dbl) (s : State) : exec (.lda d a ord scope dbl) s = execLda d a ord scope dbl s := rfl
theorem exec_stl (a) (b) (ord) (scope) (dbl) (s : State) : exec (.stl a b ord scope dbl) s = execStl a b ord scope dbl s := rfl
theorem exec_amoadd (d) (a) (b) (ord) (scope) (dbl) (s : State) : exec (.amoadd d a b ord scope dbl) s = execAmoadd d a b ord scope dbl s := rfl
theorem exec_amoand (d) (a) (b) (ord) (scope) (dbl) (s : State) : exec (.amoand d a b ord scope dbl) s = execAmoand d a b ord scope dbl s := rfl
theorem exec_amoor (d) (a) (b) (ord) (scope) (dbl) (s : State) : exec (.amoor d a b ord scope dbl) s = execAmoor d a b ord scope dbl s := rfl
theorem exec_amoxor (d) (a) (b) (ord) (scope) (dbl) (s : State) : exec (.amoxor d a b ord scope dbl) s = execAmoxor d a b ord scope dbl s := rfl
theorem exec_amomin (d) (a) (b) (ord) (scope) (dbl) (s : State) : exec (.amomin d a b ord scope dbl) s = execAmomin d a b ord scope dbl s := rfl
theorem exec_amomax (d) (a) (b) (ord) (scope) (dbl) (s : State) : exec (.amomax d a b ord scope dbl) s = execAmomax d a b ord scope dbl s := rfl
theorem exec_amominu (d) (a) (b) (ord) (scope) (dbl) (s : State) : exec (.amominu d a b ord scope dbl) s = execAmominu d a b ord scope dbl s := rfl
theorem exec_amomaxu (d) (a) (b) (ord) (scope) (dbl) (s : State) : exec (.amomaxu d a b ord scope dbl) s = execAmomaxu d a b ord scope dbl s := rfl
theorem exec_amoswap (d) (a) (b) (ord) (scope) (dbl) (s : State) : exec (.amoswap d a b ord scope dbl) s = execAmoswap d a b ord scope dbl s := rfl
theorem exec_amocas (d) (a) (b) (ord) (scope) (dbl) (s : State) : exec (.amocas d a b ord scope dbl) s = execAmocas d a b ord scope dbl s := rfl
theorem exec_fence (ord) (scope) (s : State) : exec (.fence ord scope) s = execFence ord scope s := rfl
theorem exec_putq (d) (a) (b) (len) (s : State) : exec (.putq d a b len) s = execPutq d a b len s := rfl
theorem exec_qcfg (p) (a) (s : State) : exec (.qcfg p a) s = execQcfg p a s := rfl
theorem exec_qget (d) (p) (s : State) : exec (.qget d p) s = execQget d p s := rfl
theorem exec_qput (p) (a) (s : State) : exec (.qput p a) s = execQput p a s := rfl
theorem exec_qclose (p) (s : State) : exec (.qclose p) s = execQclose p s := rfl
theorem exec_qstat (d) (p) (sel) (s : State) : exec (.qstat d p sel) s = execQstat d p sel s := rfl
theorem exec_cpyset (c) (a) (f) (s : State) : exec (.cpyset c a f) s = execCpyset c a f s := rfl
theorem exec_cpysetClrerr (c) (s : State) : exec (.cpysetClrerr c) s = execCpysetClrerr c s := rfl
theorem exec_cpygo (d) (a) (c) (s : State) : exec (.cpygo d a c) s = execCpygo d a c s := rfl
theorem exec_cpywait (c) (a) (s : State) : exec (.cpywait c a) s = execCpywait c a s := rfl
theorem exec_cpystat (d) (c) (sel) (s : State) : exec (.cpystat d c sel) s = execCpystat d c sel s := rfl
theorem exec_bar (d) (lv) (s : State) : exec (.bar d lv) s = execBar d lv s := rfl
theorem exec_barw (a) (lv) (s : State) : exec (.barw a lv) s = execBarw a lv s := rfl
theorem exec_phase (d) (lv) (s : State) : exec (.phase d lv) s = execPhase d lv s := rfl
theorem exec_couple (a) (s : State) : exec (.couple a) s = execCouple a s := rfl
theorem exec_uncouple (s : State) : exec (.uncouple) s = execUncouple s := rfl
theorem exec_inbx (d) (a) (poll) (s : State) : exec (.inbx d a poll) s = execInbx d a poll s := rfl
theorem exec_jnext (d) (a) (s : State) : exec (.jnext d a) s = execJnext d a s := rfl
theorem exec_jnextCovered (d) (a) (s : State) : exec (.jnextCovered d a) s = execJnextCovered d a s := rfl
theorem exec_larm (d) (a) (s : State) : exec (.larm d a) s = execLarm d a s := rfl
theorem exec_gdisp (d) (a) (s : State) : exec (.gdisp d a) s = execGdisp d a s := rfl
theorem exec_gjoin (d) (a) (poll) (s : State) : exec (.gjoin d a poll) s = execGjoin d a poll s := rfl
theorem exec_sigw (d) (a) (b) (nowait) (s : State) : exec (.sigw d a b nowait) s = execSigw d a b nowait s := rfl
theorem exec_sigs (a) (b) (add) (s : State) : exec (.sigs a b add) s = execSigs a b add s := rfl
theorem exec_hnew (d) (a) (b) (s : State) : exec (.hnew d a b) s = execHnew d a b s := rfl
theorem exec_hcopy (d) (r0) (s : State) : exec (.hcopy d r0) s = execHcopy d r0 s := rfl
theorem exec_hdrop (r0) (s : State) : exec (.hdrop r0) s = execHdrop r0 s := rfl
theorem exec_hbind (d) (a) (b) (s : State) : exec (.hbind d a b) s = execHbind d a b s := rfl
theorem exec_hquery (d) (a) (s : State) : exec (.hquery d a) s = execHquery d a s := rfl
theorem exec_foffer (d) (a) (b) (s : State) : exec (.foffer d a b) s = execFoffer d a b s := rfl
theorem exec_faccept (d) (a) (b) (s : State) : exec (.faccept d a b) s = execFaccept d a b s := rfl
theorem exec_flend (d) (a) (b) (s : State) : exec (.flend d a b) s = execFlend d a b s := rfl
theorem exec_frecall (d) (a) (b) (s : State) : exec (.frecall d a b) s = execFrecall d a b s := rfl
theorem exec_frelease (d) (a) (s : State) : exec (.frelease d a) s = execFrelease d a s := rfl
theorem exec_fquery (d) (a) (s : State) : exec (.fquery d a) s = execFquery d a s := rfl
theorem exec_tlbi (scope) (a) (b) (kind) (s : State) : exec (.tlbi scope a b kind) s = execTlbi scope a b kind s := rfl
theorem exec_flush (a) (b) (s : State) : exec (.flush a b) s = execFlush a b s := rfl
theorem exec_inval (a) (b) (s : State) : exec (.inval a b) s = execInval a b s := rfl
theorem exec_vadd (d) (a) (b) (k) (e) (keep) (s : State) : exec (.vadd d a b k e keep) s = execVadd d a b k e keep s := rfl
theorem exec_vsub (d) (a) (b) (k) (e) (keep) (s : State) : exec (.vsub d a b k e keep) s = execVsub d a b k e keep s := rfl
theorem exec_vmul (d) (a) (b) (k) (e) (keep) (s : State) : exec (.vmul d a b k e keep) s = execVmul d a b k e keep s := rfl
theorem exec_vmulh (d) (a) (b) (k) (e) (keep) (s : State) : exec (.vmulh d a b k e keep) s = execVmulh d a b k e keep s := rfl
theorem exec_vmin (d) (a) (b) (k) (e) (keep) (s : State) : exec (.vmin d a b k e keep) s = execVmin d a b k e keep s := rfl
theorem exec_vmax (d) (a) (b) (k) (e) (keep) (s : State) : exec (.vmax d a b k e keep) s = execVmax d a b k e keep s := rfl
theorem exec_vminu (d) (a) (b) (k) (e) (keep) (s : State) : exec (.vminu d a b k e keep) s = execVminu d a b k e keep s := rfl
theorem exec_vmaxu (d) (a) (b) (k) (e) (keep) (s : State) : exec (.vmaxu d a b k e keep) s = execVmaxu d a b k e keep s := rfl
theorem exec_vand (d) (a) (b) (k) (e) (keep) (s : State) : exec (.vand d a b k e keep) s = execVand d a b k e keep s := rfl
theorem exec_vor (d) (a) (b) (k) (e) (keep) (s : State) : exec (.vor d a b k e keep) s = execVor d a b k e keep s := rfl
theorem exec_vxor (d) (a) (b) (k) (e) (keep) (s : State) : exec (.vxor d a b k e keep) s = execVxor d a b k e keep s := rfl
theorem exec_vandn (d) (a) (b) (k) (e) (keep) (s : State) : exec (.vandn d a b k e keep) s = execVandn d a b k e keep s := rfl
theorem exec_vsll (d) (a) (b) (k) (e) (keep) (s : State) : exec (.vsll d a b k e keep) s = execVsll d a b k e keep s := rfl
theorem exec_vsrl (d) (a) (b) (k) (e) (keep) (s : State) : exec (.vsrl d a b k e keep) s = execVsrl d a b k e keep s := rfl
theorem exec_vsra (d) (a) (b) (k) (e) (keep) (s : State) : exec (.vsra d a b k e keep) s = execVsra d a b k e keep s := rfl
theorem exec_vrol (d) (a) (b) (k) (e) (keep) (s : State) : exec (.vrol d a b k e keep) s = execVrol d a b k e keep s := rfl
theorem exec_vsadd (d) (a) (b) (k) (e) (keep) (s : State) : exec (.vsadd d a b k e keep) s = execVsadd d a b k e keep s := rfl
theorem exec_vssub (d) (a) (b) (k) (e) (keep) (s : State) : exec (.vssub d a b k e keep) s = execVssub d a b k e keep s := rfl
theorem exec_vavg (d) (a) (b) (k) (e) (keep) (s : State) : exec (.vavg d a b k e keep) s = execVavg d a b k e keep s := rfl
theorem exec_vabs (d) (a) (k) (e) (keep) (s : State) : exec (.vabs d a k e keep) s = execVabs d a k e keep s := rfl
theorem exec_vfadd (d) (a) (b) (k) (e) (keep) (s : State) : exec (.vfadd d a b k e keep) s = execVfadd d a b k e keep s := rfl
theorem exec_vfsub (d) (a) (b) (k) (e) (keep) (s : State) : exec (.vfsub d a b k e keep) s = execVfsub d a b k e keep s := rfl
theorem exec_vfmul (d) (a) (b) (k) (e) (keep) (s : State) : exec (.vfmul d a b k e keep) s = execVfmul d a b k e keep s := rfl
theorem exec_vfabd (d) (a) (b) (k) (e) (keep) (s : State) : exec (.vfabd d a b k e keep) s = execVfabd d a b k e keep s := rfl
theorem exec_vfma (d) (a) (b) (k) (e) (keep) (s : State) : exec (.vfma d a b k e keep) s = execVfma d a b k e keep s := rfl
theorem exec_vfms (d) (a) (b) (k) (e) (keep) (s : State) : exec (.vfms d a b k e keep) s = execVfms d a b k e keep s := rfl
theorem exec_vfnma (d) (a) (b) (k) (e) (keep) (s : State) : exec (.vfnma d a b k e keep) s = execVfnma d a b k e keep s := rfl
theorem exec_vfnms (d) (a) (b) (k) (e) (keep) (s : State) : exec (.vfnms d a b k e keep) s = execVfnms d a b k e keep s := rfl
theorem exec_vfmin (d) (a) (b) (k) (e) (keep) (s : State) : exec (.vfmin d a b k e keep) s = execVfmin d a b k e keep s := rfl
theorem exec_vfmax (d) (a) (b) (k) (e) (keep) (s : State) : exec (.vfmax d a b k e keep) s = execVfmax d a b k e keep s := rfl
theorem exec_vfneg (d) (a) (k) (e) (keep) (s : State) : exec (.vfneg d a k e keep) s = execVfneg d a k e keep s := rfl
theorem exec_vfabs (d) (a) (k) (e) (keep) (s : State) : exec (.vfabs d a k e keep) s = execVfabs d a k e keep s := rfl
theorem exec_vfdiv (d) (a) (b) (k) (keep) (s : State) : exec (.vfdiv d a b k keep) s = execVfdiv d a b k keep s := rfl
theorem exec_vfsqrt (d) (a) (k) (keep) (s : State) : exec (.vfsqrt d a k keep) s = execVfsqrt d a k keep s := rfl
theorem exec_vfrcp (d) (a) (k) (keep) (s : State) : exec (.vfrcp d a k keep) s = execVfrcp d a k keep s := rfl
theorem exec_vfrsq (d) (a) (k) (keep) (s : State) : exec (.vfrsq d a k keep) s = execVfrsq d a k keep s := rfl
theorem exec_vfexp2 (d) (a) (k) (keep) (s : State) : exec (.vfexp2 d a k keep) s = execVfexp2 d a k keep s := rfl
theorem exec_vflog2 (d) (a) (k) (keep) (s : State) : exec (.vflog2 d a k keep) s = execVflog2 d a k keep s := rfl
theorem exec_vftanh (d) (a) (k) (keep) (s : State) : exec (.vftanh d a k keep) s = execVftanh d a k keep s := rfl
theorem exec_vfsigm (d) (a) (k) (keep) (s : State) : exec (.vfsigm d a k keep) s = execVfsigm d a k keep s := rfl
theorem exec_vcmpEq (d) (a) (b) (k) (e) (keep) (s : State) : exec (.vcmpEq d a b k e keep) s = execVcmpEq d a b k e keep s := rfl
theorem exec_vcmpNe (d) (a) (b) (k) (e) (keep) (s : State) : exec (.vcmpNe d a b k e keep) s = execVcmpNe d a b k e keep s := rfl
theorem exec_vcmpLt (d) (a) (b) (k) (e) (keep) (s : State) : exec (.vcmpLt d a b k e keep) s = execVcmpLt d a b k e keep s := rfl
theorem exec_vcmpLe (d) (a) (b) (k) (e) (keep) (s : State) : exec (.vcmpLe d a b k e keep) s = execVcmpLe d a b k e keep s := rfl
theorem exec_vfcmpEq (d) (a) (b) (k) (e) (keep) (s : State) : exec (.vfcmpEq d a b k e keep) s = execVfcmpEq d a b k e keep s := rfl
theorem exec_vfcmpNe (d) (a) (b) (k) (e) (keep) (s : State) : exec (.vfcmpNe d a b k e keep) s = execVfcmpNe d a b k e keep s := rfl
theorem exec_vfcmpLt (d) (a) (b) (k) (e) (keep) (s : State) : exec (.vfcmpLt d a b k e keep) s = execVfcmpLt d a b k e keep s := rfl
theorem exec_vfcmpLe (d) (a) (b) (k) (e) (keep) (s : State) : exec (.vfcmpLe d a b k e keep) s = execVfcmpLe d a b k e keep s := rfl
theorem exec_vsel (d) (a) (b) (k) (e) (keep) (s : State) : exec (.vsel d a b k e keep) s = execVsel d a b k e keep s := rfl
theorem exec_vmov (d) (a) (k) (e) (keep) (s : State) : exec (.vmov d a k e keep) s = execVmov d a k e keep s := rfl
theorem exec_kand (d) (a) (b) (s : State) : exec (.kand d a b) s = execKand d a b s := rfl
theorem exec_kor (d) (a) (b) (s : State) : exec (.kor d a b) s = execKor d a b s := rfl
theorem exec_kxor (d) (a) (b) (s : State) : exec (.kxor d a b) s = execKxor d a b s := rfl
theorem exec_kandn (d) (a) (b) (s : State) : exec (.kandn d a b) s = execKandn d a b s := rfl
theorem exec_knot (d) (a) (s : State) : exec (.knot d a) s = execKnot d a s := rfl
theorem exec_kpop (d) (a) (s : State) : exec (.kpop d a) s = execKpop d a s := rfl
theorem exec_kfirst (d) (a) (s : State) : exec (.kfirst d a) s = execKfirst d a s := rfl
theorem exec_kset (d) (a) (s : State) : exec (.kset d a) s = execKset d a s := rfl
theorem exec_vbcast (d) (b) (k) (e) (s : State) : exec (.vbcast d b k e) s = execVbcast d b k e s := rfl
theorem exec_vins (d) (a) (b) (e) (s : State) : exec (.vins d a b e) s = execVins d a b e s := rfl
theorem exec_vext (d) (a) (b) (e) (keep) (s : State) : exec (.vext d a b e keep) s = execVext d a b e keep s := rfl
theorem exec_vslide (d) (a) (b) (k) (e) (keep) (s : State) : exec (.vslide d a b k e keep) s = execVslide d a b k e keep s := rfl
theorem exec_vperm (d) (a) (b) (k) (e) (keep) (s : State) : exec (.vperm d a b k e keep) s = execVperm d a b k e keep s := rfl
theorem exec_vrot (d) (a) (b) (k) (e) (keep) (s : State) : exec (.vrot d a b k e keep) s = execVrot d a b k e keep s := rfl
theorem exec_vzip (d) (a) (b) (k) (e) (keep) (s : State) : exec (.vzip d a b k e keep) s = execVzip d a b k e keep s := rfl
theorem exec_vunzip (d) (a) (b) (k) (e) (keep) (s : State) : exec (.vunzip d a b k e keep) s = execVunzip d a b k e keep s := rfl
theorem exec_vrsum (d) (a) (k) (e) (keep) (s : State) : exec (.vrsum d a k e keep) s = execVrsum d a k e keep s := rfl
theorem exec_vrmax (d) (a) (k) (e) (keep) (s : State) : exec (.vrmax d a k e keep) s = execVrmax d a k e keep s := rfl
theorem exec_vrfmax (d) (a) (k) (e) (keep) (s : State) : exec (.vrfmax d a k e keep) s = execVrfmax d a k e keep s := rfl
theorem exec_vrmin (d) (a) (k) (e) (keep) (s : State) : exec (.vrmin d a k e keep) s = execVrmin d a k e keep s := rfl
theorem exec_vrfmin (d) (a) (k) (e) (keep) (s : State) : exec (.vrfmin d a k e keep) s = execVrfmin d a k e keep s := rfl
theorem exec_vrfsum (d) (a) (k) (e) (keep) (s : State) : exec (.vrfsum d a k e keep) s = execVrfsum d a k e keep s := rfl
theorem exec_vcvt (d) (a) (src) (dst) (rm) (sat) (k) (s : State) : exec (.vcvt d a src dst rm sat k) s = execVcvt d a src dst rm sat k s := rfl
theorem exec_vpack (d) (a) (nf) (k) (e) (keep) (s : State) : exec (.vpack d a nf k e keep) s = execVpack d a nf k e keep s := rfl
theorem exec_vunpk (d) (a) (nf) (k) (e) (keep) (s : State) : exec (.vunpk d a nf k e keep) s = execVunpk d a nf k e keep s := rfl
theorem exec_vlut (d) (a) (b) (k) (e) (keep) (s : State) : exec (.vlut d a b k e keep) s = execVlut d a b k e keep s := rfl
theorem exec_vscale (d) (a) (b) (k) (e) (keep) (s : State) : exec (.vscale d a b k e keep) s = execVscale d a b k e keep s := rfl
theorem exec_vmovi (d) (i) (k) (e) (s : State) : exec (.vmovi d i k e) s = execVmovi d i k e s := rfl
theorem exec_mma (c) (a) (b) (fa) (fb) (popA) (popB) (r0) (s : State) : exec (.mma c a b fa fb popA popB r0) s = execMma c a b fa fb popA popB r0 s := rfl
theorem exec_mmasN6 (c) (a) (b) (fa) (fb) (popA) (popB) (r0) (s : State) : exec (.mmasN6 c a b fa fb popA popB r0) s = execMmasN6 c a b fa fb popA popB r0 s := rfl
theorem exec_mmasN8 (c) (a) (b) (fa) (fb) (popA) (popB) (r0) (s : State) : exec (.mmasN8 c a b fa fb popA popB r0) s = execMmasN8 c a b fa fb popA popB r0 s := rfl
theorem exec_mmasN12 (c) (a) (b) (fa) (fb) (popA) (popB) (r0) (s : State) : exec (.mmasN12 c a b fa fb popA popB r0) s = execMmasN12 c a b fa fb popA popB r0 s := rfl
theorem exec_mzero (c) (s : State) : exec (.mzero c) s = execMzero c s := rfl
theorem exec_mdrain (c) (v) (tf) (rm) (sat) (row) (s : State) : exec (.mdrain c v tf rm sat row) s = execMdrain c v tf rm sat row s := rfl
theorem exec_mdrains (c) (a) (tf) (rm) (sat) (row) (s : State) : exec (.mdrains c a tf rm sat row) s = execMdrains c a tf rm sat row s := rfl
theorem exec_mchainSend (c) (rows) (row) (s : State) : exec (.mchainSend c rows row) s = execMchainSend c rows row s := rfl
theorem exec_mchainRecv (c) (rows) (int) (row) (s : State) : exec (.mchainRecv c rows int row) s = execMchainRecv c rows int row s := rfl
theorem exec_mchainRelay (c) (rows) (int) (row) (s : State) : exec (.mchainRelay c rows int row) s = execMchainRelay c rows int row s := rfl
theorem exec_mcbk (r) (a) (s : State) : exec (.mcbk r a) s = execMcbk r a s := rfl
theorem exec_mrset (r) (a) (s : State) : exec (.mrset r a) s = execMrset r a s := rfl
theorem exec_mradv (r) (a) (s : State) : exec (.mradv r a) s = execMradv r a s := rfl
theorem exec_mrstat (r) (d) (s : State) : exec (.mrstat r d) s = execMrstat r d s := rfl
theorem exec_mwait (s : State) : exec (.mwait) s = execMwait s := rfl
theorem exec_mseq (d) (s : State) : exec (.mseq d) s = execMseq d s := rfl
theorem exec_macc (c) (int) (r0) (s : State) : exec (.macc c int r0) s = execMacc c int r0 s := rfl
theorem exec_resultLand (h) (s : State) : exec (.resultLand h) s = execResultLand h s := rfl
theorem exec_variableResultLand (h) (s : State) : exec (.variableResultLand h) s = execVariableResultLand h s := rfl
theorem exec_shadowReland (h) (s : State) : exec (.shadowReland h) s = execShadowReland h s := rfl
theorem exec_vectorPartBind (t) (s : State) : exec (.vectorPartBind t) s = execVectorPartBind t s := rfl
theorem exec_seqCommandStart (t) (s : State) : exec (.seqCommandStart t) s = execSeqCommandStart t s := rfl
theorem exec_mmaRetire (t) (s : State) : exec (.mmaRetire t) s = execMmaRetire t s := rfl
theorem exec_mzeroRetire (t) (s : State) : exec (.mzeroRetire t) s = execMzeroRetire t s := rfl
theorem exec_maccRetire (t) (s : State) : exec (.maccRetire t) s = execMaccRetire t s := rfl
theorem exec_mdrainRetire (t) (s : State) : exec (.mdrainRetire t) s = execMdrainRetire t s := rfl
theorem exec_mdrainsRetire (t) (s : State) : exec (.mdrainsRetire t) s = execMdrainsRetire t s := rfl
theorem exec_chainSendDone (t) (s : State) : exec (.chainSendDone t) s = execChainSendDone t s := rfl
theorem exec_chainMessageArrival (t) (s : State) : exec (.chainMessageArrival t) s = execChainMessageArrival t s := rfl
theorem exec_chainReceiveRetire (t) (s : State) : exec (.chainReceiveRetire t) s = execChainReceiveRetire t s := rfl
theorem exec_ringstarved (t) (s : State) : exec (.ringstarved t) s = execRingstarved t s := rfl
theorem exec_streamFetch (h) (p) (s : State) : exec (.streamFetch h p) s = execStreamFetch h p s := rfl
theorem exec_streamWrite (h) (p) (s : State) : exec (.streamWrite h p) s = execStreamWrite h p s := rfl
theorem exec_ringTileAdvance (h) (p) (s : State) : exec (.ringTileAdvance h p) s = execRingTileAdvance h p s := rfl
theorem exec_streamCloseDone (h) (p) (s : State) : exec (.streamCloseDone h p) s = execStreamCloseDone h p s := rfl
theorem exec_copyTransferStart (u) (c) (s : State) : exec (.copyTransferStart u c) s = execCopyTransferStart u c s := rfl
theorem exec_copyTransferComplete (u) (c) (id) (remote) (s : State) : exec (.copyTransferComplete u c id remote) s = execCopyTransferComplete u c id remote s := rfl
theorem exec_putqDelivery (remote) (s : State) : exec (.putqDelivery remote) s = execPutqDelivery remote s := rfl
theorem exec_chipLinkArrival (kind) (spkg) (sctx) (addr) (data) (s : State) : exec (.chipLinkArrival kind spkg sctx addr data) s = execChipLinkArrival kind spkg sctx addr data s := rfl
theorem exec_enginePageFault (u) (s : State) : exec (.enginePageFault u) s = execEnginePageFault u s := rfl
theorem exec_engineReplay (u) (refuse) (s : State) : exec (.engineReplay u refuse) s = execEngineReplay u refuse s := rfl
theorem exec_translationFill (h) (va) (k) (s : State) : exec (.translationFill h va k) s = execTranslationFill h va k s := rfl
theorem exec_barrierCompletion (t) (lv) (s : State) : exec (.barrierCompletion t lv) s = execBarrierCompletion t lv s := rfl
theorem exec_consistForm (t) (s : State) : exec (.consistForm t) s = execConsistForm t s := rfl
theorem exec_consistResume (t) (s : State) : exec (.consistResume t) s = execConsistResume t s := rfl
theorem exec_trapEntry (h) (s : State) : exec (.trapEntry h) s = execTrapEntry h s := rfl
theorem exec_faultRecordWrite (i) (s : State) : exec (.faultRecordWrite i) s = execFaultRecordWrite i s := rfl
theorem exec_kickInterrupt (t) (v) (s : State) : exec (.kickInterrupt t v) s = execKickInterrupt t v s := rfl
theorem exec_kickRestart (t) (v) (s : State) : exec (.kickRestart t v) s = execKickRestart t v s := rfl
theorem exec_breakpointTableLoad (t) (s : State) : exec (.breakpointTableLoad t) s = execBreakpointTableLoad t s := rfl
theorem exec_engineFreeze (t) (s : State) : exec (.engineFreeze t) s = execEngineFreeze t s := rfl
theorem exec_engineFrozen (t) (s : State) : exec (.engineFrozen t) s = execEngineFrozen t s := rfl
theorem exec_engineUnfreeze (t) (s : State) : exec (.engineUnfreeze t) s = execEngineUnfreeze t s := rfl
theorem exec_switchArm (p) (v) (s : State) : exec (.switchArm p v) s = execSwitchArm p v s := rfl
theorem exec_switchStop (p) (s : State) : exec (.switchStop p) s = execSwitchStop p s := rfl
theorem exec_switchSave (t) (s : State) : exec (.switchSave t) s = execSwitchSave t s := rfl
theorem exec_switchRestore (t) (s : State) : exec (.switchRestore t) s = execSwitchRestore t s := rfl
theorem exec_notifyWrite (q) (v) (s : State) : exec (.notifyWrite q v) s = execNotifyWrite q v s := rfl
theorem exec_yardAdmit (s : State) : exec (.yardAdmit) s = execYardAdmit s := rfl
theorem exec_yardPriorityAge (q) (s : State) : exec (.yardPriorityAge q) s = execYardPriorityAge q s := rfl
theorem exec_yardIdleRelease (q) (s : State) : exec (.yardIdleRelease q) s = execYardIdleRelease q s := rfl
theorem exec_packetTake (q) (s : State) : exec (.packetTake q) s = execPacketTake q s := rfl
theorem exec_signalBoxEvent (s : State) : exec .signalBoxEvent s = execSignalBoxEvent s := rfl
theorem exec_launchPlace (l) (s : State) : exec (.launchPlace l) s = execLaunchPlace l s := rfl
theorem exec_monitorEntry (t) (s : State) : exec (.monitorEntry t) s = execMonitorEntry t s := rfl
theorem exec_eretStart (s : State) : exec (.eretStart) s = execEretStart s := rfl
theorem exec_launchCompletion (l) (s : State) : exec (.launchCompletion l) s = execLaunchCompletion l s := rfl
theorem exec_endRequest (v) (s : State) : exec (.endRequest v) s = execEndRequest v s := rfl
theorem exec_launchEndDone (l) (s : State) : exec (.launchEndDone l) s = execLaunchEndDone l s := rfl
theorem exec_queueRegister (q) (s : State) : exec (.queueRegister q) s = execQueueRegister q s := rfl
theorem exec_queueRemove (q) (s : State) : exec (.queueRemove q) s = execQueueRemove q s := rfl
theorem exec_contextRegister (c) (s : State) : exec (.contextRegister c) s = execContextRegister c s := rfl
theorem exec_contextUnregister (c) (s : State) : exec (.contextUnregister c) s = execContextUnregister c s := rfl
theorem exec_partitionWrite (p) (off) (size) (v) (s : State) : exec (.partitionWrite p off size v) s = execPartitionWrite p off size v s := rfl
theorem exec_handlePost (s : State) : exec .handlePost s = execHandlePost s := rfl
theorem exec_recallDeadline (f) (s : State) : exec (.recallDeadline f) s = execRecallDeadline f s := rfl
theorem exec_recallDrainDone (f) (s : State) : exec (.recallDrainDone f) s = execRecallDrainDone f s := rfl
theorem exec_rootWrite (pa) (size) (v) (s : State) : exec (.rootWrite pa size v) s = execRootWrite pa size v s := rfl
theorem exec_eventFrameWrite (kn) (byMonitor) (off) (size) (v) (s : State) : exec (.eventFrameWrite kn byMonitor off size v) s = execEventFrameWrite kn byMonitor off size v s := rfl
theorem exec_keyRegenerate (k) (s : State) : exec (.keyRegenerate k) s = execKeyRegenerate k s := rfl
theorem exec_pkgnumWrite (v) (s : State) : exec (.pkgnumWrite v) s = execPkgnumWrite v s := rfl
theorem exec_hubRegisterWrite (pa) (size) (v) (s : State) : exec (.hubRegisterWrite pa size v) s = execHubRegisterWrite pa size v s := rfl
theorem exec_dmaWrite (port) (va) (data) (s : State) : exec (.dmaWrite port va data) s = execDmaWrite port va data s := rfl
theorem exec_dmaRead (port) (va) (n) (s : State) : exec (.dmaRead port va n) s = execDmaRead port va n s := rfl
theorem exec_correctedError (u) (s : State) : exec (.correctedError u) s = execCorrectedError u s := rfl
theorem exec_linkRetrainDone (link) (s : State) : exec (.linkRetrainDone link) s = execLinkRetrainDone link s := rfl
theorem exec_uncorrectableError (g) (s : State) : exec (.uncorrectableError g) s = execUncorrectableError g s := rfl
theorem exec_tileRemap (t) (s : State) : exec (.tileRemap t) s = execTileRemap t s := rfl
theorem exec_patrolScrub (g) (s : State) : exec (.patrolScrub g) s = execPatrolScrub g s := rfl
theorem exec_watchdogBeat (s : State) : exec (.watchdogBeat) s = execWatchdogBeat s := rfl
theorem exec_watchdogPeriodWrite (v) (s : State) : exec (.watchdogPeriodWrite v) s = execWatchdogPeriodWrite v s := rfl
theorem exec_watchdogExpiry (s : State) : exec (.watchdogExpiry) s = execWatchdogExpiry s := rfl
theorem exec_residentAdopt (s : State) : exec (.residentAdopt) s = execResidentAdopt s := rfl
theorem exec_residentResume (s : State) : exec (.residentResume) s = execResidentResume s := rfl
theorem exec_extentAdd (port) (frame) (n) (block) (shared) (s : State) : exec (.extentAdd port frame n block shared) s = execExtentAdd port frame n block shared s := rfl
theorem exec_extentRelease (frame) (n) (s : State) : exec (.extentRelease frame n) s = execExtentRelease frame n s := rfl
theorem exec_coldReset (s : State) : exec (.coldReset) s = execColdReset s := rfl
theorem exec_warmReset (s : State) : exec (.warmReset) s = execWarmReset s := rfl
theorem exec_bootTimeout (s : State) : exec (.bootTimeout) s = execBootTimeout s := rfl
theorem exec_bootokWrite (s : State) : exec (.bootokWrite) s = execBootokWrite s := rfl
theorem exec_mctpControl (data) (s : State) : exec (.mctpControl data) s = execMctpControl data s := rfl
theorem exec_sidebandOtherMessage (ty) (s : State) : exec (.sidebandOtherMessage ty) s = execSidebandOtherMessage ty s := rfl
theorem exec_getVersion (s : State) : exec (.getVersion) s = execGetVersion s := rfl
theorem exec_getCapabilities (s : State) : exec (.getCapabilities) s = execGetCapabilities s := rfl
theorem exec_negotiateAlgorithms (s : State) : exec (.negotiateAlgorithms) s = execNegotiateAlgorithms s := rfl
theorem exec_getDigests (s : State) : exec (.getDigests) s = execGetDigests s := rfl
theorem exec_getCertificate (s : State) : exec (.getCertificate) s = execGetCertificate s := rfl
theorem exec_challenge (s : State) : exec (.challenge) s = execChallenge s := rfl
theorem exec_getMeasurements (n) (s : State) : exec (.getMeasurements n) s = execGetMeasurements n s := rfl
theorem exec_sensorThreshold (die) (idx) (e) (s : State) : exec (.sensorThreshold die idx e) s = execSensorThreshold die idx e s := rfl
theorem exec_thermalClockStep (die) (s : State) : exec (.thermalClockStep die) s = execThermalClockStep die s := rfl
theorem exec_heartbeatSend (link) (s : State) : exec (.heartbeatSend link) s = execHeartbeatSend link s := rfl
theorem exec_linkdown (link) (s : State) : exec (.linkdown link) s = execLinkdown link s := rfl
theorem exec_freezeFlitArrival (tag) (s : State) : exec (.freezeFlitArrival tag) s = execFreezeFlitArrival tag s := rfl
theorem exec_heartbeatArrival (link) (s : State) : exec (.heartbeatArrival link) s = execHeartbeatArrival link s := rfl
theorem exec_rowSpareDone (tile) (row) (s : State) : exec (.rowSpareDone tile row) s = execRowSpareDone tile row s := rfl
theorem exec_hbmRepairDone (stack) (bank) (row) (s : State) : exec (.hbmRepairDone stack bank row) s = execHbmRepairDone stack bank row s := rfl
theorem exec_handlePostLost (s : State) : exec .handlePostLost s = execHandlePostLost s := rfl

end Sys2Proof.Machine
end

