-- ==== Sys2Proof/Laws/State.lean ====
section
/-! SUPPORT. Laws of the state: tables, and one small lemma per field and update. -/

namespace Sys2Proof.Machine

/-! ## Tables -/

@[simp] theorem look_put_self {α : Type} (d : α) (t : Table α) (n : Nat) (v : α) : look d (put t n v) n = v := by
  induction t with
  | nil => simp [put, look]
  | cons p t ih =>
    obtain ⟨k, w⟩ := p
    by_cases h : k = n <;> simp [put, look, h, ih]

theorem look_put_other {α : Type} (d : α) (t : Table α) {n m : Nat} (v : α) (h : m ≠ n) :
    look d (put t n v) m = look d t m := by
  induction t with
  | nil => simp [put, look, Ne.symm h]
  | cons p t ih =>
    obtain ⟨k, w⟩ := p
    by_cases hk : k = n
    · subst hk; simp [put, look, Ne.symm h]
    · by_cases hm : k = m
      · subst hm; simp [put, look, hk]
      · simp [put, look, hk, hm, ih]

@[simp] theorem put_put {α : Type} (t : Table α) (n : Nat) (v w : α) : put (put t n v) n w = put t n w := by
  induction t with
  | nil => simp [put]
  | cons p t ih =>
    obtain ⟨k, u⟩ := p
    by_cases h : k = n <;> simp [put, h, ih]


/-! ## One lemma per field and update -/

@[simp] theorem setHart_tiles (s : State) (h : Nat) (x : Hart) : (s.setHart h x).tiles = s.tiles := rfl
@[simp] theorem setHart_chans (s : State) (h : Nat) (x : Hart) : (s.setHart h x).chans = s.chans := rfl
@[simp] theorem setHart_mem (s : State) (h : Nat) (x : Hart) : (s.setHart h x).mem = s.mem := rfl
@[simp] theorem setHart_io (s : State) (h : Nat) (x : Hart) : (s.setHart h x).io = s.io := rfl
@[simp] theorem setHart_tlb (s : State) (h : Nat) (x : Hart) : (s.setHart h x).tlb = s.tlb := rfl
@[simp] theorem setHart_waybill (s : State) (h : Nat) (x : Hart) : (s.setHart h x).waybill = s.waybill := rfl
@[simp] theorem setHart_extents (s : State) (h : Nat) (x : Hart) : (s.setHart h x).extents = s.extents := rfl
@[simp] theorem setHart_depots (s : State) (h : Nat) (x : Hart) : (s.setHart h x).depots = s.depots := rfl
@[simp] theorem setHart_ctxs (s : State) (h : Nat) (x : Hart) : (s.setHart h x).ctxs = s.ctxs := rfl
@[simp] theorem setHart_queues (s : State) (h : Nat) (x : Hart) : (s.setHart h x).queues = s.queues := rfl
@[simp] theorem setHart_events (s : State) (h : Nat) (x : Hart) : (s.setHart h x).events = s.events := rfl
@[simp] theorem setHart_launches (s : State) (h : Nat) (x : Hart) : (s.setHart h x).launches = s.launches := rfl
@[simp] theorem setHart_nextLaunch (s : State) (h : Nat) (x : Hart) : (s.setHart h x).nextLaunch = s.nextLaunch := rfl
@[simp] theorem setHart_sigs (s : State) (h : Nat) (x : Hart) : (s.setHart h x).sigs = s.sigs := rfl
@[simp] theorem setHart_handles (s : State) (h : Nat) (x : Hart) : (s.setHart h x).handles = s.handles := rfl
@[simp] theorem setHart_posts (s : State) (h : Nat) (x : Hart) : (s.setHart h x).posts = s.posts := rfl
@[simp] theorem setHart_putqs (s : State) (h : Nat) (x : Hart) : (s.setHart h x).putqs = s.putqs := rfl
@[simp] theorem setHart_recs (s : State) (h : Nat) (x : Hart) : (s.setHart h x).recs = s.recs := rfl
@[simp] theorem setHart_linkOut (s : State) (h : Nat) (x : Hart) : (s.setHart h x).linkOut = s.linkOut := rfl
@[simp] theorem setHart_sigsAway (s : State) (h : Nat) (x : Hart) : (s.setHart h x).sigsAway = s.sigsAway := rfl
@[simp] theorem setHart_fabric (s : State) (h : Nat) (x : Hart) : (s.setHart h x).fabric = s.fabric := rfl
@[simp] theorem setHart_keyFill (s : State) (h : Nat) (x : Hart) : (s.setHart h x).keyFill = s.keyFill := rfl
@[simp] theorem setHart_foreign (s : State) (h : Nat) (x : Hart) : (s.setHart h x).foreign = s.foreign := rfl
@[simp] theorem setHart_revoked (s : State) (h : Nat) (x : Hart) : (s.setHart h x).revoked = s.revoked := rfl
@[simp] theorem setHart_finals (s : State) (h : Nat) (x : Hart) : (s.setHart h x).finals = s.finals := rfl
@[simp] theorem setHart_sensors (s : State) (h : Nat) (x : Hart) : (s.setHart h x).sensors = s.sensors := rfl
@[simp] theorem setHart_switches (s : State) (h : Nat) (x : Hart) : (s.setHart h x).switches = s.switches := rfl
@[simp] theorem setHart_images (s : State) (h : Nat) (x : Hart) : (s.setHart h x).images = s.images := rfl
@[simp] theorem setHart_keyGen (s : State) (h : Nat) (x : Hart) : (s.setHart h x).keyGen = s.keyGen := rfl
@[simp] theorem setHart_buckets (s : State) (h : Nat) (x : Hart) : (s.setHart h x).buckets = s.buckets := rfl
@[simp] theorem setHart_spares (s : State) (h : Nat) (x : Hart) : (s.setHart h x).spares = s.spares := rfl
@[simp] theorem setHart_repairs (s : State) (h : Nat) (x : Hart) : (s.setHart h x).repairs = s.repairs := rfl
@[simp] theorem setHart_sparing (s : State) (h : Nat) (x : Hart) : (s.setHart h x).sparing = s.sparing := rfl
@[simp] theorem setHart_repairing (s : State) (h : Nat) (x : Hart) : (s.setHart h x).repairing = s.repairing := rfl
@[simp] theorem setHart_worn (s : State) (h : Nat) (x : Hart) : (s.setHart h x).worn = s.worn := rfl
@[simp] theorem setHart_retired (s : State) (h : Nat) (x : Hart) : (s.setHart h x).retired = s.retired := rfl
@[simp] theorem setHart_pendingRet (s : State) (h : Nat) (x : Hart) : (s.setHart h x).pendingRet = s.pendingRet := rfl
@[simp] theorem setHart_bad (s : State) (h : Nat) (x : Hart) : (s.setHart h x).bad = s.bad := rfl
@[simp] theorem setHart_links (s : State) (h : Nat) (x : Hart) : (s.setHart h x).links = s.links := rfl
@[simp] theorem setHart_clocks (s : State) (h : Nat) (x : Hart) : (s.setHart h x).clocks = s.clocks := rfl
@[simp] theorem setHart_meas (s : State) (h : Nat) (x : Hart) : (s.setHart h x).meas = s.meas := rfl
@[simp] theorem setHart_spdm (s : State) (h : Nat) (x : Hart) : (s.setHart h x).spdm = s.spdm := rfl
@[simp] theorem setHart_replies (s : State) (h : Nat) (x : Hart) : (s.setHart h x).replies = s.replies := rfl
@[simp] theorem setHart_power (s : State) (h : Nat) (x : Hart) : (s.setHart h x).power = s.power := rfl
@[simp] theorem setHart_beatAt (s : State) (h : Nat) (x : Hart) : (s.setHart h x).beatAt = s.beatAt := rfl
@[simp] theorem setHart_trips (s : State) (h : Nat) (x : Hart) : (s.setHart h x).trips = s.trips := rfl
@[simp] theorem setHart_clk (s : State) (h : Nat) (x : Hart) : (s.setHart h x).clk = s.clk := rfl
@[simp] theorem setHart_cur (s : State) (h : Nat) (x : Hart) : (s.setHart h x).cur = s.cur := rfl
@[simp] theorem setHart_agenda (s : State) (h : Nat) (x : Hart) : (s.setHart h x).agenda = s.agenda := rfl
@[simp] theorem setHart_sealed (s : State) (h : Nat) (x : Hart) : (s.setHart h x).sealed = s.sealed := rfl
@[simp] theorem setHart_limits (s : State) (h : Nat) (x : Hart) : (s.setHart h x).limits = s.limits := rfl
@[simp] theorem setHart_turn (s : State) (h : Nat) (x : Hart) : (s.setHart h x).turn = s.turn := rfl
@[simp] theorem setHart_issue (s : State) (h : Nat) (x : Hart) : (s.setHart h x).issue = s.issue := rfl
@[simp] theorem setHart_free (s : State) (h : Nat) (x : Hart) : (s.setHart h x).free = s.free := rfl

@[simp] theorem setTile_harts (s : State) (t : Nat) (x : Tile) : (s.setTile t x).harts = s.harts := rfl
@[simp] theorem setTile_chans (s : State) (t : Nat) (x : Tile) : (s.setTile t x).chans = s.chans := rfl
@[simp] theorem setTile_mem (s : State) (t : Nat) (x : Tile) : (s.setTile t x).mem = s.mem := rfl
@[simp] theorem setTile_io (s : State) (t : Nat) (x : Tile) : (s.setTile t x).io = s.io := rfl
@[simp] theorem setTile_tlb (s : State) (t : Nat) (x : Tile) : (s.setTile t x).tlb = s.tlb := rfl
@[simp] theorem setTile_waybill (s : State) (t : Nat) (x : Tile) : (s.setTile t x).waybill = s.waybill := rfl
@[simp] theorem setTile_extents (s : State) (t : Nat) (x : Tile) : (s.setTile t x).extents = s.extents := rfl
@[simp] theorem setTile_depots (s : State) (t : Nat) (x : Tile) : (s.setTile t x).depots = s.depots := rfl
@[simp] theorem setTile_ctxs (s : State) (t : Nat) (x : Tile) : (s.setTile t x).ctxs = s.ctxs := rfl
@[simp] theorem setTile_queues (s : State) (t : Nat) (x : Tile) : (s.setTile t x).queues = s.queues := rfl
@[simp] theorem setTile_events (s : State) (t : Nat) (x : Tile) : (s.setTile t x).events = s.events := rfl
@[simp] theorem setTile_launches (s : State) (t : Nat) (x : Tile) : (s.setTile t x).launches = s.launches := rfl
@[simp] theorem setTile_nextLaunch (s : State) (t : Nat) (x : Tile) : (s.setTile t x).nextLaunch = s.nextLaunch := rfl
@[simp] theorem setTile_sigs (s : State) (t : Nat) (x : Tile) : (s.setTile t x).sigs = s.sigs := rfl
@[simp] theorem setTile_handles (s : State) (t : Nat) (x : Tile) : (s.setTile t x).handles = s.handles := rfl
@[simp] theorem setTile_posts (s : State) (t : Nat) (x : Tile) : (s.setTile t x).posts = s.posts := rfl
@[simp] theorem setTile_putqs (s : State) (t : Nat) (x : Tile) : (s.setTile t x).putqs = s.putqs := rfl
@[simp] theorem setTile_recs (s : State) (t : Nat) (x : Tile) : (s.setTile t x).recs = s.recs := rfl
@[simp] theorem setTile_linkOut (s : State) (t : Nat) (x : Tile) : (s.setTile t x).linkOut = s.linkOut := rfl
@[simp] theorem setTile_sigsAway (s : State) (t : Nat) (x : Tile) : (s.setTile t x).sigsAway = s.sigsAway := rfl
@[simp] theorem setTile_fabric (s : State) (t : Nat) (x : Tile) : (s.setTile t x).fabric = s.fabric := rfl
@[simp] theorem setTile_keyFill (s : State) (t : Nat) (x : Tile) : (s.setTile t x).keyFill = s.keyFill := rfl
@[simp] theorem setTile_foreign (s : State) (t : Nat) (x : Tile) : (s.setTile t x).foreign = s.foreign := rfl
@[simp] theorem setTile_revoked (s : State) (t : Nat) (x : Tile) : (s.setTile t x).revoked = s.revoked := rfl
@[simp] theorem setTile_finals (s : State) (t : Nat) (x : Tile) : (s.setTile t x).finals = s.finals := rfl
@[simp] theorem setTile_sensors (s : State) (t : Nat) (x : Tile) : (s.setTile t x).sensors = s.sensors := rfl
@[simp] theorem setTile_switches (s : State) (t : Nat) (x : Tile) : (s.setTile t x).switches = s.switches := rfl
@[simp] theorem setTile_images (s : State) (t : Nat) (x : Tile) : (s.setTile t x).images = s.images := rfl
@[simp] theorem setTile_keyGen (s : State) (t : Nat) (x : Tile) : (s.setTile t x).keyGen = s.keyGen := rfl
@[simp] theorem setTile_buckets (s : State) (t : Nat) (x : Tile) : (s.setTile t x).buckets = s.buckets := rfl
@[simp] theorem setTile_spares (s : State) (t : Nat) (x : Tile) : (s.setTile t x).spares = s.spares := rfl
@[simp] theorem setTile_repairs (s : State) (t : Nat) (x : Tile) : (s.setTile t x).repairs = s.repairs := rfl
@[simp] theorem setTile_sparing (s : State) (t : Nat) (x : Tile) : (s.setTile t x).sparing = s.sparing := rfl
@[simp] theorem setTile_repairing (s : State) (t : Nat) (x : Tile) : (s.setTile t x).repairing = s.repairing := rfl
@[simp] theorem setTile_worn (s : State) (t : Nat) (x : Tile) : (s.setTile t x).worn = s.worn := rfl
@[simp] theorem setTile_retired (s : State) (t : Nat) (x : Tile) : (s.setTile t x).retired = s.retired := rfl
@[simp] theorem setTile_pendingRet (s : State) (t : Nat) (x : Tile) : (s.setTile t x).pendingRet = s.pendingRet := rfl
@[simp] theorem setTile_bad (s : State) (t : Nat) (x : Tile) : (s.setTile t x).bad = s.bad := rfl
@[simp] theorem setTile_links (s : State) (t : Nat) (x : Tile) : (s.setTile t x).links = s.links := rfl
@[simp] theorem setTile_clocks (s : State) (t : Nat) (x : Tile) : (s.setTile t x).clocks = s.clocks := rfl
@[simp] theorem setTile_meas (s : State) (t : Nat) (x : Tile) : (s.setTile t x).meas = s.meas := rfl
@[simp] theorem setTile_spdm (s : State) (t : Nat) (x : Tile) : (s.setTile t x).spdm = s.spdm := rfl
@[simp] theorem setTile_replies (s : State) (t : Nat) (x : Tile) : (s.setTile t x).replies = s.replies := rfl
@[simp] theorem setTile_power (s : State) (t : Nat) (x : Tile) : (s.setTile t x).power = s.power := rfl
@[simp] theorem setTile_beatAt (s : State) (t : Nat) (x : Tile) : (s.setTile t x).beatAt = s.beatAt := rfl
@[simp] theorem setTile_trips (s : State) (t : Nat) (x : Tile) : (s.setTile t x).trips = s.trips := rfl
@[simp] theorem setTile_clk (s : State) (t : Nat) (x : Tile) : (s.setTile t x).clk = s.clk := rfl
@[simp] theorem setTile_cur (s : State) (t : Nat) (x : Tile) : (s.setTile t x).cur = s.cur := rfl
@[simp] theorem setTile_agenda (s : State) (t : Nat) (x : Tile) : (s.setTile t x).agenda = s.agenda := rfl
@[simp] theorem setTile_sealed (s : State) (t : Nat) (x : Tile) : (s.setTile t x).sealed = s.sealed := rfl
@[simp] theorem setTile_limits (s : State) (t : Nat) (x : Tile) : (s.setTile t x).limits = s.limits := rfl
@[simp] theorem setTile_turn (s : State) (t : Nat) (x : Tile) : (s.setTile t x).turn = s.turn := rfl
@[simp] theorem setTile_issue (s : State) (t : Nat) (x : Tile) : (s.setTile t x).issue = s.issue := rfl
@[simp] theorem setTile_free (s : State) (t : Nat) (x : Tile) : (s.setTile t x).free = s.free := rfl

@[simp] theorem setChan_harts (s : State) (u : Nat) (c : ChanNo) (x : Chan) : (s.setChan u c x).harts = s.harts := rfl
@[simp] theorem setChan_tiles (s : State) (u : Nat) (c : ChanNo) (x : Chan) : (s.setChan u c x).tiles = s.tiles := rfl
@[simp] theorem setChan_mem (s : State) (u : Nat) (c : ChanNo) (x : Chan) : (s.setChan u c x).mem = s.mem := rfl
@[simp] theorem setChan_io (s : State) (u : Nat) (c : ChanNo) (x : Chan) : (s.setChan u c x).io = s.io := rfl
@[simp] theorem setChan_tlb (s : State) (u : Nat) (c : ChanNo) (x : Chan) : (s.setChan u c x).tlb = s.tlb := rfl
@[simp] theorem setChan_waybill (s : State) (u : Nat) (c : ChanNo) (x : Chan) : (s.setChan u c x).waybill = s.waybill := rfl
@[simp] theorem setChan_extents (s : State) (u : Nat) (c : ChanNo) (x : Chan) : (s.setChan u c x).extents = s.extents := rfl
@[simp] theorem setChan_depots (s : State) (u : Nat) (c : ChanNo) (x : Chan) : (s.setChan u c x).depots = s.depots := rfl
@[simp] theorem setChan_ctxs (s : State) (u : Nat) (c : ChanNo) (x : Chan) : (s.setChan u c x).ctxs = s.ctxs := rfl
@[simp] theorem setChan_queues (s : State) (u : Nat) (c : ChanNo) (x : Chan) : (s.setChan u c x).queues = s.queues := rfl
@[simp] theorem setChan_events (s : State) (u : Nat) (c : ChanNo) (x : Chan) : (s.setChan u c x).events = s.events := rfl
@[simp] theorem setChan_launches (s : State) (u : Nat) (c : ChanNo) (x : Chan) : (s.setChan u c x).launches = s.launches := rfl
@[simp] theorem setChan_nextLaunch (s : State) (u : Nat) (c : ChanNo) (x : Chan) : (s.setChan u c x).nextLaunch = s.nextLaunch := rfl
@[simp] theorem setChan_sigs (s : State) (u : Nat) (c : ChanNo) (x : Chan) : (s.setChan u c x).sigs = s.sigs := rfl
@[simp] theorem setChan_handles (s : State) (u : Nat) (c : ChanNo) (x : Chan) : (s.setChan u c x).handles = s.handles := rfl
@[simp] theorem setChan_posts (s : State) (u : Nat) (c : ChanNo) (x : Chan) : (s.setChan u c x).posts = s.posts := rfl
@[simp] theorem setChan_putqs (s : State) (u : Nat) (c : ChanNo) (x : Chan) : (s.setChan u c x).putqs = s.putqs := rfl
@[simp] theorem setChan_recs (s : State) (u : Nat) (c : ChanNo) (x : Chan) : (s.setChan u c x).recs = s.recs := rfl
@[simp] theorem setChan_linkOut (s : State) (u : Nat) (c : ChanNo) (x : Chan) : (s.setChan u c x).linkOut = s.linkOut := rfl
@[simp] theorem setChan_sigsAway (s : State) (u : Nat) (c : ChanNo) (x : Chan) : (s.setChan u c x).sigsAway = s.sigsAway := rfl
@[simp] theorem setChan_fabric (s : State) (u : Nat) (c : ChanNo) (x : Chan) : (s.setChan u c x).fabric = s.fabric := rfl
@[simp] theorem setChan_keyFill (s : State) (u : Nat) (c : ChanNo) (x : Chan) : (s.setChan u c x).keyFill = s.keyFill := rfl
@[simp] theorem setChan_foreign (s : State) (u : Nat) (c : ChanNo) (x : Chan) : (s.setChan u c x).foreign = s.foreign := rfl
@[simp] theorem setChan_revoked (s : State) (u : Nat) (c : ChanNo) (x : Chan) : (s.setChan u c x).revoked = s.revoked := rfl
@[simp] theorem setChan_finals (s : State) (u : Nat) (c : ChanNo) (x : Chan) : (s.setChan u c x).finals = s.finals := rfl
@[simp] theorem setChan_sensors (s : State) (u : Nat) (c : ChanNo) (x : Chan) : (s.setChan u c x).sensors = s.sensors := rfl
@[simp] theorem setChan_switches (s : State) (u : Nat) (c : ChanNo) (x : Chan) : (s.setChan u c x).switches = s.switches := rfl
@[simp] theorem setChan_images (s : State) (u : Nat) (c : ChanNo) (x : Chan) : (s.setChan u c x).images = s.images := rfl
@[simp] theorem setChan_keyGen (s : State) (u : Nat) (c : ChanNo) (x : Chan) : (s.setChan u c x).keyGen = s.keyGen := rfl
@[simp] theorem setChan_buckets (s : State) (u : Nat) (c : ChanNo) (x : Chan) : (s.setChan u c x).buckets = s.buckets := rfl
@[simp] theorem setChan_spares (s : State) (u : Nat) (c : ChanNo) (x : Chan) : (s.setChan u c x).spares = s.spares := rfl
@[simp] theorem setChan_repairs (s : State) (u : Nat) (c : ChanNo) (x : Chan) : (s.setChan u c x).repairs = s.repairs := rfl
@[simp] theorem setChan_sparing (s : State) (u : Nat) (c : ChanNo) (x : Chan) : (s.setChan u c x).sparing = s.sparing := rfl
@[simp] theorem setChan_repairing (s : State) (u : Nat) (c : ChanNo) (x : Chan) : (s.setChan u c x).repairing = s.repairing := rfl
@[simp] theorem setChan_worn (s : State) (u : Nat) (c : ChanNo) (x : Chan) : (s.setChan u c x).worn = s.worn := rfl
@[simp] theorem setChan_retired (s : State) (u : Nat) (c : ChanNo) (x : Chan) : (s.setChan u c x).retired = s.retired := rfl
@[simp] theorem setChan_pendingRet (s : State) (u : Nat) (c : ChanNo) (x : Chan) : (s.setChan u c x).pendingRet = s.pendingRet := rfl
@[simp] theorem setChan_bad (s : State) (u : Nat) (c : ChanNo) (x : Chan) : (s.setChan u c x).bad = s.bad := rfl
@[simp] theorem setChan_links (s : State) (u : Nat) (c : ChanNo) (x : Chan) : (s.setChan u c x).links = s.links := rfl
@[simp] theorem setChan_clocks (s : State) (u : Nat) (c : ChanNo) (x : Chan) : (s.setChan u c x).clocks = s.clocks := rfl
@[simp] theorem setChan_meas (s : State) (u : Nat) (c : ChanNo) (x : Chan) : (s.setChan u c x).meas = s.meas := rfl
@[simp] theorem setChan_spdm (s : State) (u : Nat) (c : ChanNo) (x : Chan) : (s.setChan u c x).spdm = s.spdm := rfl
@[simp] theorem setChan_replies (s : State) (u : Nat) (c : ChanNo) (x : Chan) : (s.setChan u c x).replies = s.replies := rfl
@[simp] theorem setChan_power (s : State) (u : Nat) (c : ChanNo) (x : Chan) : (s.setChan u c x).power = s.power := rfl
@[simp] theorem setChan_beatAt (s : State) (u : Nat) (c : ChanNo) (x : Chan) : (s.setChan u c x).beatAt = s.beatAt := rfl
@[simp] theorem setChan_trips (s : State) (u : Nat) (c : ChanNo) (x : Chan) : (s.setChan u c x).trips = s.trips := rfl
@[simp] theorem setChan_clk (s : State) (u : Nat) (c : ChanNo) (x : Chan) : (s.setChan u c x).clk = s.clk := rfl
@[simp] theorem setChan_cur (s : State) (u : Nat) (c : ChanNo) (x : Chan) : (s.setChan u c x).cur = s.cur := rfl
@[simp] theorem setChan_agenda (s : State) (u : Nat) (c : ChanNo) (x : Chan) : (s.setChan u c x).agenda = s.agenda := rfl
@[simp] theorem setChan_sealed (s : State) (u : Nat) (c : ChanNo) (x : Chan) : (s.setChan u c x).sealed = s.sealed := rfl
@[simp] theorem setChan_limits (s : State) (u : Nat) (c : ChanNo) (x : Chan) : (s.setChan u c x).limits = s.limits := rfl
@[simp] theorem setChan_turn (s : State) (u : Nat) (c : ChanNo) (x : Chan) : (s.setChan u c x).turn = s.turn := rfl
@[simp] theorem setChan_issue (s : State) (u : Nat) (c : ChanNo) (x : Chan) : (s.setChan u c x).issue = s.issue := rfl
@[simp] theorem setChan_free (s : State) (u : Nat) (c : ChanNo) (x : Chan) : (s.setChan u c x).free = s.free := rfl

@[simp] theorem setCtx_harts (s : State) (c : Nat) (x : Ctx) : (s.setCtx c x).harts = s.harts := rfl
@[simp] theorem setCtx_tiles (s : State) (c : Nat) (x : Ctx) : (s.setCtx c x).tiles = s.tiles := rfl
@[simp] theorem setCtx_chans (s : State) (c : Nat) (x : Ctx) : (s.setCtx c x).chans = s.chans := rfl
@[simp] theorem setCtx_mem (s : State) (c : Nat) (x : Ctx) : (s.setCtx c x).mem = s.mem := rfl
@[simp] theorem setCtx_io (s : State) (c : Nat) (x : Ctx) : (s.setCtx c x).io = s.io := rfl
@[simp] theorem setCtx_tlb (s : State) (c : Nat) (x : Ctx) : (s.setCtx c x).tlb = s.tlb := rfl
@[simp] theorem setCtx_waybill (s : State) (c : Nat) (x : Ctx) : (s.setCtx c x).waybill = s.waybill := rfl
@[simp] theorem setCtx_extents (s : State) (c : Nat) (x : Ctx) : (s.setCtx c x).extents = s.extents := rfl
@[simp] theorem setCtx_depots (s : State) (c : Nat) (x : Ctx) : (s.setCtx c x).depots = s.depots := rfl
@[simp] theorem setCtx_queues (s : State) (c : Nat) (x : Ctx) : (s.setCtx c x).queues = s.queues := rfl
@[simp] theorem setCtx_events (s : State) (c : Nat) (x : Ctx) : (s.setCtx c x).events = s.events := rfl
@[simp] theorem setCtx_launches (s : State) (c : Nat) (x : Ctx) : (s.setCtx c x).launches = s.launches := rfl
@[simp] theorem setCtx_nextLaunch (s : State) (c : Nat) (x : Ctx) : (s.setCtx c x).nextLaunch = s.nextLaunch := rfl
@[simp] theorem setCtx_sigs (s : State) (c : Nat) (x : Ctx) : (s.setCtx c x).sigs = s.sigs := rfl
@[simp] theorem setCtx_handles (s : State) (c : Nat) (x : Ctx) : (s.setCtx c x).handles = s.handles := rfl
@[simp] theorem setCtx_posts (s : State) (c : Nat) (x : Ctx) : (s.setCtx c x).posts = s.posts := rfl
@[simp] theorem setCtx_putqs (s : State) (c : Nat) (x : Ctx) : (s.setCtx c x).putqs = s.putqs := rfl
@[simp] theorem setCtx_recs (s : State) (c : Nat) (x : Ctx) : (s.setCtx c x).recs = s.recs := rfl
@[simp] theorem setCtx_linkOut (s : State) (c : Nat) (x : Ctx) : (s.setCtx c x).linkOut = s.linkOut := rfl
@[simp] theorem setCtx_sigsAway (s : State) (c : Nat) (x : Ctx) : (s.setCtx c x).sigsAway = s.sigsAway := rfl
@[simp] theorem setCtx_fabric (s : State) (c : Nat) (x : Ctx) : (s.setCtx c x).fabric = s.fabric := rfl
@[simp] theorem setCtx_keyFill (s : State) (c : Nat) (x : Ctx) : (s.setCtx c x).keyFill = s.keyFill := rfl
@[simp] theorem setCtx_foreign (s : State) (c : Nat) (x : Ctx) : (s.setCtx c x).foreign = s.foreign := rfl
@[simp] theorem setCtx_revoked (s : State) (c : Nat) (x : Ctx) : (s.setCtx c x).revoked = s.revoked := rfl
@[simp] theorem setCtx_finals (s : State) (c : Nat) (x : Ctx) : (s.setCtx c x).finals = s.finals := rfl
@[simp] theorem setCtx_sensors (s : State) (c : Nat) (x : Ctx) : (s.setCtx c x).sensors = s.sensors := rfl
@[simp] theorem setCtx_switches (s : State) (c : Nat) (x : Ctx) : (s.setCtx c x).switches = s.switches := rfl
@[simp] theorem setCtx_images (s : State) (c : Nat) (x : Ctx) : (s.setCtx c x).images = s.images := rfl
@[simp] theorem setCtx_keyGen (s : State) (c : Nat) (x : Ctx) : (s.setCtx c x).keyGen = s.keyGen := rfl
@[simp] theorem setCtx_buckets (s : State) (c : Nat) (x : Ctx) : (s.setCtx c x).buckets = s.buckets := rfl
@[simp] theorem setCtx_spares (s : State) (c : Nat) (x : Ctx) : (s.setCtx c x).spares = s.spares := rfl
@[simp] theorem setCtx_repairs (s : State) (c : Nat) (x : Ctx) : (s.setCtx c x).repairs = s.repairs := rfl
@[simp] theorem setCtx_sparing (s : State) (c : Nat) (x : Ctx) : (s.setCtx c x).sparing = s.sparing := rfl
@[simp] theorem setCtx_repairing (s : State) (c : Nat) (x : Ctx) : (s.setCtx c x).repairing = s.repairing := rfl
@[simp] theorem setCtx_worn (s : State) (c : Nat) (x : Ctx) : (s.setCtx c x).worn = s.worn := rfl
@[simp] theorem setCtx_retired (s : State) (c : Nat) (x : Ctx) : (s.setCtx c x).retired = s.retired := rfl
@[simp] theorem setCtx_pendingRet (s : State) (c : Nat) (x : Ctx) : (s.setCtx c x).pendingRet = s.pendingRet := rfl
@[simp] theorem setCtx_bad (s : State) (c : Nat) (x : Ctx) : (s.setCtx c x).bad = s.bad := rfl
@[simp] theorem setCtx_links (s : State) (c : Nat) (x : Ctx) : (s.setCtx c x).links = s.links := rfl
@[simp] theorem setCtx_clocks (s : State) (c : Nat) (x : Ctx) : (s.setCtx c x).clocks = s.clocks := rfl
@[simp] theorem setCtx_meas (s : State) (c : Nat) (x : Ctx) : (s.setCtx c x).meas = s.meas := rfl
@[simp] theorem setCtx_spdm (s : State) (c : Nat) (x : Ctx) : (s.setCtx c x).spdm = s.spdm := rfl
@[simp] theorem setCtx_replies (s : State) (c : Nat) (x : Ctx) : (s.setCtx c x).replies = s.replies := rfl
@[simp] theorem setCtx_power (s : State) (c : Nat) (x : Ctx) : (s.setCtx c x).power = s.power := rfl
@[simp] theorem setCtx_beatAt (s : State) (c : Nat) (x : Ctx) : (s.setCtx c x).beatAt = s.beatAt := rfl
@[simp] theorem setCtx_trips (s : State) (c : Nat) (x : Ctx) : (s.setCtx c x).trips = s.trips := rfl
@[simp] theorem setCtx_clk (s : State) (c : Nat) (x : Ctx) : (s.setCtx c x).clk = s.clk := rfl
@[simp] theorem setCtx_cur (s : State) (c : Nat) (x : Ctx) : (s.setCtx c x).cur = s.cur := rfl
@[simp] theorem setCtx_agenda (s : State) (c : Nat) (x : Ctx) : (s.setCtx c x).agenda = s.agenda := rfl
@[simp] theorem setCtx_sealed (s : State) (c : Nat) (x : Ctx) : (s.setCtx c x).sealed = s.sealed := rfl
@[simp] theorem setCtx_limits (s : State) (c : Nat) (x : Ctx) : (s.setCtx c x).limits = s.limits := rfl
@[simp] theorem setCtx_turn (s : State) (c : Nat) (x : Ctx) : (s.setCtx c x).turn = s.turn := rfl
@[simp] theorem setCtx_issue (s : State) (c : Nat) (x : Ctx) : (s.setCtx c x).issue = s.issue := rfl
@[simp] theorem setCtx_free (s : State) (c : Nat) (x : Ctx) : (s.setCtx c x).free = s.free := rfl

@[simp] theorem setQueue_harts (s : State) (q : Nat) (x : UQueue) : (s.setQueue q x).harts = s.harts := rfl
@[simp] theorem setQueue_tiles (s : State) (q : Nat) (x : UQueue) : (s.setQueue q x).tiles = s.tiles := rfl
@[simp] theorem setQueue_chans (s : State) (q : Nat) (x : UQueue) : (s.setQueue q x).chans = s.chans := rfl
@[simp] theorem setQueue_mem (s : State) (q : Nat) (x : UQueue) : (s.setQueue q x).mem = s.mem := rfl
@[simp] theorem setQueue_io (s : State) (q : Nat) (x : UQueue) : (s.setQueue q x).io = s.io := rfl
@[simp] theorem setQueue_tlb (s : State) (q : Nat) (x : UQueue) : (s.setQueue q x).tlb = s.tlb := rfl
@[simp] theorem setQueue_waybill (s : State) (q : Nat) (x : UQueue) : (s.setQueue q x).waybill = s.waybill := rfl
@[simp] theorem setQueue_extents (s : State) (q : Nat) (x : UQueue) : (s.setQueue q x).extents = s.extents := rfl
@[simp] theorem setQueue_depots (s : State) (q : Nat) (x : UQueue) : (s.setQueue q x).depots = s.depots := rfl
@[simp] theorem setQueue_ctxs (s : State) (q : Nat) (x : UQueue) : (s.setQueue q x).ctxs = s.ctxs := rfl
@[simp] theorem setQueue_events (s : State) (q : Nat) (x : UQueue) : (s.setQueue q x).events = s.events := rfl
@[simp] theorem setQueue_launches (s : State) (q : Nat) (x : UQueue) : (s.setQueue q x).launches = s.launches := rfl
@[simp] theorem setQueue_nextLaunch (s : State) (q : Nat) (x : UQueue) : (s.setQueue q x).nextLaunch = s.nextLaunch := rfl
@[simp] theorem setQueue_sigs (s : State) (q : Nat) (x : UQueue) : (s.setQueue q x).sigs = s.sigs := rfl
@[simp] theorem setQueue_handles (s : State) (q : Nat) (x : UQueue) : (s.setQueue q x).handles = s.handles := rfl
@[simp] theorem setQueue_posts (s : State) (q : Nat) (x : UQueue) : (s.setQueue q x).posts = s.posts := rfl
@[simp] theorem setQueue_putqs (s : State) (q : Nat) (x : UQueue) : (s.setQueue q x).putqs = s.putqs := rfl
@[simp] theorem setQueue_recs (s : State) (q : Nat) (x : UQueue) : (s.setQueue q x).recs = s.recs := rfl
@[simp] theorem setQueue_linkOut (s : State) (q : Nat) (x : UQueue) : (s.setQueue q x).linkOut = s.linkOut := rfl
@[simp] theorem setQueue_sigsAway (s : State) (q : Nat) (x : UQueue) : (s.setQueue q x).sigsAway = s.sigsAway := rfl
@[simp] theorem setQueue_fabric (s : State) (q : Nat) (x : UQueue) : (s.setQueue q x).fabric = s.fabric := rfl
@[simp] theorem setQueue_keyFill (s : State) (q : Nat) (x : UQueue) : (s.setQueue q x).keyFill = s.keyFill := rfl
@[simp] theorem setQueue_foreign (s : State) (q : Nat) (x : UQueue) : (s.setQueue q x).foreign = s.foreign := rfl
@[simp] theorem setQueue_revoked (s : State) (q : Nat) (x : UQueue) : (s.setQueue q x).revoked = s.revoked := rfl
@[simp] theorem setQueue_finals (s : State) (q : Nat) (x : UQueue) : (s.setQueue q x).finals = s.finals := rfl
@[simp] theorem setQueue_sensors (s : State) (q : Nat) (x : UQueue) : (s.setQueue q x).sensors = s.sensors := rfl
@[simp] theorem setQueue_switches (s : State) (q : Nat) (x : UQueue) : (s.setQueue q x).switches = s.switches := rfl
@[simp] theorem setQueue_images (s : State) (q : Nat) (x : UQueue) : (s.setQueue q x).images = s.images := rfl
@[simp] theorem setQueue_keyGen (s : State) (q : Nat) (x : UQueue) : (s.setQueue q x).keyGen = s.keyGen := rfl
@[simp] theorem setQueue_buckets (s : State) (q : Nat) (x : UQueue) : (s.setQueue q x).buckets = s.buckets := rfl
@[simp] theorem setQueue_spares (s : State) (q : Nat) (x : UQueue) : (s.setQueue q x).spares = s.spares := rfl
@[simp] theorem setQueue_repairs (s : State) (q : Nat) (x : UQueue) : (s.setQueue q x).repairs = s.repairs := rfl
@[simp] theorem setQueue_sparing (s : State) (q : Nat) (x : UQueue) : (s.setQueue q x).sparing = s.sparing := rfl
@[simp] theorem setQueue_repairing (s : State) (q : Nat) (x : UQueue) : (s.setQueue q x).repairing = s.repairing := rfl
@[simp] theorem setQueue_worn (s : State) (q : Nat) (x : UQueue) : (s.setQueue q x).worn = s.worn := rfl
@[simp] theorem setQueue_retired (s : State) (q : Nat) (x : UQueue) : (s.setQueue q x).retired = s.retired := rfl
@[simp] theorem setQueue_pendingRet (s : State) (q : Nat) (x : UQueue) : (s.setQueue q x).pendingRet = s.pendingRet := rfl
@[simp] theorem setQueue_bad (s : State) (q : Nat) (x : UQueue) : (s.setQueue q x).bad = s.bad := rfl
@[simp] theorem setQueue_links (s : State) (q : Nat) (x : UQueue) : (s.setQueue q x).links = s.links := rfl
@[simp] theorem setQueue_clocks (s : State) (q : Nat) (x : UQueue) : (s.setQueue q x).clocks = s.clocks := rfl
@[simp] theorem setQueue_meas (s : State) (q : Nat) (x : UQueue) : (s.setQueue q x).meas = s.meas := rfl
@[simp] theorem setQueue_spdm (s : State) (q : Nat) (x : UQueue) : (s.setQueue q x).spdm = s.spdm := rfl
@[simp] theorem setQueue_replies (s : State) (q : Nat) (x : UQueue) : (s.setQueue q x).replies = s.replies := rfl
@[simp] theorem setQueue_power (s : State) (q : Nat) (x : UQueue) : (s.setQueue q x).power = s.power := rfl
@[simp] theorem setQueue_beatAt (s : State) (q : Nat) (x : UQueue) : (s.setQueue q x).beatAt = s.beatAt := rfl
@[simp] theorem setQueue_trips (s : State) (q : Nat) (x : UQueue) : (s.setQueue q x).trips = s.trips := rfl
@[simp] theorem setQueue_clk (s : State) (q : Nat) (x : UQueue) : (s.setQueue q x).clk = s.clk := rfl
@[simp] theorem setQueue_cur (s : State) (q : Nat) (x : UQueue) : (s.setQueue q x).cur = s.cur := rfl
@[simp] theorem setQueue_agenda (s : State) (q : Nat) (x : UQueue) : (s.setQueue q x).agenda = s.agenda := rfl
@[simp] theorem setQueue_sealed (s : State) (q : Nat) (x : UQueue) : (s.setQueue q x).sealed = s.sealed := rfl
@[simp] theorem setQueue_limits (s : State) (q : Nat) (x : UQueue) : (s.setQueue q x).limits = s.limits := rfl
@[simp] theorem setQueue_turn (s : State) (q : Nat) (x : UQueue) : (s.setQueue q x).turn = s.turn := rfl
@[simp] theorem setQueue_issue (s : State) (q : Nat) (x : UQueue) : (s.setQueue q x).issue = s.issue := rfl
@[simp] theorem setQueue_free (s : State) (q : Nat) (x : UQueue) : (s.setQueue q x).free = s.free := rfl

@[simp] theorem setDepot_harts (s : State) (c i : Nat) (x : DepotRec) : (s.setDepot c i x).harts = s.harts := rfl
@[simp] theorem setDepot_tiles (s : State) (c i : Nat) (x : DepotRec) : (s.setDepot c i x).tiles = s.tiles := rfl
@[simp] theorem setDepot_chans (s : State) (c i : Nat) (x : DepotRec) : (s.setDepot c i x).chans = s.chans := rfl
@[simp] theorem setDepot_mem (s : State) (c i : Nat) (x : DepotRec) : (s.setDepot c i x).mem = s.mem := rfl
@[simp] theorem setDepot_io (s : State) (c i : Nat) (x : DepotRec) : (s.setDepot c i x).io = s.io := rfl
@[simp] theorem setDepot_tlb (s : State) (c i : Nat) (x : DepotRec) : (s.setDepot c i x).tlb = s.tlb := rfl
@[simp] theorem setDepot_waybill (s : State) (c i : Nat) (x : DepotRec) : (s.setDepot c i x).waybill = s.waybill := rfl
@[simp] theorem setDepot_extents (s : State) (c i : Nat) (x : DepotRec) : (s.setDepot c i x).extents = s.extents := rfl
@[simp] theorem setDepot_ctxs (s : State) (c i : Nat) (x : DepotRec) : (s.setDepot c i x).ctxs = s.ctxs := rfl
@[simp] theorem setDepot_queues (s : State) (c i : Nat) (x : DepotRec) : (s.setDepot c i x).queues = s.queues := rfl
@[simp] theorem setDepot_events (s : State) (c i : Nat) (x : DepotRec) : (s.setDepot c i x).events = s.events := rfl
@[simp] theorem setDepot_launches (s : State) (c i : Nat) (x : DepotRec) : (s.setDepot c i x).launches = s.launches := rfl
@[simp] theorem setDepot_nextLaunch (s : State) (c i : Nat) (x : DepotRec) : (s.setDepot c i x).nextLaunch = s.nextLaunch := rfl
@[simp] theorem setDepot_sigs (s : State) (c i : Nat) (x : DepotRec) : (s.setDepot c i x).sigs = s.sigs := rfl
@[simp] theorem setDepot_handles (s : State) (c i : Nat) (x : DepotRec) : (s.setDepot c i x).handles = s.handles := rfl
@[simp] theorem setDepot_posts (s : State) (c i : Nat) (x : DepotRec) : (s.setDepot c i x).posts = s.posts := rfl
@[simp] theorem setDepot_putqs (s : State) (c i : Nat) (x : DepotRec) : (s.setDepot c i x).putqs = s.putqs := rfl
@[simp] theorem setDepot_recs (s : State) (c i : Nat) (x : DepotRec) : (s.setDepot c i x).recs = s.recs := rfl
@[simp] theorem setDepot_linkOut (s : State) (c i : Nat) (x : DepotRec) : (s.setDepot c i x).linkOut = s.linkOut := rfl
@[simp] theorem setDepot_sigsAway (s : State) (c i : Nat) (x : DepotRec) : (s.setDepot c i x).sigsAway = s.sigsAway := rfl
@[simp] theorem setDepot_fabric (s : State) (c i : Nat) (x : DepotRec) : (s.setDepot c i x).fabric = s.fabric := rfl
@[simp] theorem setDepot_keyFill (s : State) (c i : Nat) (x : DepotRec) : (s.setDepot c i x).keyFill = s.keyFill := rfl
@[simp] theorem setDepot_foreign (s : State) (c i : Nat) (x : DepotRec) : (s.setDepot c i x).foreign = s.foreign := rfl
@[simp] theorem setDepot_revoked (s : State) (c i : Nat) (x : DepotRec) : (s.setDepot c i x).revoked = s.revoked := rfl
@[simp] theorem setDepot_finals (s : State) (c i : Nat) (x : DepotRec) : (s.setDepot c i x).finals = s.finals := rfl
@[simp] theorem setDepot_sensors (s : State) (c i : Nat) (x : DepotRec) : (s.setDepot c i x).sensors = s.sensors := rfl
@[simp] theorem setDepot_switches (s : State) (c i : Nat) (x : DepotRec) : (s.setDepot c i x).switches = s.switches := rfl
@[simp] theorem setDepot_images (s : State) (c i : Nat) (x : DepotRec) : (s.setDepot c i x).images = s.images := rfl
@[simp] theorem setDepot_keyGen (s : State) (c i : Nat) (x : DepotRec) : (s.setDepot c i x).keyGen = s.keyGen := rfl
@[simp] theorem setDepot_buckets (s : State) (c i : Nat) (x : DepotRec) : (s.setDepot c i x).buckets = s.buckets := rfl
@[simp] theorem setDepot_spares (s : State) (c i : Nat) (x : DepotRec) : (s.setDepot c i x).spares = s.spares := rfl
@[simp] theorem setDepot_repairs (s : State) (c i : Nat) (x : DepotRec) : (s.setDepot c i x).repairs = s.repairs := rfl
@[simp] theorem setDepot_sparing (s : State) (c i : Nat) (x : DepotRec) : (s.setDepot c i x).sparing = s.sparing := rfl
@[simp] theorem setDepot_repairing (s : State) (c i : Nat) (x : DepotRec) : (s.setDepot c i x).repairing = s.repairing := rfl
@[simp] theorem setDepot_worn (s : State) (c i : Nat) (x : DepotRec) : (s.setDepot c i x).worn = s.worn := rfl
@[simp] theorem setDepot_retired (s : State) (c i : Nat) (x : DepotRec) : (s.setDepot c i x).retired = s.retired := rfl
@[simp] theorem setDepot_pendingRet (s : State) (c i : Nat) (x : DepotRec) : (s.setDepot c i x).pendingRet = s.pendingRet := rfl
@[simp] theorem setDepot_bad (s : State) (c i : Nat) (x : DepotRec) : (s.setDepot c i x).bad = s.bad := rfl
@[simp] theorem setDepot_links (s : State) (c i : Nat) (x : DepotRec) : (s.setDepot c i x).links = s.links := rfl
@[simp] theorem setDepot_clocks (s : State) (c i : Nat) (x : DepotRec) : (s.setDepot c i x).clocks = s.clocks := rfl
@[simp] theorem setDepot_meas (s : State) (c i : Nat) (x : DepotRec) : (s.setDepot c i x).meas = s.meas := rfl
@[simp] theorem setDepot_spdm (s : State) (c i : Nat) (x : DepotRec) : (s.setDepot c i x).spdm = s.spdm := rfl
@[simp] theorem setDepot_replies (s : State) (c i : Nat) (x : DepotRec) : (s.setDepot c i x).replies = s.replies := rfl
@[simp] theorem setDepot_power (s : State) (c i : Nat) (x : DepotRec) : (s.setDepot c i x).power = s.power := rfl
@[simp] theorem setDepot_beatAt (s : State) (c i : Nat) (x : DepotRec) : (s.setDepot c i x).beatAt = s.beatAt := rfl
@[simp] theorem setDepot_trips (s : State) (c i : Nat) (x : DepotRec) : (s.setDepot c i x).trips = s.trips := rfl
@[simp] theorem setDepot_clk (s : State) (c i : Nat) (x : DepotRec) : (s.setDepot c i x).clk = s.clk := rfl
@[simp] theorem setDepot_cur (s : State) (c i : Nat) (x : DepotRec) : (s.setDepot c i x).cur = s.cur := rfl
@[simp] theorem setDepot_agenda (s : State) (c i : Nat) (x : DepotRec) : (s.setDepot c i x).agenda = s.agenda := rfl
@[simp] theorem setDepot_sealed (s : State) (c i : Nat) (x : DepotRec) : (s.setDepot c i x).sealed = s.sealed := rfl
@[simp] theorem setDepot_limits (s : State) (c i : Nat) (x : DepotRec) : (s.setDepot c i x).limits = s.limits := rfl
@[simp] theorem setDepot_turn (s : State) (c i : Nat) (x : DepotRec) : (s.setDepot c i x).turn = s.turn := rfl
@[simp] theorem setDepot_issue (s : State) (c i : Nat) (x : DepotRec) : (s.setDepot c i x).issue = s.issue := rfl
@[simp] theorem setDepot_free (s : State) (c i : Nat) (x : DepotRec) : (s.setDepot c i x).free = s.free := rfl

@[simp] theorem setLaunch_harts (s : State) (n : Nat) (x : Launch) : (s.setLaunch n x).harts = s.harts := rfl
@[simp] theorem setLaunch_tiles (s : State) (n : Nat) (x : Launch) : (s.setLaunch n x).tiles = s.tiles := rfl
@[simp] theorem setLaunch_chans (s : State) (n : Nat) (x : Launch) : (s.setLaunch n x).chans = s.chans := rfl
@[simp] theorem setLaunch_mem (s : State) (n : Nat) (x : Launch) : (s.setLaunch n x).mem = s.mem := rfl
@[simp] theorem setLaunch_io (s : State) (n : Nat) (x : Launch) : (s.setLaunch n x).io = s.io := rfl
@[simp] theorem setLaunch_tlb (s : State) (n : Nat) (x : Launch) : (s.setLaunch n x).tlb = s.tlb := rfl
@[simp] theorem setLaunch_waybill (s : State) (n : Nat) (x : Launch) : (s.setLaunch n x).waybill = s.waybill := rfl
@[simp] theorem setLaunch_extents (s : State) (n : Nat) (x : Launch) : (s.setLaunch n x).extents = s.extents := rfl
@[simp] theorem setLaunch_depots (s : State) (n : Nat) (x : Launch) : (s.setLaunch n x).depots = s.depots := rfl
@[simp] theorem setLaunch_ctxs (s : State) (n : Nat) (x : Launch) : (s.setLaunch n x).ctxs = s.ctxs := rfl
@[simp] theorem setLaunch_queues (s : State) (n : Nat) (x : Launch) : (s.setLaunch n x).queues = s.queues := rfl
@[simp] theorem setLaunch_events (s : State) (n : Nat) (x : Launch) : (s.setLaunch n x).events = s.events := rfl
@[simp] theorem setLaunch_nextLaunch (s : State) (n : Nat) (x : Launch) : (s.setLaunch n x).nextLaunch = s.nextLaunch := rfl
@[simp] theorem setLaunch_sigs (s : State) (n : Nat) (x : Launch) : (s.setLaunch n x).sigs = s.sigs := rfl
@[simp] theorem setLaunch_handles (s : State) (n : Nat) (x : Launch) : (s.setLaunch n x).handles = s.handles := rfl
@[simp] theorem setLaunch_posts (s : State) (n : Nat) (x : Launch) : (s.setLaunch n x).posts = s.posts := rfl
@[simp] theorem setLaunch_putqs (s : State) (n : Nat) (x : Launch) : (s.setLaunch n x).putqs = s.putqs := rfl
@[simp] theorem setLaunch_recs (s : State) (n : Nat) (x : Launch) : (s.setLaunch n x).recs = s.recs := rfl
@[simp] theorem setLaunch_linkOut (s : State) (n : Nat) (x : Launch) : (s.setLaunch n x).linkOut = s.linkOut := rfl
@[simp] theorem setLaunch_sigsAway (s : State) (n : Nat) (x : Launch) : (s.setLaunch n x).sigsAway = s.sigsAway := rfl
@[simp] theorem setLaunch_fabric (s : State) (n : Nat) (x : Launch) : (s.setLaunch n x).fabric = s.fabric := rfl
@[simp] theorem setLaunch_keyFill (s : State) (n : Nat) (x : Launch) : (s.setLaunch n x).keyFill = s.keyFill := rfl
@[simp] theorem setLaunch_foreign (s : State) (n : Nat) (x : Launch) : (s.setLaunch n x).foreign = s.foreign := rfl
@[simp] theorem setLaunch_revoked (s : State) (n : Nat) (x : Launch) : (s.setLaunch n x).revoked = s.revoked := rfl
@[simp] theorem setLaunch_finals (s : State) (n : Nat) (x : Launch) : (s.setLaunch n x).finals = s.finals := rfl
@[simp] theorem setLaunch_sensors (s : State) (n : Nat) (x : Launch) : (s.setLaunch n x).sensors = s.sensors := rfl
@[simp] theorem setLaunch_switches (s : State) (n : Nat) (x : Launch) : (s.setLaunch n x).switches = s.switches := rfl
@[simp] theorem setLaunch_images (s : State) (n : Nat) (x : Launch) : (s.setLaunch n x).images = s.images := rfl
@[simp] theorem setLaunch_keyGen (s : State) (n : Nat) (x : Launch) : (s.setLaunch n x).keyGen = s.keyGen := rfl
@[simp] theorem setLaunch_buckets (s : State) (n : Nat) (x : Launch) : (s.setLaunch n x).buckets = s.buckets := rfl
@[simp] theorem setLaunch_spares (s : State) (n : Nat) (x : Launch) : (s.setLaunch n x).spares = s.spares := rfl
@[simp] theorem setLaunch_repairs (s : State) (n : Nat) (x : Launch) : (s.setLaunch n x).repairs = s.repairs := rfl
@[simp] theorem setLaunch_sparing (s : State) (n : Nat) (x : Launch) : (s.setLaunch n x).sparing = s.sparing := rfl
@[simp] theorem setLaunch_repairing (s : State) (n : Nat) (x : Launch) : (s.setLaunch n x).repairing = s.repairing := rfl
@[simp] theorem setLaunch_worn (s : State) (n : Nat) (x : Launch) : (s.setLaunch n x).worn = s.worn := rfl
@[simp] theorem setLaunch_retired (s : State) (n : Nat) (x : Launch) : (s.setLaunch n x).retired = s.retired := rfl
@[simp] theorem setLaunch_pendingRet (s : State) (n : Nat) (x : Launch) : (s.setLaunch n x).pendingRet = s.pendingRet := rfl
@[simp] theorem setLaunch_bad (s : State) (n : Nat) (x : Launch) : (s.setLaunch n x).bad = s.bad := rfl
@[simp] theorem setLaunch_links (s : State) (n : Nat) (x : Launch) : (s.setLaunch n x).links = s.links := rfl
@[simp] theorem setLaunch_clocks (s : State) (n : Nat) (x : Launch) : (s.setLaunch n x).clocks = s.clocks := rfl
@[simp] theorem setLaunch_meas (s : State) (n : Nat) (x : Launch) : (s.setLaunch n x).meas = s.meas := rfl
@[simp] theorem setLaunch_spdm (s : State) (n : Nat) (x : Launch) : (s.setLaunch n x).spdm = s.spdm := rfl
@[simp] theorem setLaunch_replies (s : State) (n : Nat) (x : Launch) : (s.setLaunch n x).replies = s.replies := rfl
@[simp] theorem setLaunch_power (s : State) (n : Nat) (x : Launch) : (s.setLaunch n x).power = s.power := rfl
@[simp] theorem setLaunch_beatAt (s : State) (n : Nat) (x : Launch) : (s.setLaunch n x).beatAt = s.beatAt := rfl
@[simp] theorem setLaunch_trips (s : State) (n : Nat) (x : Launch) : (s.setLaunch n x).trips = s.trips := rfl
@[simp] theorem setLaunch_clk (s : State) (n : Nat) (x : Launch) : (s.setLaunch n x).clk = s.clk := rfl
@[simp] theorem setLaunch_cur (s : State) (n : Nat) (x : Launch) : (s.setLaunch n x).cur = s.cur := rfl
@[simp] theorem setLaunch_agenda (s : State) (n : Nat) (x : Launch) : (s.setLaunch n x).agenda = s.agenda := rfl
@[simp] theorem setLaunch_sealed (s : State) (n : Nat) (x : Launch) : (s.setLaunch n x).sealed = s.sealed := rfl
@[simp] theorem setLaunch_limits (s : State) (n : Nat) (x : Launch) : (s.setLaunch n x).limits = s.limits := rfl
@[simp] theorem setLaunch_turn (s : State) (n : Nat) (x : Launch) : (s.setLaunch n x).turn = s.turn := rfl
@[simp] theorem setLaunch_issue (s : State) (n : Nat) (x : Launch) : (s.setLaunch n x).issue = s.issue := rfl
@[simp] theorem setLaunch_free (s : State) (n : Nat) (x : Launch) : (s.setLaunch n x).free = s.free := rfl

@[simp] theorem dropLaunch_harts (s : State) (n : Nat) : (s.dropLaunch n).harts = s.harts := rfl
@[simp] theorem dropLaunch_tiles (s : State) (n : Nat) : (s.dropLaunch n).tiles = s.tiles := rfl
@[simp] theorem dropLaunch_chans (s : State) (n : Nat) : (s.dropLaunch n).chans = s.chans := rfl
@[simp] theorem dropLaunch_mem (s : State) (n : Nat) : (s.dropLaunch n).mem = s.mem := rfl
@[simp] theorem dropLaunch_io (s : State) (n : Nat) : (s.dropLaunch n).io = s.io := rfl
@[simp] theorem dropLaunch_tlb (s : State) (n : Nat) : (s.dropLaunch n).tlb = s.tlb := rfl
@[simp] theorem dropLaunch_waybill (s : State) (n : Nat) : (s.dropLaunch n).waybill = s.waybill := rfl
@[simp] theorem dropLaunch_extents (s : State) (n : Nat) : (s.dropLaunch n).extents = s.extents := rfl
@[simp] theorem dropLaunch_depots (s : State) (n : Nat) : (s.dropLaunch n).depots = s.depots := rfl
@[simp] theorem dropLaunch_ctxs (s : State) (n : Nat) : (s.dropLaunch n).ctxs = s.ctxs := rfl
@[simp] theorem dropLaunch_queues (s : State) (n : Nat) : (s.dropLaunch n).queues = s.queues := rfl
@[simp] theorem dropLaunch_events (s : State) (n : Nat) : (s.dropLaunch n).events = s.events := rfl
@[simp] theorem dropLaunch_nextLaunch (s : State) (n : Nat) : (s.dropLaunch n).nextLaunch = s.nextLaunch := rfl
@[simp] theorem dropLaunch_sigs (s : State) (n : Nat) : (s.dropLaunch n).sigs = s.sigs := rfl
@[simp] theorem dropLaunch_handles (s : State) (n : Nat) : (s.dropLaunch n).handles = s.handles := rfl
@[simp] theorem dropLaunch_posts (s : State) (n : Nat) : (s.dropLaunch n).posts = s.posts := rfl
@[simp] theorem dropLaunch_putqs (s : State) (n : Nat) : (s.dropLaunch n).putqs = s.putqs := rfl
@[simp] theorem dropLaunch_recs (s : State) (n : Nat) : (s.dropLaunch n).recs = s.recs := rfl
@[simp] theorem dropLaunch_linkOut (s : State) (n : Nat) : (s.dropLaunch n).linkOut = s.linkOut := rfl
@[simp] theorem dropLaunch_sigsAway (s : State) (n : Nat) : (s.dropLaunch n).sigsAway = s.sigsAway := rfl
@[simp] theorem dropLaunch_fabric (s : State) (n : Nat) : (s.dropLaunch n).fabric = s.fabric := rfl
@[simp] theorem dropLaunch_keyFill (s : State) (n : Nat) : (s.dropLaunch n).keyFill = s.keyFill := rfl
@[simp] theorem dropLaunch_foreign (s : State) (n : Nat) : (s.dropLaunch n).foreign = s.foreign := rfl
@[simp] theorem dropLaunch_revoked (s : State) (n : Nat) : (s.dropLaunch n).revoked = s.revoked := rfl
@[simp] theorem dropLaunch_finals (s : State) (n : Nat) : (s.dropLaunch n).finals = s.finals := rfl
@[simp] theorem dropLaunch_sensors (s : State) (n : Nat) : (s.dropLaunch n).sensors = s.sensors := rfl
@[simp] theorem dropLaunch_switches (s : State) (n : Nat) : (s.dropLaunch n).switches = s.switches := rfl
@[simp] theorem dropLaunch_images (s : State) (n : Nat) : (s.dropLaunch n).images = s.images := rfl
@[simp] theorem dropLaunch_keyGen (s : State) (n : Nat) : (s.dropLaunch n).keyGen = s.keyGen := rfl
@[simp] theorem dropLaunch_buckets (s : State) (n : Nat) : (s.dropLaunch n).buckets = s.buckets := rfl
@[simp] theorem dropLaunch_spares (s : State) (n : Nat) : (s.dropLaunch n).spares = s.spares := rfl
@[simp] theorem dropLaunch_repairs (s : State) (n : Nat) : (s.dropLaunch n).repairs = s.repairs := rfl
@[simp] theorem dropLaunch_sparing (s : State) (n : Nat) : (s.dropLaunch n).sparing = s.sparing := rfl
@[simp] theorem dropLaunch_repairing (s : State) (n : Nat) : (s.dropLaunch n).repairing = s.repairing := rfl
@[simp] theorem dropLaunch_worn (s : State) (n : Nat) : (s.dropLaunch n).worn = s.worn := rfl
@[simp] theorem dropLaunch_retired (s : State) (n : Nat) : (s.dropLaunch n).retired = s.retired := rfl
@[simp] theorem dropLaunch_pendingRet (s : State) (n : Nat) : (s.dropLaunch n).pendingRet = s.pendingRet := rfl
@[simp] theorem dropLaunch_bad (s : State) (n : Nat) : (s.dropLaunch n).bad = s.bad := rfl
@[simp] theorem dropLaunch_links (s : State) (n : Nat) : (s.dropLaunch n).links = s.links := rfl
@[simp] theorem dropLaunch_clocks (s : State) (n : Nat) : (s.dropLaunch n).clocks = s.clocks := rfl
@[simp] theorem dropLaunch_meas (s : State) (n : Nat) : (s.dropLaunch n).meas = s.meas := rfl
@[simp] theorem dropLaunch_spdm (s : State) (n : Nat) : (s.dropLaunch n).spdm = s.spdm := rfl
@[simp] theorem dropLaunch_replies (s : State) (n : Nat) : (s.dropLaunch n).replies = s.replies := rfl
@[simp] theorem dropLaunch_power (s : State) (n : Nat) : (s.dropLaunch n).power = s.power := rfl
@[simp] theorem dropLaunch_beatAt (s : State) (n : Nat) : (s.dropLaunch n).beatAt = s.beatAt := rfl
@[simp] theorem dropLaunch_trips (s : State) (n : Nat) : (s.dropLaunch n).trips = s.trips := rfl
@[simp] theorem dropLaunch_clk (s : State) (n : Nat) : (s.dropLaunch n).clk = s.clk := rfl
@[simp] theorem dropLaunch_cur (s : State) (n : Nat) : (s.dropLaunch n).cur = s.cur := rfl
@[simp] theorem dropLaunch_agenda (s : State) (n : Nat) : (s.dropLaunch n).agenda = s.agenda := rfl
@[simp] theorem dropLaunch_sealed (s : State) (n : Nat) : (s.dropLaunch n).sealed = s.sealed := rfl
@[simp] theorem dropLaunch_limits (s : State) (n : Nat) : (s.dropLaunch n).limits = s.limits := rfl
@[simp] theorem dropLaunch_turn (s : State) (n : Nat) : (s.dropLaunch n).turn = s.turn := rfl
@[simp] theorem dropLaunch_issue (s : State) (n : Nat) : (s.dropLaunch n).issue = s.issue := rfl
@[simp] theorem dropLaunch_free (s : State) (n : Nat) : (s.dropLaunch n).free = s.free := rfl

@[simp] theorem setLink_harts (s : State) (n : Nat) (x : Link) : (s.setLink n x).harts = s.harts := rfl
@[simp] theorem setLink_tiles (s : State) (n : Nat) (x : Link) : (s.setLink n x).tiles = s.tiles := rfl
@[simp] theorem setLink_chans (s : State) (n : Nat) (x : Link) : (s.setLink n x).chans = s.chans := rfl
@[simp] theorem setLink_mem (s : State) (n : Nat) (x : Link) : (s.setLink n x).mem = s.mem := rfl
@[simp] theorem setLink_io (s : State) (n : Nat) (x : Link) : (s.setLink n x).io = s.io := rfl
@[simp] theorem setLink_tlb (s : State) (n : Nat) (x : Link) : (s.setLink n x).tlb = s.tlb := rfl
@[simp] theorem setLink_waybill (s : State) (n : Nat) (x : Link) : (s.setLink n x).waybill = s.waybill := rfl
@[simp] theorem setLink_extents (s : State) (n : Nat) (x : Link) : (s.setLink n x).extents = s.extents := rfl
@[simp] theorem setLink_depots (s : State) (n : Nat) (x : Link) : (s.setLink n x).depots = s.depots := rfl
@[simp] theorem setLink_ctxs (s : State) (n : Nat) (x : Link) : (s.setLink n x).ctxs = s.ctxs := rfl
@[simp] theorem setLink_queues (s : State) (n : Nat) (x : Link) : (s.setLink n x).queues = s.queues := rfl
@[simp] theorem setLink_events (s : State) (n : Nat) (x : Link) : (s.setLink n x).events = s.events := rfl
@[simp] theorem setLink_launches (s : State) (n : Nat) (x : Link) : (s.setLink n x).launches = s.launches := rfl
@[simp] theorem setLink_nextLaunch (s : State) (n : Nat) (x : Link) : (s.setLink n x).nextLaunch = s.nextLaunch := rfl
@[simp] theorem setLink_sigs (s : State) (n : Nat) (x : Link) : (s.setLink n x).sigs = s.sigs := rfl
@[simp] theorem setLink_handles (s : State) (n : Nat) (x : Link) : (s.setLink n x).handles = s.handles := rfl
@[simp] theorem setLink_posts (s : State) (n : Nat) (x : Link) : (s.setLink n x).posts = s.posts := rfl
@[simp] theorem setLink_putqs (s : State) (n : Nat) (x : Link) : (s.setLink n x).putqs = s.putqs := rfl
@[simp] theorem setLink_recs (s : State) (n : Nat) (x : Link) : (s.setLink n x).recs = s.recs := rfl
@[simp] theorem setLink_linkOut (s : State) (n : Nat) (x : Link) : (s.setLink n x).linkOut = s.linkOut := rfl
@[simp] theorem setLink_sigsAway (s : State) (n : Nat) (x : Link) : (s.setLink n x).sigsAway = s.sigsAway := rfl
@[simp] theorem setLink_fabric (s : State) (n : Nat) (x : Link) : (s.setLink n x).fabric = s.fabric := rfl
@[simp] theorem setLink_keyFill (s : State) (n : Nat) (x : Link) : (s.setLink n x).keyFill = s.keyFill := rfl
@[simp] theorem setLink_foreign (s : State) (n : Nat) (x : Link) : (s.setLink n x).foreign = s.foreign := rfl
@[simp] theorem setLink_revoked (s : State) (n : Nat) (x : Link) : (s.setLink n x).revoked = s.revoked := rfl
@[simp] theorem setLink_finals (s : State) (n : Nat) (x : Link) : (s.setLink n x).finals = s.finals := rfl
@[simp] theorem setLink_sensors (s : State) (n : Nat) (x : Link) : (s.setLink n x).sensors = s.sensors := rfl
@[simp] theorem setLink_switches (s : State) (n : Nat) (x : Link) : (s.setLink n x).switches = s.switches := rfl
@[simp] theorem setLink_images (s : State) (n : Nat) (x : Link) : (s.setLink n x).images = s.images := rfl
@[simp] theorem setLink_keyGen (s : State) (n : Nat) (x : Link) : (s.setLink n x).keyGen = s.keyGen := rfl
@[simp] theorem setLink_buckets (s : State) (n : Nat) (x : Link) : (s.setLink n x).buckets = s.buckets := rfl
@[simp] theorem setLink_spares (s : State) (n : Nat) (x : Link) : (s.setLink n x).spares = s.spares := rfl
@[simp] theorem setLink_repairs (s : State) (n : Nat) (x : Link) : (s.setLink n x).repairs = s.repairs := rfl
@[simp] theorem setLink_sparing (s : State) (n : Nat) (x : Link) : (s.setLink n x).sparing = s.sparing := rfl
@[simp] theorem setLink_repairing (s : State) (n : Nat) (x : Link) : (s.setLink n x).repairing = s.repairing := rfl
@[simp] theorem setLink_worn (s : State) (n : Nat) (x : Link) : (s.setLink n x).worn = s.worn := rfl
@[simp] theorem setLink_retired (s : State) (n : Nat) (x : Link) : (s.setLink n x).retired = s.retired := rfl
@[simp] theorem setLink_pendingRet (s : State) (n : Nat) (x : Link) : (s.setLink n x).pendingRet = s.pendingRet := rfl
@[simp] theorem setLink_bad (s : State) (n : Nat) (x : Link) : (s.setLink n x).bad = s.bad := rfl
@[simp] theorem setLink_clocks (s : State) (n : Nat) (x : Link) : (s.setLink n x).clocks = s.clocks := rfl
@[simp] theorem setLink_meas (s : State) (n : Nat) (x : Link) : (s.setLink n x).meas = s.meas := rfl
@[simp] theorem setLink_spdm (s : State) (n : Nat) (x : Link) : (s.setLink n x).spdm = s.spdm := rfl
@[simp] theorem setLink_replies (s : State) (n : Nat) (x : Link) : (s.setLink n x).replies = s.replies := rfl
@[simp] theorem setLink_power (s : State) (n : Nat) (x : Link) : (s.setLink n x).power = s.power := rfl
@[simp] theorem setLink_beatAt (s : State) (n : Nat) (x : Link) : (s.setLink n x).beatAt = s.beatAt := rfl
@[simp] theorem setLink_trips (s : State) (n : Nat) (x : Link) : (s.setLink n x).trips = s.trips := rfl
@[simp] theorem setLink_clk (s : State) (n : Nat) (x : Link) : (s.setLink n x).clk = s.clk := rfl
@[simp] theorem setLink_cur (s : State) (n : Nat) (x : Link) : (s.setLink n x).cur = s.cur := rfl
@[simp] theorem setLink_agenda (s : State) (n : Nat) (x : Link) : (s.setLink n x).agenda = s.agenda := rfl
@[simp] theorem setLink_sealed (s : State) (n : Nat) (x : Link) : (s.setLink n x).sealed = s.sealed := rfl
@[simp] theorem setLink_limits (s : State) (n : Nat) (x : Link) : (s.setLink n x).limits = s.limits := rfl
@[simp] theorem setLink_turn (s : State) (n : Nat) (x : Link) : (s.setLink n x).turn = s.turn := rfl
@[simp] theorem setLink_issue (s : State) (n : Nat) (x : Link) : (s.setLink n x).issue = s.issue := rfl
@[simp] theorem setLink_free (s : State) (n : Nat) (x : Link) : (s.setLink n x).free = s.free := rfl

/-! ## Readers that an update leaves alone -/

@[simp] theorem setHart_tile (s : State) (h : Nat) (x : Hart) (n : Nat) : (s.setHart h x).tile n = s.tile n := rfl
@[simp] theorem setHart_chanSet (s : State) (h : Nat) (x : Hart) (n : Nat) : (s.setHart h x).chanSet n = s.chanSet n := rfl
@[simp] theorem setHart_ctx (s : State) (h : Nat) (x : Hart) (n : Nat) : (s.setHart h x).ctx n = s.ctx n := rfl
@[simp] theorem setHart_queue (s : State) (h : Nat) (x : Hart) (n : Nat) : (s.setHart h x).queue n = s.queue n := rfl
@[simp] theorem setHart_launchOf (s : State) (h : Nat) (x : Hart) (n : Nat) : (s.setHart h x).launch? n = s.launch? n := rfl
@[simp] theorem setHart_link (s : State) (h : Nat) (x : Hart) (n : Nat) : (s.setHart h x).link n = s.link n := rfl
@[simp] theorem setHart_dtime (s : State) (h : Nat) (x : Hart)  : (s.setHart h x).dtime = s.dtime := rfl
@[simp] theorem setTile_hart (s : State) (t : Nat) (x : Tile) (n : Nat) : (s.setTile t x).hart n = s.hart n := rfl
@[simp] theorem setTile_chanSet (s : State) (t : Nat) (x : Tile) (n : Nat) : (s.setTile t x).chanSet n = s.chanSet n := rfl
@[simp] theorem setTile_ctx (s : State) (t : Nat) (x : Tile) (n : Nat) : (s.setTile t x).ctx n = s.ctx n := rfl
@[simp] theorem setTile_queue (s : State) (t : Nat) (x : Tile) (n : Nat) : (s.setTile t x).queue n = s.queue n := rfl
@[simp] theorem setTile_launchOf (s : State) (t : Nat) (x : Tile) (n : Nat) : (s.setTile t x).launch? n = s.launch? n := rfl
@[simp] theorem setTile_link (s : State) (t : Nat) (x : Tile) (n : Nat) : (s.setTile t x).link n = s.link n := rfl
@[simp] theorem setTile_dtime (s : State) (t : Nat) (x : Tile)  : (s.setTile t x).dtime = s.dtime := rfl
@[simp] theorem setChan_tile (s : State) (u : Nat) (c : ChanNo) (x : Chan) (n : Nat) : (s.setChan u c x).tile n = s.tile n := rfl
@[simp] theorem setChan_hart (s : State) (u : Nat) (c : ChanNo) (x : Chan) (n : Nat) : (s.setChan u c x).hart n = s.hart n := rfl
@[simp] theorem setChan_ctx (s : State) (u : Nat) (c : ChanNo) (x : Chan) (n : Nat) : (s.setChan u c x).ctx n = s.ctx n := rfl
@[simp] theorem setChan_queue (s : State) (u : Nat) (c : ChanNo) (x : Chan) (n : Nat) : (s.setChan u c x).queue n = s.queue n := rfl
@[simp] theorem setChan_launchOf (s : State) (u : Nat) (c : ChanNo) (x : Chan) (n : Nat) : (s.setChan u c x).launch? n = s.launch? n := rfl
@[simp] theorem setChan_link (s : State) (u : Nat) (c : ChanNo) (x : Chan) (n : Nat) : (s.setChan u c x).link n = s.link n := rfl
@[simp] theorem setChan_dtime (s : State) (u : Nat) (c : ChanNo) (x : Chan)  : (s.setChan u c x).dtime = s.dtime := rfl
@[simp] theorem setCtx_tile (s : State) (c : Nat) (x : Ctx) (n : Nat) : (s.setCtx c x).tile n = s.tile n := rfl
@[simp] theorem setCtx_hart (s : State) (c : Nat) (x : Ctx) (n : Nat) : (s.setCtx c x).hart n = s.hart n := rfl
@[simp] theorem setCtx_chanSet (s : State) (c : Nat) (x : Ctx) (n : Nat) : (s.setCtx c x).chanSet n = s.chanSet n := rfl
@[simp] theorem setCtx_queue (s : State) (c : Nat) (x : Ctx) (n : Nat) : (s.setCtx c x).queue n = s.queue n := rfl
@[simp] theorem setCtx_launchOf (s : State) (c : Nat) (x : Ctx) (n : Nat) : (s.setCtx c x).launch? n = s.launch? n := rfl
@[simp] theorem setCtx_link (s : State) (c : Nat) (x : Ctx) (n : Nat) : (s.setCtx c x).link n = s.link n := rfl
@[simp] theorem setCtx_dtime (s : State) (c : Nat) (x : Ctx)  : (s.setCtx c x).dtime = s.dtime := rfl
@[simp] theorem setQueue_tile (s : State) (q : Nat) (x : UQueue) (n : Nat) : (s.setQueue q x).tile n = s.tile n := rfl
@[simp] theorem setQueue_hart (s : State) (q : Nat) (x : UQueue) (n : Nat) : (s.setQueue q x).hart n = s.hart n := rfl
@[simp] theorem setQueue_chanSet (s : State) (q : Nat) (x : UQueue) (n : Nat) : (s.setQueue q x).chanSet n = s.chanSet n := rfl
@[simp] theorem setQueue_ctx (s : State) (q : Nat) (x : UQueue) (n : Nat) : (s.setQueue q x).ctx n = s.ctx n := rfl
@[simp] theorem setQueue_launchOf (s : State) (q : Nat) (x : UQueue) (n : Nat) : (s.setQueue q x).launch? n = s.launch? n := rfl
@[simp] theorem setQueue_link (s : State) (q : Nat) (x : UQueue) (n : Nat) : (s.setQueue q x).link n = s.link n := rfl
@[simp] theorem setQueue_dtime (s : State) (q : Nat) (x : UQueue)  : (s.setQueue q x).dtime = s.dtime := rfl
@[simp] theorem setDepot_tile (s : State) (c i : Nat) (x : DepotRec) (n : Nat) : (s.setDepot c i x).tile n = s.tile n := rfl
@[simp] theorem setDepot_hart (s : State) (c i : Nat) (x : DepotRec) (n : Nat) : (s.setDepot c i x).hart n = s.hart n := rfl
@[simp] theorem setDepot_chanSet (s : State) (c i : Nat) (x : DepotRec) (n : Nat) : (s.setDepot c i x).chanSet n = s.chanSet n := rfl
@[simp] theorem setDepot_ctx (s : State) (c i : Nat) (x : DepotRec) (n : Nat) : (s.setDepot c i x).ctx n = s.ctx n := rfl
@[simp] theorem setDepot_queue (s : State) (c i : Nat) (x : DepotRec) (n : Nat) : (s.setDepot c i x).queue n = s.queue n := rfl
@[simp] theorem setDepot_launchOf (s : State) (c i : Nat) (x : DepotRec) (n : Nat) : (s.setDepot c i x).launch? n = s.launch? n := rfl
@[simp] theorem setDepot_link (s : State) (c i : Nat) (x : DepotRec) (n : Nat) : (s.setDepot c i x).link n = s.link n := rfl
@[simp] theorem setDepot_dtime (s : State) (c i : Nat) (x : DepotRec)  : (s.setDepot c i x).dtime = s.dtime := rfl
@[simp] theorem setLaunch_tile (s : State) (m : Nat) (x : Launch) (n : Nat) : (s.setLaunch m x).tile n = s.tile n := rfl
@[simp] theorem setLaunch_hart (s : State) (m : Nat) (x : Launch) (n : Nat) : (s.setLaunch m x).hart n = s.hart n := rfl
@[simp] theorem setLaunch_chanSet (s : State) (m : Nat) (x : Launch) (n : Nat) : (s.setLaunch m x).chanSet n = s.chanSet n := rfl
@[simp] theorem setLaunch_ctx (s : State) (m : Nat) (x : Launch) (n : Nat) : (s.setLaunch m x).ctx n = s.ctx n := rfl
@[simp] theorem setLaunch_queue (s : State) (m : Nat) (x : Launch) (n : Nat) : (s.setLaunch m x).queue n = s.queue n := rfl
@[simp] theorem setLaunch_link (s : State) (m : Nat) (x : Launch) (n : Nat) : (s.setLaunch m x).link n = s.link n := rfl
@[simp] theorem setLaunch_dtime (s : State) (m : Nat) (x : Launch)  : (s.setLaunch m x).dtime = s.dtime := rfl
@[simp] theorem dropLaunch_tile (s : State) (m : Nat) (n : Nat) : (s.dropLaunch m).tile n = s.tile n := rfl
@[simp] theorem dropLaunch_hart (s : State) (m : Nat) (n : Nat) : (s.dropLaunch m).hart n = s.hart n := rfl
@[simp] theorem dropLaunch_chanSet (s : State) (m : Nat) (n : Nat) : (s.dropLaunch m).chanSet n = s.chanSet n := rfl
@[simp] theorem dropLaunch_ctx (s : State) (m : Nat) (n : Nat) : (s.dropLaunch m).ctx n = s.ctx n := rfl
@[simp] theorem dropLaunch_queue (s : State) (m : Nat) (n : Nat) : (s.dropLaunch m).queue n = s.queue n := rfl
@[simp] theorem dropLaunch_link (s : State) (m : Nat) (n : Nat) : (s.dropLaunch m).link n = s.link n := rfl
@[simp] theorem dropLaunch_dtime (s : State) (m : Nat)  : (s.dropLaunch m).dtime = s.dtime := rfl
@[simp] theorem setLink_tile (s : State) (m : Nat) (x : Link) (n : Nat) : (s.setLink m x).tile n = s.tile n := rfl
@[simp] theorem setLink_hart (s : State) (m : Nat) (x : Link) (n : Nat) : (s.setLink m x).hart n = s.hart n := rfl
@[simp] theorem setLink_chanSet (s : State) (m : Nat) (x : Link) (n : Nat) : (s.setLink m x).chanSet n = s.chanSet n := rfl
@[simp] theorem setLink_ctx (s : State) (m : Nat) (x : Link) (n : Nat) : (s.setLink m x).ctx n = s.ctx n := rfl
@[simp] theorem setLink_queue (s : State) (m : Nat) (x : Link) (n : Nat) : (s.setLink m x).queue n = s.queue n := rfl
@[simp] theorem setLink_launchOf (s : State) (m : Nat) (x : Link) (n : Nat) : (s.setLink m x).launch? n = s.launch? n := rfl
@[simp] theorem setLink_dtime (s : State) (m : Nat) (x : Link)  : (s.setLink m x).dtime = s.dtime := rfl

/-! ## The moving core and its tile, in terms of the tables -/

@[simp] theorem me_eq (s : State) : s.me = s.hart s.cur := rfl
@[simp] theorem myTile_eq (s : State) : s.myTile = s.tile (tileOf s.cur) := rfl
@[simp] theorem setMe_eq (s : State) (x : Hart) : s.setMe x = s.setHart s.cur x := rfl
@[simp] theorem setMyTile_eq (s : State) (x : Tile) : s.setMyTile x = s.setTile (tileOf s.cur) x := rfl
@[simp] theorem mapHart_eq (s : State) (h : Nat) (f : Hart → Hart) : s.mapHart h f = s.setHart h (f (s.hart h)) := rfl
@[simp] theorem mapTile_eq (s : State) (t : Nat) (f : Tile → Tile) : s.mapTile t f = s.setTile t (f (s.tile t)) := rfl
@[simp] theorem mapMe_eq (s : State) (f : Hart → Hart) : s.mapMe f = s.setHart s.cur (f (s.hart s.cur)) := rfl

/-! ## Readers of what was updated -/

@[simp] theorem hart_setHart_self (s : State) (h : Nat) (x : Hart) : (s.setHart h x).hart h = x := look_put_self _ _ _ _
theorem hart_setHart_other (s : State) {h k : Nat} (x : Hart) (hk : k ≠ h) : (s.setHart h x).hart k = s.hart k :=
  look_put_other _ _ _ hk
@[simp] theorem setHart_setHart (s : State) (h : Nat) (x y : Hart) : (s.setHart h x).setHart h y = s.setHart h y := by
  simp [State.setHart]
@[simp] theorem tile_setTile_self (s : State) (t : Nat) (x : Tile) : (s.setTile t x).tile t = x := look_put_self _ _ _ _
theorem tile_setTile_other (s : State) {t u : Nat} (x : Tile) (hu : u ≠ t) : (s.setTile t x).tile u = s.tile u :=
  look_put_other _ _ _ hu
@[simp] theorem setTile_setTile (s : State) (t : Nat) (x y : Tile) : (s.setTile t x).setTile t y = s.setTile t y := by
  simp [State.setTile]
@[simp] theorem chanSet_setChan_self (s : State) (u : Nat) (c : ChanNo) (x : Chan) :
    (s.setChan u c x).chanSet u = (s.chanSet u).set c x := look_put_self _ _ _ _
theorem chanSet_setChan_other (s : State) {u v : Nat} (c : ChanNo) (x : Chan) (h : v ≠ u) :
    (s.setChan u c x).chanSet v = s.chanSet v := look_put_other _ _ _ h
@[simp] theorem ctx_setCtx_self (s : State) (c : Nat) (x : Ctx) : (s.setCtx c x).ctx c = x := look_put_self _ _ _ _
@[simp] theorem queue_setQueue_self (s : State) (q : Nat) (x : UQueue) : (s.setQueue q x).queue q = x := look_put_self _ _ _ _
@[simp] theorem depot_setDepot_self (s : State) (c i : Nat) (x : DepotRec) : (s.setDepot c i x).depot c i = x :=
  look_put_self _ _ _ _
@[simp] theorem link_setLink_self (s : State) (n : Nat) (x : Link) : (s.setLink n x).link n = x := look_put_self _ _ _ _

/-! ## Registers (R51) -/

@[simp] theorem rx_zero (x : Hart) : x.rx 0 = 0 := rfl
@[simp] theorem wx_zero (x : Hart) (v : Word) : x.wx 0 v = x := rfl
@[simp] theorem rk_zero (x : Hart) : x.rk 0 = BitVec.allOnes 64 := rfl
@[simp] theorem wk_zero (x : Hart) (v : Word) : x.wk 0 v = x := rfl

theorem rx_wx_self (x : Hart) {r : XReg} (v : Word) (h : r ≠ 0) : (x.wx r v).rx r = v := by
  have h' : r.val ≠ 0 := fun e => h (Fin.ext e)
  simp [Hart.wx, Hart.rx, h']

theorem rx_wx_other (x : Hart) {r q : XReg} (v : Word) (h : q ≠ r) : (x.wx r v).rx q = x.rx q := by
  have h' : (r : Nat) ≠ q := fun e => h (Fin.ext e.symm)
  by_cases hr : r.val = 0
  · simp [Hart.wx, hr]
  · by_cases hq : q.val = 0
    · simp [Hart.rx, hq]
    · simp [Hart.wx, Hart.rx, hr, hq, Vector.getElem_set_ne _ _ h']

end Sys2Proof.Machine
end

