-- ==== Sys2Proof/Laws/Memory.lean ====
section
/-! SUPPORT. Laws of the byte memories: a read after a write, and the canonical form that every write keeps. -/

namespace Sys2Proof.Machine

/-- Every address of a memory is at least a. -/
def AllAbove (a : Nat) (m : List Host.Cell) : Prop := ∀ c ∈ m, a < c.1

/-- The canonical form as a recursion: the first byte is not 0, later addresses are higher, and the rest is canonical. -/
theorem wf_cons (a : Nat) (b : Byte) (m : List Host.Cell) :
    Memory.wf ((a, b) :: m) = true ↔ b ≠ 0 ∧ AllAbove a m ∧ Memory.wf m = true := by
  induction m generalizing a b with
  | nil => simp [Memory.wf, AllAbove]
  | cons c m ih =>
    obtain ⟨k, d⟩ := c
    have e : Memory.wf ((a, b) :: (k, d) :: m) = (b != 0 && decide (a < k) && Memory.wf ((k, d) :: m)) := rfl
    rw [e]
    simp only [Bool.and_eq_true, bne_iff_ne, ne_eq, decide_eq_true_eq, and_assoc]
    refine and_congr_right fun _ => ⟨fun ⟨h, w⟩ => ⟨?_, w⟩, fun ⟨h, w⟩ => ⟨h (k, d) (by simp), w⟩⟩
    intro x hx
    rcases List.mem_cons.1 hx with rfl | hx
    · exact h
    · exact Nat.lt_trans h (((ih k d).1 w).2.1 x hx)

theorem above_memSet {l : Nat} {m : List Host.Cell} {a : Nat} {b : Byte} (h : AllAbove l m) (ha : l < a) :
    AllAbove l (memSet m a b) := by
  induction m with
  | nil => unfold memSet; split <;> simp [AllAbove, ha]
  | cons c m ih =>
    obtain ⟨k, d⟩ := c
    have hk : l < k := h (k, d) (by simp)
    have hm : AllAbove l m := fun x hx => h x (by simp [hx])
    unfold memSet
    split
    · split
      · exact h
      · intro x hx
        rcases List.mem_cons.1 hx with rfl | hx
        · exact ha
        · exact h x hx
    · split
      · split
        · exact hm
        · intro x hx
          rcases List.mem_cons.1 hx with rfl | hx
          · exact ha
          · exact hm x hx
      · intro x hx
        rcases List.mem_cons.1 hx with rfl | hx
        · exact hk
        · exact ih hm x hx

/-- A write of one byte keeps the canonical form. -/
theorem wf_memSet {m : List Host.Cell} (h : Memory.wf m = true) (a : Nat) (b : Byte) : Memory.wf (memSet m a b) = true := by
  induction m with
  | nil =>
    unfold memSet
    split
    · rfl
    · rename_i hb; exact bne_iff_ne.2 hb
  | cons c m ih =>
    obtain ⟨k, d⟩ := c
    obtain ⟨hd, hk, hm⟩ := (wf_cons k d m).1 h
    unfold memSet
    split
    · rename_i hlt
      split
      · exact h
      · rename_i hb
        refine (wf_cons a b _).2 ⟨hb, ?_, h⟩
        intro x hx
        rcases List.mem_cons.1 hx with rfl | hx
        · exact hlt
        · exact Nat.lt_trans hlt (hk x hx)
    · split
      · rename_i he
        subst he
        split
        · exact hm
        · rename_i hb; exact (wf_cons a b m).2 ⟨hb, hk, hm⟩
      · rename_i h1 h2
        exact (wf_cons k d _).2 ⟨hd, above_memSet hk (by omega), ih hm⟩

/-- A write of bytes keeps the canonical form. -/
theorem wf_memWrite {m : List Host.Cell} (h : Memory.wf m = true) (a : Nat) (bs : List Byte) :
    Memory.wf (memWrite m a bs) = true := by
  induction bs generalizing m a with
  | nil => exact h
  | cons b bs ih => exact ih (wf_memSet h a b) (a + 1)

theorem wf_filter {m : List Host.Cell} (h : Memory.wf m = true) (p : Host.Cell → Bool) : Memory.wf (m.filter p) = true := by
  induction m with
  | nil => rfl
  | cons c m ih =>
    obtain ⟨k, d⟩ := c
    obtain ⟨hd, hk, hm⟩ := (wf_cons k d m).1 h
    by_cases hp : p (k, d) = true
    · rw [List.filter_cons_of_pos hp]
      exact (wf_cons k d _).2 ⟨hd, fun x hx => hk x (List.mem_of_mem_filter hx), ih hm⟩
    · rw [List.filter_cons_of_neg hp]; exact ih hm

/-- A clear of a range keeps the canonical form. -/
theorem wf_memClear {m : List Host.Cell} (h : Memory.wf m = true) (lo hi : Nat) : Memory.wf (memClear m lo hi) = true :=
  wf_filter h _

/-- A byte that no pair lists reads 0. -/
theorem memGet_of_above {m : List Host.Cell} {a : Nat} (h : AllAbove a m) : memGet m a = 0 := by
  induction m with
  | nil => rfl
  | cons c m ih =>
    obtain ⟨k, d⟩ := c
    have : a < k := h (k, d) (by simp)
    have hk : k ≠ a := by omega
    simp only [memGet, hk, if_false]
    exact ih fun x hx => h x (by simp [hx])

/-- A read of the byte that was written. -/
theorem memGet_memSet_self {m : List Host.Cell} (h : Memory.wf m = true) (a : Nat) (b : Byte) :
    memGet (memSet m a b) a = b := by
  induction m with
  | nil =>
    unfold memSet
    split
    · rename_i hb; rw [hb]; rfl
    · simp [memGet]
  | cons c m ih =>
    obtain ⟨k, d⟩ := c
    obtain ⟨hd, hk, hm⟩ := (wf_cons k d m).1 h
    unfold memSet
    split
    · rename_i hlt
      split
      · rename_i hb
        rw [hb]
        exact memGet_of_above fun x hx => by
          rcases List.mem_cons.1 hx with rfl | hx
          · exact hlt
          · exact Nat.lt_trans hlt (hk x hx)
      · simp [memGet]
    · split
      · rename_i he
        subst he
        split
        · rename_i hb; rw [hb]; exact memGet_of_above hk
        · simp [memGet]
      · rename_i h1 h2
        have : k ≠ a := fun e => h2 e.symm
        simp only [memGet, this, if_false]
        exact ih hm

/-- A write of one byte leaves every other byte. -/
theorem memGet_memSet_other (m : List Host.Cell) {a c : Nat} (b : Byte) (hc : c ≠ a) :
    memGet (memSet m a b) c = memGet m c := by
  have hac : ¬ a = c := fun e => hc e.symm
  induction m with
  | nil => unfold memSet; split <;> simp [memGet, hac]
  | cons p m ih =>
    obtain ⟨k, d⟩ := p
    unfold memSet
    split
    · split
      · rfl
      · simp [memGet, hac]
    · split
      · rename_i he
        subst he
        split <;> simp [memGet, hac]
      · simp only [memGet]
        split
        · rfl
        · exact ih

/-- A write of bytes leaves every byte outside it. -/
theorem memGet_memWrite_outside (m : List Host.Cell) {a c : Nat} (bs : List Byte) (hc : c < a ∨ a + bs.length ≤ c) :
    memGet (memWrite m a bs) c = memGet m c := by
  induction bs generalizing m a with
  | nil => rfl
  | cons b bs ih =>
    simp only [List.length_cons] at hc
    rw [memWrite, ih _ (by omega), memGet_memSet_other m b (by omega)]

/-- A read of the bytes that were written. -/
theorem memRead_memWrite {m : List Host.Cell} (h : Memory.wf m = true) (a : Nat) (bs : List Byte) :
    memRead (memWrite m a bs) a bs.length = bs := by
  induction bs generalizing m a with
  | nil => rfl
  | cons b bs ih =>
    simp only [memWrite, List.length_cons, memRead]
    rw [memGet_memWrite_outside _ _ (Or.inl (by omega)), memGet_memSet_self h, ih (wf_memSet h a b)]

/-! ## Device memory -/

theorem wf_foldl {α : Type} (f : List Host.Cell → α → List Host.Cell)
    (hf : ∀ m x, Memory.wf m = true → Memory.wf (f m x) = true) (l : List α) {m : List Host.Cell} (h : Memory.wf m = true) :
    Memory.wf (l.foldl f m) = true := by
  induction l generalizing m with
  | nil => exact h
  | cons x l ih => exact ih (hf m x h)

/-- Breaking seals keeps device memory canonical, and changes nothing but it and the seals. -/
theorem wf_breakSeals {s : State} (h : Memory.wf s.mem = true) (pa n : Nat) : Memory.wf (s.breakSeals pa n).mem = true := by
  unfold State.breakSeals
  split
  · exact h
  · refine wf_foldl _ (fun m g hm => ?_) _ h
    split
    · exact wf_memWrite hm _ _
    · exact hm

theorem breakSeals_rest (s : State) (pa n : Nat) :
    s.breakSeals pa n = { s with mem := (s.breakSeals pa n).mem, sealed := (s.breakSeals pa n).sealed } := by
  unfold State.breakSeals; split <;> rfl

/-- A write of device memory keeps it canonical, and changes nothing but it and the seals. -/
theorem wf_memWr {s : State} (h : Memory.wf s.mem = true) (pa : Nat) (bs : List Byte) : Memory.wf (s.memWr pa bs).mem = true :=
  wf_memWrite (wf_breakSeals h _ _) _ _

theorem memWr_rest (s : State) (pa : Nat) (bs : List Byte) :
    s.memWr pa bs = { s with mem := (s.memWr pa bs).mem, sealed := (s.memWr pa bs).sealed } := by
  unfold State.memWr; rw [breakSeals_rest]

/-! ## Sealed granules (R317) -/

/-- The seal of a granule that is not broken stands. -/
theorem find_unsealed (lo hi g : Nat) (l : List Seal) (h : g < lo ∨ hi ≤ g) :
    ((unsealed lo hi l).find? (fun e => decide (e.lo ≤ g) && decide (g < e.hi))).map Seal.key
      = (l.find? (fun e => decide (e.lo ≤ g) && decide (g < e.hi))).map Seal.key := by
  induction l with
  | nil => rfl
  | cons e l ih =>
    have u : unsealed lo hi (e :: l)
        = [{ e with hi := Nat.min e.hi lo }, { e with lo := Nat.max e.lo hi }].filter (fun e => decide (e.lo < e.hi)) ++ unsealed lo hi l := rfl
    rw [u, List.find?_append, List.find?_cons]
    have hm : Nat.min e.hi lo = min e.hi lo := rfl
    have hM : Nat.max e.lo hi = max e.lo hi := rfl
    by_cases hg : e.lo ≤ g ∧ g < e.hi
    · have hk : (([{ e with hi := Nat.min e.hi lo }, { e with lo := Nat.max e.lo hi }].filter (fun e => decide (e.lo < e.hi))).find?
          (fun e => decide (e.lo ≤ g) && decide (g < e.hi))).map Seal.key = some e.key := by
        rw [hm, hM]
        by_cases h' : g < lo
        · have a : e.lo < min e.hi lo := by omega
          have b : g < min e.hi lo := by omega
          simp [List.filter, a, hg.1, b]
        · have a : max e.lo hi < e.hi := by omega
          have b : max e.lo hi ≤ g := by omega
          have c : ¬ (g < min e.hi lo) := by omega
          by_cases d : e.lo < min e.hi lo <;> simp [List.filter, a, d, List.find?, hg.2, b, c]
      cases hf : (([{ e with hi := Nat.min e.hi lo }, { e with lo := Nat.max e.lo hi }].filter (fun e => decide (e.lo < e.hi))).find?
          (fun e => decide (e.lo ≤ g) && decide (g < e.hi))) with
      | none => rw [hf] at hk; simp at hk
      | some x => rw [hf] at hk; simpa [hg.1, hg.2] using hk
    · have hn : (([{ e with hi := Nat.min e.hi lo }, { e with lo := Nat.max e.lo hi }].filter (fun e => decide (e.lo < e.hi))).find?
          (fun e => decide (e.lo ≤ g) && decide (g < e.hi))) = none := by
        rw [hm, hM, List.find?_eq_none]
        intro x hx
        have hx := List.mem_of_mem_filter hx
        simp only [List.mem_cons, List.not_mem_nil, or_false] at hx
        rcases hx with rfl | rfl <;> simp <;> omega
      have hf : (decide (e.lo ≤ g) && decide (g < e.hi)) = false := by simp; omega
      rw [hn, hf]
      simpa using ih

/-- No broken granule has a seal. -/
theorem find_unsealed_in (lo hi g : Nat) (l : List Seal) (h : lo ≤ g ∧ g < hi) :
    (unsealed lo hi l).find? (fun e => decide (e.lo ≤ g) && decide (g < e.hi)) = none := by
  rw [List.find?_eq_none]
  intro x hx
  obtain ⟨e, -, hx⟩ := List.mem_flatMap.1 hx
  have hx := List.mem_of_mem_filter hx
  have hm : Nat.min e.hi lo = min e.hi lo := rfl
  have hM : Nat.max e.lo hi = max e.lo hi := rfl
  rw [hm, hM] at hx
  simp only [List.mem_cons, List.not_mem_nil, or_false] at hx
  rcases hx with rfl | rfl <;> simp <;> omega

@[simp] theorem leBytes_length (n v : Nat) : (leBytes n v).length = n := by
  induction n generalizing v with
  | zero => rfl
  | succ n ih => simp [leBytes, ih]

theorem memRead_congr {m m' : List Host.Cell} (a n : Nat) (h : ∀ c, a ≤ c → c < a + n → memGet m' c = memGet m c) :
    memRead m' a n = memRead m a n := by
  induction n generalizing a with
  | zero => rfl
  | succ n ih => simp only [memRead]; rw [h a (by omega) (by omega), ih (a + 1) (fun c h1 h2 => h c (by omega) (by omega))]

theorem leBytes_getElem (n v i : Nat) (h : i < (leBytes n v).length) : (leBytes n v)[i] = BitVec.ofNat 8 (v / 256 ^ i) := by
  induction n generalizing v i with
  | zero => simp at h
  | succ n ih =>
    cases i with
    | zero => simp [leBytes]
    | succ i => simp only [leBytes, List.getElem_cons_succ]; rw [ih, Nat.div_div_eq_div_mul, Nat.pow_succ, Nat.mul_comm]

/-- A read of one of the bytes that were written. -/
theorem memGet_memWrite_inside {m : List Host.Cell} (h : Memory.wf m = true) {a c : Nat} (bs : List Byte) (h1 : a ≤ c)
    (h2 : c - a < bs.length) : memGet (memWrite m a bs) c = bs[c - a] := by
  induction bs generalizing m a with
  | nil => simp at h2
  | cons b bs ih =>
    rcases Nat.eq_or_lt_of_le h1 with e | l
    · subst e
      simp only [memWrite, Nat.sub_self, List.getElem_cons_zero]
      rw [memGet_memWrite_outside _ _ (Or.inl (by omega)), memGet_memSet_self h]
    · have e : c - a = c - (a + 1) + 1 := by omega
      simp only [memWrite, e, List.getElem_cons_succ]
      exact ih (wf_memSet h a b) (by omega) (by simp only [List.length_cons] at h2; omega)

/-- Granules written at their places. -/
theorem memGet_granules (F : Nat → Option Nat) (gs : List Nat) {m : List Host.Cell} (h : Memory.wf m = true) (c : Nat) :
    memGet (gs.foldl (fun m g => match F g with
      | some v => memWrite m (64 * g) (leBytes 64 v)
      | none => m) m) c
      = if c / 64 ∈ gs then (match F (c / 64) with
          | some v => BitVec.ofNat 8 (v / 256 ^ (c % 64))
          | none => memGet m c) else memGet m c := by
  induction gs generalizing m with
  | nil => simp
  | cons g gs ih =>
    simp only [List.foldl_cons, List.mem_cons]
    by_cases hg : c / 64 = g
    · subst hg
      cases hF : F (c / 64) with
      | none =>
        simp only
        rw [ih h, hF]
        simp
      | some v =>
        simp only
        rw [ih (wf_memWrite h _ _), hF]
        have e : memGet (memWrite m (64 * (c / 64)) (leBytes 64 v)) c = BitVec.ofNat 8 (v / 256 ^ (c % 64)) := by
          rw [memGet_memWrite_inside h _ (by omega) (by simp; omega), leBytes_getElem]
          congr 3; omega
        simp [e]
    · have e : memGet (match F g with
          | some v => memWrite m (64 * g) (leBytes 64 v)
          | none => m) c = memGet m c := by
        cases F g with
        | none => rfl
        | some v => exact memGet_memWrite_outside _ _ (by simp; omega)
      have w : Memory.wf (match F g with
          | some v => memWrite m (64 * g) (leBytes 64 v)
          | none => m) = true := by
        cases F g with
        | none => exact h
        | some v => exact wf_memWrite h _ _
      rw [ih w, e]
      simp [hg]

/-- A granule reads the same where its bytes and the key of its seal are the same. -/
theorem sealedGranule_congr {s t : State} {g : Nat} {e f : Seal} (hk : e.key = f.key) (hf : t.frameKey (g / 1024) = s.frameKey (g / 1024))
    (hm : ∀ c, c / 64 = g → memGet t.mem c = memGet s.mem c) : t.sealedGranule g e = s.sealedGranule g f := by
  have r : leRead t.mem (64 * g) 64 = leRead s.mem (64 * g) 64 := by
    unfold leRead; rw [memRead_congr]; intro c h1 h2; exact hm c (by omega)
  unfold State.sealedGranule
  rw [r, hf, hk]

theorem memByte_congr {s t : State} {a : Nat} (hs : (t.sealOf (a / 64)).map Seal.key = (s.sealOf (a / 64)).map Seal.key)
    (hf : t.frameKey (a / 64 / 1024) = s.frameKey (a / 64 / 1024))
    (hm : ∀ c, c / 64 = a / 64 → memGet t.mem c = memGet s.mem c) : t.memByte a = s.memByte a := by
  unfold State.memByte
  cases h : t.sealOf (a / 64) with
  | none =>
    rw [h] at hs
    cases h' : s.sealOf (a / 64) with
    | none => exact hm a rfl
    | some f => rw [h'] at hs; simp at hs
  | some e =>
    rw [h] at hs
    cases h' : s.sealOf (a / 64) with
    | none => rw [h'] at hs; simp at hs
    | some f =>
      rw [h'] at hs
      simp only
      rw [sealedGranule_congr (by simpa using hs) hf hm]

/-- What device memory reads as stays when seals are broken; the granules touched have none afterwards. -/
theorem memByte_breakSeals {s : State} (h : Memory.wf s.mem = true) (pa n a : Nat) : (s.breakSeals pa n).memByte a = s.memByte a := by
  by_cases he : (s.sealed.isEmpty || n == 0) = true
  · unfold State.breakSeals; rw [if_pos he]
  · have hb : s.breakSeals pa n = { s with
        mem := ((List.range ((pa + n + 63) / 64 - pa / 64)).map (pa / 64 + ·)).foldl (fun m g =>
          match (s.sealOf g).map (fun e => (s.sealedGranule g e).toNat) with
          | some v => memWrite m (64 * g) (leBytes 64 v)
          | none => m) s.mem
        sealed := unsealed (pa / 64) ((pa + n + 63) / 64) s.sealed } := by
      have hf : (fun (m : List Host.Cell) (g : Nat) => match (s.sealOf g).map (fun e => (s.sealedGranule g e).toNat) with
          | some v => memWrite m (64 * g) (leBytes 64 v)
          | none => m)
        = (fun m g => match s.sealOf g with
          | some e => memWrite m (64 * g) (leBytes 64 (s.sealedGranule g e).toNat)
          | none => m) := by
        funext m g; cases s.sealOf g <;> rfl
      rw [hf]
      unfold State.breakSeals
      exact if_neg he
    have hin : ∀ g, g ∈ (List.range ((pa + n + 63) / 64 - pa / 64)).map (pa / 64 + ·) ↔ pa / 64 ≤ g ∧ g < (pa + n + 63) / 64 := by
      intro g
      simp only [List.mem_map, List.mem_range]
      constructor
      · rintro ⟨x, hx, rfl⟩; omega
      · rintro ⟨h1, h2⟩; exact ⟨g - pa / 64, by omega, by omega⟩
    rw [hb]
    by_cases hg : pa / 64 ≤ a / 64 ∧ a / 64 < (pa + n + 63) / 64
    · have hn : ∀ m, ({ s with mem := m, sealed := unsealed (pa / 64) ((pa + n + 63) / 64) s.sealed } : State).sealOf (a / 64) = none :=
        fun m => find_unsealed_in _ _ _ _ hg
      rw [State.memByte, hn]
      simp only
      rw [memGet_granules _ _ h, if_pos ((hin _).2 hg), State.memByte]
      cases s.sealOf (a / 64) with
      | none => rfl
      | some e =>
        simp only [Option.map_some]
        apply BitVec.eq_of_toNat_eq
        simp only [BitVec.toNat_ofNat, BitVec.toNat_setWidth, BitVec.toNat_ushiftRight, Nat.shiftRight_eq_div_pow]
        rw [show (256 : Nat) = 2 ^ 8 from rfl, ← Nat.pow_mul]
    · refine memByte_congr (find_unsealed _ _ _ _ (by omega)) rfl ?_
      intro c hc
      simp only
      rw [memGet_granules _ _ h, if_neg (by rw [hin, hc]; exact hg)]

/-- A granule that a write of n bytes touches has no seal after its seals are broken. -/
theorem sealOf_breakSeals {s : State} {pa n g : Nat} (h : 0 < n) (h1 : pa / 64 ≤ g) (h2 : g < (pa + n + 63) / 64) :
    (s.breakSeals pa n).sealOf g = none := by
  unfold State.breakSeals
  by_cases he : s.sealed = []
  · rw [if_pos (by simp [he])]; simp [State.sealOf, he]
  · rw [if_neg (by simp; exact ⟨he, by omega⟩)]; exact find_unsealed_in _ _ _ _ ⟨h1, h2⟩

/-- A write of device memory leaves every byte outside it as it reads. -/
theorem memByte_memWr_outside {s : State} (h : Memory.wf s.mem = true) {pa a : Nat} (bs : List Byte)
    (ha : a < pa ∨ pa + bs.length ≤ a) : (s.memWr pa bs).memByte a = s.memByte a := by
  rw [← memByte_breakSeals h pa bs.length a]
  set t := s.breakSeals pa bs.length with ht
  by_cases hg : pa / 64 ≤ a / 64 ∧ a / 64 < (pa + bs.length + 63) / 64 ∧ 0 < bs.length
  · have hn : t.sealOf (a / 64) = none := sealOf_breakSeals hg.2.2 hg.1 hg.2.1
    have hn' : (s.memWr pa bs).sealOf (a / 64) = none := hn
    rw [State.memByte, State.memByte, hn, hn']
    exact memGet_memWrite_outside _ _ ha
  · refine memByte_congr rfl rfl ?_
    intro c hc
    exact memGet_memWrite_outside _ _ (by omega)

/-- A read of a byte that was written. -/
theorem memByte_memWr_inside {s : State} (h : Memory.wf s.mem = true) {pa a : Nat} (bs : List Byte) (h1 : pa ≤ a)
    (h2 : a - pa < bs.length) : (s.memWr pa bs).memByte a = bs[a - pa] := by
  have hn : (s.memWr pa bs).sealOf (a / 64) = none := sealOf_breakSeals (s := s) (by omega) (by omega) (by omega)
  rw [State.memByte, hn]
  exact memGet_memWrite_inside (wf_breakSeals h _ _) bs h1 h2

/-! ## The memories of the machine -/

theorem memoriesWf_setHart {s : State} (h : s.memoriesWf) (n : Nat) (x : Hart) : (s.setHart n x).memoriesWf := h

theorem mem_put {α : Type} {t : Table α} {n : Nat} {v : α} {p : Nat × α} (h : p ∈ put t n v) : p = (n, v) ∨ p ∈ t := by
  induction t with
  | nil => exact Or.inl (by simpa [put] using h)
  | cons q t ih =>
    obtain ⟨k, w⟩ := q
    by_cases hk : k = n
    · simp only [put, hk, if_true, List.mem_cons] at h
      rcases h with h | h
      · exact Or.inl h
      · exact Or.inr (by simp [h])
    · simp only [put, hk, if_false, List.mem_cons] at h
      rcases h with h | h
      · exact Or.inr (by simp [h])
      · rcases ih h with h | h
        · exact Or.inl h
        · exact Or.inr (by simp [h])

/-- A tile replaced by one whose scratchpad is canonical leaves the memories canonical. -/
theorem memoriesWf_setTile {s : State} (h : s.memoriesWf) (t : Nat) {x : Tile} (hx : Memory.wf x.scratch = true) :
    (s.setTile t x).memoriesWf := by
  obtain ⟨h1, h2, h3, h4⟩ := h
  refine ⟨h1, h2, fun p hp => ?_, h4⟩
  rcases mem_put hp with rfl | hp
  · exact hx
  · exact h3 p hp

theorem look_mem {α : Type} (d : α) (t : Table α) (n : Nat) : look d t n = d ∨ ∃ p ∈ t, p.2 = look d t n := by
  induction t with
  | nil => exact Or.inl rfl
  | cons p t ih =>
    obtain ⟨k, w⟩ := p
    by_cases hk : k = n
    · exact Or.inr ⟨(k, w), by simp [look, hk]⟩
    · rcases ih with h | ⟨p, hp, e⟩
      · exact Or.inl (by simpa [look, hk] using h)
      · exact Or.inr ⟨p, by simp [hp], by simpa [look, hk] using e⟩

/-- The scratchpad of a tile of a machine with canonical memories. -/
theorem wf_scratch {s : State} (h : s.memoriesWf) (t : Nat) : Memory.wf (s.tile t).scratch = true := by
  rcases look_mem (Tile.initial t) s.tiles t with e | ⟨p, hp, e⟩
  · unfold State.tile; rw [e]; rfl
  · unfold State.tile; rw [← e]; exact h.2.2.1 p hp

/-- A write of bytes at a place keeps the memories canonical. -/
theorem memoriesWf_writeLoc {s : State} (h : s.memoriesWf) (bs : List Byte) (l : Loc) : (s.writeLoc bs l).memoriesWf := by
  cases l with
  | scratch t off => exact memoriesWf_setTile h t (wf_memWrite (wf_scratch h t) off bs)
  | phys pa =>
    refine ⟨wf_memWr h.1 pa bs, ?_⟩
    have e := memWr_rest s pa bs
    unfold State.writeLoc
    simp only
    rw [e]; exact h.2

theorem memoriesWf_ioWrite {s : State} (h : s.memoriesWf) (pa n v : Nat) : (s.ioWrite pa n v).memoriesWf :=
  ⟨h.1, wf_memWrite h.2.1 pa _, h.2.2⟩

theorem memoriesWf_memPut {s : State} (h : s.memoriesWf) (pa n v : Nat) : (s.memPut pa n v).memoriesWf :=
  ⟨wf_memWr h.1 pa _, by unfold State.memPut; rw [memWr_rest]; exact h.2⟩

end Sys2Proof.Machine
end

