-- ==== Sys2Proof/Laws/Ops.lean ====
section
/-! SUPPORT. Laws of the operations every instruction is written with: what a result and the way to the next word do. -/

namespace Sys2Proof.Machine

/-- A word on a core that may run. -/
theorem onCore_ready {s : State} (h : s.ready) (k : State → Out) : onCore s k = k s := by
  obtain ⟨h1, h2⟩ := h
  simp [onCore, h1, h2, State.lit]

theorem loopEnd_loopTest (pc : Word) (ls : List LoopLevel) : LoopEnd pc ls (loopTest pc ls).1 (loopTest pc ls).2 := by
  induction ls with
  | nil => exact .other [] (by simp)
  | cons l ls ih =>
    unfold loopTest
    by_cases h : l.last = pc
    · by_cases n : 1 < l.count.toNat
      · simpa [h, n] using LoopEnd.again l ls h n
      · simp only [h, n, ne_eq, not_true_eq_false, if_false]
        exact .pop l h (by omega) ih
    · simpa [h] using LoopEnd.other (pc := pc) (l :: ls) (by simpa using h)

theorem loopExit_loopExit (t : Word) (ls : List LoopLevel) : LoopExit t ls (loopExit t ls) := by
  unfold LoopExit loopExit
  set p : LoopLevel → Bool := fun l => decide (l.first.toNat ≤ t.toNat) && decide (t.toNat ≤ l.last.toNat) with hp
  refine ⟨(ls.reverse.dropWhile p).reverse, ?_, ?_, ?_⟩
  · rw [← List.reverse_append, List.takeWhile_append_dropWhile, List.reverse_reverse]
  · intro l hl
    have := List.mem_takeWhile_imp (List.mem_reverse.1 hl)
    simpa [hp, LoopLevel.holds] using this
  · intro l hl
    simp only [List.getLast?_reverse] at hl
    have hne : ls.reverse.dropWhile p ≠ [] := by intro h; simp [h] at hl
    have h2 := List.head_dropWhile_not p hne
    rw [List.head?_eq_some_head hne] at hl
    have : (ls.reverse.dropWhile p).head hne = l := by simpa using hl
    rw [this] at h2
    intro hh
    simp [hp, hh.1, hh.2] at h2

@[simp] theorem didIssue_pc (x : Hart) : x.didIssue.pc = x.pc := rfl
@[simp] theorem didIssue_loops (x : Hart) : x.didIssue.loops = x.loops := rfl
@[simp] theorem setLoops_pc (x : Hart) (l : List LoopLevel) : (x.setLoops l).pc = x.pc := by unfold Hart.setLoops; split <;> rfl
@[simp] theorem setLoops_loops (x : Hart) (l : List LoopLevel) : (x.setLoops l).loops = l := by
  unfold Hart.setLoops Hart.loops; by_cases h : x.priv = .user <;> simp [h]
@[simp] theorem goto_loops (x : Hart) (t : Word) (b : Nat) : (x.goto t b).loops = x.loops := rfl

theorem endsBundle_endBundle (x : Hart) : EndsBundle x x.didIssue.endBundle := by
  have hl := loopEnd_loopTest x.pc x.loops
  refine ⟨(loopTest x.pc x.loops).2, ?_, ?_⟩
  · have e : x.didIssue.endBundle.loops = (loopTest x.pc x.loops).1 := by
      unfold Hart.endBundle
      cases h : (loopTest x.didIssue.pc x.didIssue.loops).2 <;> simp only [h, goto_loops, setLoops_loops] <;> rfl
    rw [e]; exact hl
  · unfold Hart.endBundle
    cases h : (loopTest x.pc x.loops).2 with
    | none => simp only [didIssue_pc, didIssue_loops, h, setLoops_pc]; exact ⟨rfl, rfl, rfl⟩
    | some t => simp only [didIssue_pc, didIssue_loops, h]; exact ⟨rfl, rfl, rfl⟩

theorem moves_set (s : State) (x y : Hart) (t : State) (ht : t.harts = put s.harts s.cur y)
   (hr : t = { s with harts := t.harts, issue := t.issue })
   (hi : Issued x y) (hp : NextPlace s.issue x y) (hc : t.issue = s.issue ∨ t.issue = { s.issue with ctl := .taken }) : Moves s x t := by
  have e : t.hart s.cur = y := by simp [State.hart, ht]
  refine ⟨⟨hr, fun h hn => ?_⟩, e ▸ hi, e ▸ hp, hc⟩
  simp [State.hart, ht, look_put_other _ _ _ hn]

theorem issued_setLoops (x : Hart) (l : List LoopLevel) (t : Word) (b : Nat) : Issued x ((x.didIssue.setLoops l).goto t b) := by
  unfold Issued Hart.setLoops Hart.goto Hart.didIssue
  by_cases h : x.priv = .user <;> simp [h]
theorem moves_advance (s : State) (x : Hart) : Moves s x (s.setHart s.cur x).advance := by
  unfold State.advance
  simp only [me_eq, setMe_eq, setHart_cur, hart_setHart_self, setHart_issue, setHart_setHart]
  split
  · rename_i h
    refine moves_set s x _ _ rfl rfl ?_ ?_ (.inl rfl)
    · unfold Issued; cases hp : x.priv <;> simp [Hart.didIssue, hp]
    · have h' : s.issue.paired = true ∧ s.issue.w1 = false := by simpa using h
      rw [NextPlace, if_pos h']; exact ⟨rfl, rfl, rfl, rfl⟩
  · rename_i h
    have h' : ¬ (s.issue.paired = true ∧ s.issue.w1 = false) := by simpa using h
    split
    · rename_i t ht
      refine moves_set s x ((x.didIssue.setLoops (if s.issue.keepLoops then x.didIssue.loops else loopExit t x.didIssue.loops)).goto t 2)
        _ ?_ rfl (issued_setLoops _ _ _ _) ?_ (.inr rfl)
      · simp [State.setHart]
      · rw [NextPlace, if_neg h', ht]
        refine ⟨⟨rfl, rfl, rfl⟩, ?_⟩
        simp only [goto_loops, setLoops_loops]
        split
        · rfl
        · exact loopExit_loopExit _ _
    · rename_i ht
      split
      · rename_i hw
        have hw' : s.issue.paired = true ∨ s.issue.w1 = true := by simpa using hw
        refine moves_set s x _ _ rfl rfl ?_ ?_ (.inl rfl)
        · unfold Hart.endBundle; cases h : (loopTest x.didIssue.pc x.didIssue.loops).2 <;> simp only [h] <;> exact issued_setLoops _ _ _ _
        · rw [NextPlace, if_neg h', ht]
          simp only [hw', if_true]
          exact endsBundle_endBundle x
      · rename_i hw
        have hw' : ¬(s.issue.paired = true ∨ s.issue.w1 = true) := by simpa using hw
        refine moves_set s x _ _ rfl rfl ?_ ?_ (.inl rfl)
        · unfold Issued; cases hp : x.priv <;> simp [Hart.didIssue, hp]
        · rw [NextPlace, if_neg h', ht]
          rw [if_neg hw']
          exact ⟨rfl, rfl, rfl, rfl⟩

/-- A landing writes its register as R51 and R151 say. -/
theorem put_written (x : Hart) (l : Landing) : x.put l = written x l := by
  cases l with
  | none => rfl
  | x r v =>
    show x.wx r v = if r = 0 then x else _
    by_cases h : r = 0
    · subst h; rfl
    · have h' : r.val ≠ 0 := fun e => h (Fin.ext e)
      rw [Hart.wx, if_neg h', if_neg h]
  | k r v =>
    show x.wk r v = if r = 0 then x else _
    by_cases h : r = 0
    · subst h; rfl
    · have h' : r.val ≠ 0 := fun e => h (Fin.ext e)
      rw [Hart.wk, if_neg h', if_neg h]
  | v r v m => rfl

theorem resultIn_eq (s : State) (l : Landing) (lat : Nat) (w : Bool) : s.resultIn l lat w = s.setHart s.cur (s.withResult l lat w) := rfl

/-- A scalar result is what the word gives. -/
theorem gives_scalar (s : State) (d : XReg) (v : Word) (lat : Nat) : Gives s (.x d v) lat (scalar s d v lat) :=
  ⟨_, rfl, by rw [State.result, resultIn_eq]; exact moves_advance s _⟩
/-! ## Results in the order in which they land -/

theorem lands_of_not_after {f g : InFlight} (h : f.after g = false) : f.lands g := by
  unfold InFlight.after at h; unfold InFlight.lands
  cases hf : f.due <;> cases hg : g.due <;> simp_all

theorem lands_of_after {f g : InFlight} (h : f.after g = true) : g.lands f ∧ g.due ≠ f.due := by
  unfold InFlight.after at h; unfold InFlight.lands
  cases hf : f.due <;> cases hg : g.due <;> simp_all <;> omega

theorem lands_trans {f g k : InFlight} (h : f.lands g) (h' : g.lands k) : f.lands k := by
  unfold InFlight.lands at *
  cases hf : f.due <;> cases hg : g.due <;> cases hk : k.due <;> simp_all
  omega

theorem mem_insertLanding {f k : InFlight} {l : List InFlight} : k ∈ insertLanding f l ↔ k = f ∨ k ∈ l := by
  induction l with
  | nil => simp [insertLanding]
  | cons g l ih => unfold insertLanding; split <;> simp [ih]; tauto

theorem landsAs_insertLanding (f : InFlight) {l l' : List InFlight} (h : LandsAs l l') : LandsAs (f :: l) (insertLanding f l') := by
  obtain ⟨h1, h2⟩ := h
  suffices w : (insertLanding f l').Pairwise InFlight.lands ∧
      ∀ c, (insertLanding f l').filter (fun f => f.due == c) = (f :: l').filter (fun f => f.due == c) by
    refine ⟨w.1, fun c => ?_⟩
    rw [w.2, List.filter_cons, List.filter_cons, h2]
  clear h2
  induction l' with
  | nil => exact ⟨by simp [insertLanding], fun c => rfl⟩
  | cons g gs ih =>
    obtain ⟨hg, hs⟩ := List.pairwise_cons.1 h1
    obtain ⟨i1, i2⟩ := ih hs
    unfold insertLanding
    split
    · rename_i ha
      obtain ⟨a1, a2⟩ := lands_of_after ha
      refine ⟨List.pairwise_cons.2 ⟨fun k hk => ?_, i1⟩, fun c => ?_⟩
      · rcases mem_insertLanding.1 hk with rfl | hk
        · exact a1
        · exact hg k hk
      · rw [List.filter_cons, i2, List.filter_cons, List.filter_cons, List.filter_cons]
        by_cases e1 : g.due = c <;> by_cases e2 : f.due = c <;> simp_all
    · rename_i ha
      have l1 := lands_of_not_after (by simpa using ha : f.after g = false)
      refine ⟨List.pairwise_cons.2 ⟨fun k hk => ?_, h1⟩, fun c => rfl⟩
      rcases List.mem_cons.1 hk with rfl | hk
      · exact l1
      · exact lands_trans l1 (hg k hk)

/-- The order in which State.landDue lets results land is the one of R58. -/
theorem landsAs_landingOrder (l : List InFlight) : LandsAs l (landingOrder l) := by
  induction l with
  | nil => exact ⟨List.Pairwise.nil, fun _ => rfl⟩
  | cons f l ih => exact landsAs_insertLanding f ih

/-- The order of R305 and R313 asks nothing where no element of a write stream waits. -/
theorem performElems_of_none {s : State} (h : s.elemsWait = false) : s.performElems = s := by simp [State.performElems, h]

@[simp] theorem mem_withSensor (n x : Nat) (l : List Nat) : x ∈ withSensor n l ↔ x = n ∨ x ∈ l := by
  unfold withSensor
  split <;> simp_all
@[simp] theorem mem_withoutSensor (n x : Nat) (l : List Nat) : x ∈ withoutSensor n l ↔ x ∈ l ∧ x ≠ n := by
  simp [withoutSensor]

end Sys2Proof.Machine
end

