-- ==== Sys2Proof/Laws/PerInstr.lean ====
section
/-! SUPPORT. The family Encoding of LAWS.json: what holds of the word of every instruction. -/

namespace Sys2Proof.Laws.Encoding

theorem ew_code_lt (e : Ew) : e.code < 4 := by cases e <;> decide
theorem fw_code_lt (e : Fw) : e.code < 4 := by cases e <;> decide
theorem rm_code_lt (e : Rm) : e.code < 4 := by cases e <;> decide
theorem ord_code_lt (e : Ord) : e.code < 8 := by cases e <;> decide
theorem scope_code_lt (e : Scope) : e.code < 16 := by cases e <;> decide
theorem fmt_code_lt (e : Fmt) : e.code < 16 := by cases e <;> decide
theorem level_code_lt (e : Level) : e.code < 4 := by cases e <;> decide
theorem tlbiKind_code_lt (e : TlbiKind) : e.code < 4 := by cases e <;> decide
theorem tlbiScope_code_lt (e : TlbiScope) : e.code < 8 := by cases e <;> decide
theorem cpyField_code_lt (e : CpyField) : e.code < 16 := by cases e <;> decide
theorem cpySel_code_lt (e : CpySel) : e.code < 8 := by cases e <;> decide
theorem bool_lt (b : Bool) : b.toNat < 2 := by cases b <;> decide

/-- An instruction's word fits 32 bits and leaves bit 29, the L bit, to the bundle (R27, R35). -/
def Statement (i : Instr) : Prop := ∀ w, encodeWord i = some w → w < 2 ^ 32 ∧ w / 2 ^ 29 % 2 = 0

/-- Fields with their places, each below a bound, and the most that they add together. -/
inductive Fits : List (Nat × Nat) → Nat → Prop
  | nil : Fits [] 0
  | cons {fs m} (p v b : Nat) (h : v < b) (t : Fits fs m) : Fits ((p, v) :: fs) ((b - 1) * 2 ^ p + m)

theorem fits_sum {fs : List (Nat × Nat)} {m : Nat} (h : Fits fs m) (base : Nat) :
    base ≤ fs.foldl (fun n f => n + f.2 * 2 ^ f.1) base ∧
      fs.foldl (fun n f => n + f.2 * 2 ^ f.1) base ≤ base + m := by
  induction h generalizing base with
  | nil => simp
  | cons p v b h t ih =>
    have hv : v * 2 ^ p ≤ (b - 1) * 2 ^ p := Nat.mul_le_mul_right _ (by omega)
    have := ih (base + v * 2 ^ p)
    simp only [List.foldl_cons]
    omega

theorem statement_of {i : Instr} {base m : Nat} {fs : List (Nat × Nat)} (e : encodeWord i = word base fs)
    (h : Fits fs m) (hb : decide (base + m < 2 ^ 32 ∧ base / 2 ^ 29 % 2 = 0 ∧ base / 2 ^ 29 = (base + m) / 2 ^ 29) = true) :
    Statement i := by
  intro w hw
  rw [e, word, Option.some.injEq] at hw
  have hs := fits_sum h base
  have hd := of_decide_eq_true hb
  subst hw
  omega

/-- A step of the package has no word. -/
theorem statement_none {i : Instr} (e : encodeWord i = none) : Statement i := by
  intro w hw
  rw [e] at hw
  cases hw

theorem add (d : XReg) (a : XReg) (b : XReg) : Statement (.add d a b) :=
  statement_of rfl (.cons _ _ 32 d.isLt (.cons _ _ 32 a.isLt (.cons _ _ 32 b.isLt .nil))) rfl
theorem sub (d : XReg) (a : XReg) (b : XReg) : Statement (.sub d a b) :=
  statement_of rfl (.cons _ _ 32 d.isLt (.cons _ _ 32 a.isLt (.cons _ _ 32 b.isLt .nil))) rfl
theorem and (d : XReg) (a : XReg) (b : XReg) : Statement (.and d a b) :=
  statement_of rfl (.cons _ _ 32 d.isLt (.cons _ _ 32 a.isLt (.cons _ _ 32 b.isLt .nil))) rfl
theorem or (d : XReg) (a : XReg) (b : XReg) : Statement (.or d a b) :=
  statement_of rfl (.cons _ _ 32 d.isLt (.cons _ _ 32 a.isLt (.cons _ _ 32 b.isLt .nil))) rfl
theorem xor (d : XReg) (a : XReg) (b : XReg) : Statement (.xor d a b) :=
  statement_of rfl (.cons _ _ 32 d.isLt (.cons _ _ 32 a.isLt (.cons _ _ 32 b.isLt .nil))) rfl
theorem andn (d : XReg) (a : XReg) (b : XReg) : Statement (.andn d a b) :=
  statement_of rfl (.cons _ _ 32 d.isLt (.cons _ _ 32 a.isLt (.cons _ _ 32 b.isLt .nil))) rfl
theorem sll (d : XReg) (a : XReg) (b : XReg) : Statement (.sll d a b) :=
  statement_of rfl (.cons _ _ 32 d.isLt (.cons _ _ 32 a.isLt (.cons _ _ 32 b.isLt .nil))) rfl
theorem srl (d : XReg) (a : XReg) (b : XReg) : Statement (.srl d a b) :=
  statement_of rfl (.cons _ _ 32 d.isLt (.cons _ _ 32 a.isLt (.cons _ _ 32 b.isLt .nil))) rfl
theorem sra (d : XReg) (a : XReg) (b : XReg) : Statement (.sra d a b) :=
  statement_of rfl (.cons _ _ 32 d.isLt (.cons _ _ 32 a.isLt (.cons _ _ 32 b.isLt .nil))) rfl
theorem rol (d : XReg) (a : XReg) (b : XReg) : Statement (.rol d a b) :=
  statement_of rfl (.cons _ _ 32 d.isLt (.cons _ _ 32 a.isLt (.cons _ _ 32 b.isLt .nil))) rfl
theorem slt (d : XReg) (a : XReg) (b : XReg) : Statement (.slt d a b) :=
  statement_of rfl (.cons _ _ 32 d.isLt (.cons _ _ 32 a.isLt (.cons _ _ 32 b.isLt .nil))) rfl
theorem sltu (d : XReg) (a : XReg) (b : XReg) : Statement (.sltu d a b) :=
  statement_of rfl (.cons _ _ 32 d.isLt (.cons _ _ 32 a.isLt (.cons _ _ 32 b.isLt .nil))) rfl
theorem min (d : XReg) (a : XReg) (b : XReg) : Statement (.min d a b) :=
  statement_of rfl (.cons _ _ 32 d.isLt (.cons _ _ 32 a.isLt (.cons _ _ 32 b.isLt .nil))) rfl
theorem max (d : XReg) (a : XReg) (b : XReg) : Statement (.max d a b) :=
  statement_of rfl (.cons _ _ 32 d.isLt (.cons _ _ 32 a.isLt (.cons _ _ 32 b.isLt .nil))) rfl
theorem minu (d : XReg) (a : XReg) (b : XReg) : Statement (.minu d a b) :=
  statement_of rfl (.cons _ _ 32 d.isLt (.cons _ _ 32 a.isLt (.cons _ _ 32 b.isLt .nil))) rfl
theorem maxu (d : XReg) (a : XReg) (b : XReg) : Statement (.maxu d a b) :=
  statement_of rfl (.cons _ _ 32 d.isLt (.cons _ _ 32 a.isLt (.cons _ _ 32 b.isLt .nil))) rfl
theorem clz (d : XReg) (a : XReg) : Statement (.clz d a) :=
  statement_of rfl (.cons _ _ 32 d.isLt (.cons _ _ 32 a.isLt .nil)) rfl
theorem ctz (d : XReg) (a : XReg) : Statement (.ctz d a) :=
  statement_of rfl (.cons _ _ 32 d.isLt (.cons _ _ 32 a.isLt .nil)) rfl
theorem popc (d : XReg) (a : XReg) : Statement (.popc d a) :=
  statement_of rfl (.cons _ _ 32 d.isLt (.cons _ _ 32 a.isLt .nil)) rfl
theorem sel (d : XReg) (a : XReg) (b : XReg) : Statement (.sel d a b) :=
  statement_of rfl (.cons _ _ 32 d.isLt (.cons _ _ 32 a.isLt (.cons _ _ 32 b.isLt .nil))) rfl
theorem mul (d : XReg) (a : XReg) (b : XReg) : Statement (.mul d a b) :=
  statement_of rfl (.cons _ _ 32 d.isLt (.cons _ _ 32 a.isLt (.cons _ _ 32 b.isLt .nil))) rfl
theorem mulh (d : XReg) (a : XReg) (b : XReg) : Statement (.mulh d a b) :=
  statement_of rfl (.cons _ _ 32 d.isLt (.cons _ _ 32 a.isLt (.cons _ _ 32 b.isLt .nil))) rfl
theorem mulhu (d : XReg) (a : XReg) (b : XReg) : Statement (.mulhu d a b) :=
  statement_of rfl (.cons _ _ 32 d.isLt (.cons _ _ 32 a.isLt (.cons _ _ 32 b.isLt .nil))) rfl
theorem div (d : XReg) (a : XReg) (b : XReg) : Statement (.div d a b) :=
  statement_of rfl (.cons _ _ 32 d.isLt (.cons _ _ 32 a.isLt (.cons _ _ 32 b.isLt .nil))) rfl
theorem divu (d : XReg) (a : XReg) (b : XReg) : Statement (.divu d a b) :=
  statement_of rfl (.cons _ _ 32 d.isLt (.cons _ _ 32 a.isLt (.cons _ _ 32 b.isLt .nil))) rfl
theorem rem (d : XReg) (a : XReg) (b : XReg) : Statement (.rem d a b) :=
  statement_of rfl (.cons _ _ 32 d.isLt (.cons _ _ 32 a.isLt (.cons _ _ 32 b.isLt .nil))) rfl
theorem remu (d : XReg) (a : XReg) (b : XReg) : Statement (.remu d a b) :=
  statement_of rfl (.cons _ _ 32 d.isLt (.cons _ _ 32 a.isLt (.cons _ _ 32 b.isLt .nil))) rfl
theorem lea (d : XReg) (a : XReg) (b : XReg) (s : Fin 8) : Statement (.lea d a b s) :=
  statement_of rfl (.cons _ _ 32 d.isLt (.cons _ _ 32 a.isLt (.cons _ _ 32 b.isLt (.cons _ _ 8 s.isLt .nil)))) rfl
theorem bfx (d : XReg) (a : XReg) (n : Fin 64) (p : Fin 64) : Statement (.bfx d a n p) :=
  statement_of rfl (.cons _ _ 32 d.isLt (.cons _ _ 32 a.isLt (.cons _ _ 64 n.isLt (.cons _ _ 64 p.isLt .nil)))) rfl
theorem bfi (d : XReg) (a : XReg) (n : Fin 64) (p : Fin 64) : Statement (.bfi d a n p) :=
  statement_of rfl (.cons _ _ 32 d.isLt (.cons _ _ 32 a.isLt (.cons _ _ 64 n.isLt (.cons _ _ 64 p.isLt .nil)))) rfl
theorem faddS (d : XReg) (a : XReg) (b : XReg) : Statement (.faddS d a b) :=
  statement_of rfl (.cons _ _ 32 d.isLt (.cons _ _ 32 a.isLt (.cons _ _ 32 b.isLt .nil))) rfl
theorem fsubS (d : XReg) (a : XReg) (b : XReg) : Statement (.fsubS d a b) :=
  statement_of rfl (.cons _ _ 32 d.isLt (.cons _ _ 32 a.isLt (.cons _ _ 32 b.isLt .nil))) rfl
theorem fmulS (d : XReg) (a : XReg) (b : XReg) : Statement (.fmulS d a b) :=
  statement_of rfl (.cons _ _ 32 d.isLt (.cons _ _ 32 a.isLt (.cons _ _ 32 b.isLt .nil))) rfl
theorem fminS (d : XReg) (a : XReg) (b : XReg) : Statement (.fminS d a b) :=
  statement_of rfl (.cons _ _ 32 d.isLt (.cons _ _ 32 a.isLt (.cons _ _ 32 b.isLt .nil))) rfl
theorem fmaxS (d : XReg) (a : XReg) (b : XReg) : Statement (.fmaxS d a b) :=
  statement_of rfl (.cons _ _ 32 d.isLt (.cons _ _ 32 a.isLt (.cons _ _ 32 b.isLt .nil))) rfl
theorem fcvtSW (d : XReg) (a : XReg) : Statement (.fcvtSW d a) :=
  statement_of rfl (.cons _ _ 32 d.isLt (.cons _ _ 32 a.isLt .nil)) rfl
theorem fcvtWS (d : XReg) (a : XReg) : Statement (.fcvtWS d a) :=
  statement_of rfl (.cons _ _ 32 d.isLt (.cons _ _ 32 a.isLt .nil)) rfl
theorem feqS (d : XReg) (a : XReg) (b : XReg) : Statement (.feqS d a b) :=
  statement_of rfl (.cons _ _ 32 d.isLt (.cons _ _ 32 a.isLt (.cons _ _ 32 b.isLt .nil))) rfl
theorem fltS (d : XReg) (a : XReg) (b : XReg) : Statement (.fltS d a b) :=
  statement_of rfl (.cons _ _ 32 d.isLt (.cons _ _ 32 a.isLt (.cons _ _ 32 b.isLt .nil))) rfl
theorem fleS (d : XReg) (a : XReg) (b : XReg) : Statement (.fleS d a b) :=
  statement_of rfl (.cons _ _ 32 d.isLt (.cons _ _ 32 a.isLt (.cons _ _ 32 b.isLt .nil))) rfl
theorem fmaS (d : XReg) (a : XReg) (b : XReg) : Statement (.fmaS d a b) :=
  statement_of rfl (.cons _ _ 32 d.isLt (.cons _ _ 32 a.isLt (.cons _ _ 32 b.isLt .nil))) rfl
theorem fcvtSBf (d : XReg) (a : XReg) : Statement (.fcvtSBf d a) :=
  statement_of rfl (.cons _ _ 32 d.isLt (.cons _ _ 32 a.isLt .nil)) rfl
theorem fcvtBfS (d : XReg) (a : XReg) : Statement (.fcvtBfS d a) :=
  statement_of rfl (.cons _ _ 32 d.isLt (.cons _ _ 32 a.isLt .nil)) rfl
theorem addi (d : XReg) (a : XReg) (i : BitVec 13) : Statement (.addi d a i) :=
  statement_of rfl (.cons _ _ 32 d.isLt (.cons _ _ 32 a.isLt (.cons _ _ 8192 i.isLt .nil))) rfl
theorem andi (d : XReg) (a : XReg) (i : BitVec 13) : Statement (.andi d a i) :=
  statement_of rfl (.cons _ _ 32 d.isLt (.cons _ _ 32 a.isLt (.cons _ _ 8192 i.isLt .nil))) rfl
theorem ori (d : XReg) (a : XReg) (i : BitVec 13) : Statement (.ori d a i) :=
  statement_of rfl (.cons _ _ 32 d.isLt (.cons _ _ 32 a.isLt (.cons _ _ 8192 i.isLt .nil))) rfl
theorem xori (d : XReg) (a : XReg) (i : BitVec 13) : Statement (.xori d a i) :=
  statement_of rfl (.cons _ _ 32 d.isLt (.cons _ _ 32 a.isLt (.cons _ _ 8192 i.isLt .nil))) rfl
theorem slli (d : XReg) (a : XReg) (s : Fin 64) : Statement (.slli d a s) :=
  statement_of rfl (.cons _ _ 32 d.isLt (.cons _ _ 32 a.isLt (.cons _ _ 64 s.isLt .nil))) rfl
theorem srli (d : XReg) (a : XReg) (s : Fin 64) : Statement (.srli d a s) :=
  statement_of rfl (.cons _ _ 32 d.isLt (.cons _ _ 32 a.isLt (.cons _ _ 64 s.isLt .nil))) rfl
theorem srai (d : XReg) (a : XReg) (s : Fin 64) : Statement (.srai d a s) :=
  statement_of rfl (.cons _ _ 32 d.isLt (.cons _ _ 32 a.isLt (.cons _ _ 64 s.isLt .nil))) rfl
theorem slti (d : XReg) (a : XReg) (i : BitVec 13) : Statement (.slti d a i) :=
  statement_of rfl (.cons _ _ 32 d.isLt (.cons _ _ 32 a.isLt (.cons _ _ 8192 i.isLt .nil))) rfl
theorem lui (d : XReg) (i : BitVec 18) : Statement (.lui d i) :=
  statement_of rfl (.cons _ _ 32 d.isLt (.cons _ _ 262144 i.isLt .nil)) rfl
theorem luih (d : XReg) (i : BitVec 18) : Statement (.luih d i) :=
  statement_of rfl (.cons _ _ 32 d.isLt (.cons _ _ 262144 i.isLt .nil)) rfl
theorem beq (a : XReg) (b : XReg) (o : BitVec 13) : Statement (.beq a b o) :=
  statement_of rfl (.cons _ _ 32 a.isLt (.cons _ _ 32 b.isLt (.cons _ _ 8192 o.isLt .nil))) rfl
theorem bne (a : XReg) (b : XReg) (o : BitVec 13) : Statement (.bne a b o) :=
  statement_of rfl (.cons _ _ 32 a.isLt (.cons _ _ 32 b.isLt (.cons _ _ 8192 o.isLt .nil))) rfl
theorem blt (a : XReg) (b : XReg) (o : BitVec 13) : Statement (.blt a b o) :=
  statement_of rfl (.cons _ _ 32 a.isLt (.cons _ _ 32 b.isLt (.cons _ _ 8192 o.isLt .nil))) rfl
theorem bge (a : XReg) (b : XReg) (o : BitVec 13) : Statement (.bge a b o) :=
  statement_of rfl (.cons _ _ 32 a.isLt (.cons _ _ 32 b.isLt (.cons _ _ 8192 o.isLt .nil))) rfl
theorem bltu (a : XReg) (b : XReg) (o : BitVec 13) : Statement (.bltu a b o) :=
  statement_of rfl (.cons _ _ 32 a.isLt (.cons _ _ 32 b.isLt (.cons _ _ 8192 o.isLt .nil))) rfl
theorem bgeu (a : XReg) (b : XReg) (o : BitVec 13) : Statement (.bgeu a b o) :=
  statement_of rfl (.cons _ _ 32 a.isLt (.cons _ _ 32 b.isLt (.cons _ _ 8192 o.isLt .nil))) rfl
theorem jal (d : XReg) (o : BitVec 18) : Statement (.jal d o) :=
  statement_of rfl (.cons _ _ 32 d.isLt (.cons _ _ 262144 o.isLt .nil)) rfl
theorem jalr (d : XReg) (a : XReg) (i : BitVec 13) : Statement (.jalr d a i) :=
  statement_of rfl (.cons _ _ 32 d.isLt (.cons _ _ 32 a.isLt (.cons _ _ 8192 i.isLt .nil))) rfl
theorem loop (a : XReg) (o : BitVec 13) : Statement (.loop a o) :=
  statement_of rfl (.cons _ _ 32 a.isLt (.cons _ _ 8192 o.isLt .nil)) rfl
theorem beos (p : PortNo) (o : BitVec 13) : Statement (.beos p o) :=
  statement_of rfl (.cons _ _ 8 p.isLt (.cons _ _ 8192 o.isLt .nil)) rfl
theorem trap (a : XReg) : Statement (.trap a) :=
  statement_of rfl (.cons _ _ 32 a.isLt .nil) rfl
theorem eret : Statement (.eret) :=
  statement_of rfl .nil rfl
theorem wfe (a : XReg) : Statement (.wfe a) :=
  statement_of rfl (.cons _ _ 32 a.isLt .nil) rfl
theorem wfeDeadline (h : Nat) : Statement (.wfeDeadline h) := statement_none rfl
theorem yield : Statement (.yield) :=
  statement_of rfl .nil rfl
theorem halt : Statement (.halt) :=
  statement_of rfl .nil rfl
theorem haltRetire (h : Nat) : Statement (.haltRetire h) := statement_none rfl
theorem brk : Statement (.brk) :=
  statement_of rfl .nil rfl
theorem scall (d : XReg) (a : XReg) (b : XReg) : Statement (.scall d a b) :=
  statement_of rfl (.cons _ _ 32 d.isLt (.cons _ _ 32 a.isLt (.cons _ _ 32 b.isLt .nil))) rfl
theorem mfc (d : XReg) (r : BitVec 12) : Statement (.mfc d r) :=
  statement_of rfl (.cons _ _ 32 d.isLt (.cons _ _ 4096 r.isLt .nil)) rfl
theorem mtc (a : XReg) (r : BitVec 12) : Statement (.mtc a r) :=
  statement_of rfl (.cons _ _ 32 a.isLt (.cons _ _ 4096 r.isLt .nil)) rfl
theorem modeWrite (v : Word) : Statement (.modeWrite v) := statement_none rfl
theorem arbWrite (v : Word) : Statement (.arbWrite v) := statement_none rfl
theorem vshareWrite (v : Word) : Statement (.vshareWrite v) := statement_none rfl
theorem mownerWrite (v : Word) : Statement (.mownerWrite v) := statement_none rfl
theorem fflagsWrite (v : Word) : Statement (.fflagsWrite v) := statement_none rfl
theorem mstatWrite (v : Word) : Statement (.mstatWrite v) := statement_none rfl
theorem loopcWrite (v : Word) : Statement (.loopcWrite v) := statement_none rfl
theorem lb (d : XReg) (a : XReg) (o : BitVec 13) : Statement (.lb d a o) :=
  statement_of rfl (.cons _ _ 32 d.isLt (.cons _ _ 32 a.isLt (.cons _ _ 8192 o.isLt .nil))) rfl
theorem lbu (d : XReg) (a : XReg) (o : BitVec 13) : Statement (.lbu d a o) :=
  statement_of rfl (.cons _ _ 32 d.isLt (.cons _ _ 32 a.isLt (.cons _ _ 8192 o.isLt .nil))) rfl
theorem lh (d : XReg) (a : XReg) (o : BitVec 13) : Statement (.lh d a o) :=
  statement_of rfl (.cons _ _ 32 d.isLt (.cons _ _ 32 a.isLt (.cons _ _ 8192 o.isLt .nil))) rfl
theorem lhu (d : XReg) (a : XReg) (o : BitVec 13) : Statement (.lhu d a o) :=
  statement_of rfl (.cons _ _ 32 d.isLt (.cons _ _ 32 a.isLt (.cons _ _ 8192 o.isLt .nil))) rfl
theorem lw (d : XReg) (a : XReg) (o : BitVec 13) : Statement (.lw d a o) :=
  statement_of rfl (.cons _ _ 32 d.isLt (.cons _ _ 32 a.isLt (.cons _ _ 8192 o.isLt .nil))) rfl
theorem lwu (d : XReg) (a : XReg) (o : BitVec 13) : Statement (.lwu d a o) :=
  statement_of rfl (.cons _ _ 32 d.isLt (.cons _ _ 32 a.isLt (.cons _ _ 8192 o.isLt .nil))) rfl
theorem ld (d : XReg) (a : XReg) (o : BitVec 13) : Statement (.ld d a o) :=
  statement_of rfl (.cons _ _ 32 d.isLt (.cons _ _ 32 a.isLt (.cons _ _ 8192 o.isLt .nil))) rfl
theorem sb (s : XReg) (a : XReg) (o : BitVec 13) : Statement (.sb s a o) :=
  statement_of rfl (.cons _ _ 32 s.isLt (.cons _ _ 32 a.isLt (.cons _ _ 8192 o.isLt .nil))) rfl
theorem sh (s : XReg) (a : XReg) (o : BitVec 13) : Statement (.sh s a o) :=
  statement_of rfl (.cons _ _ 32 s.isLt (.cons _ _ 32 a.isLt (.cons _ _ 8192 o.isLt .nil))) rfl
theorem sw (s : XReg) (a : XReg) (o : BitVec 13) : Statement (.sw s a o) :=
  statement_of rfl (.cons _ _ 32 s.isLt (.cons _ _ 32 a.isLt (.cons _ _ 8192 o.isLt .nil))) rfl
theorem sd (s : XReg) (a : XReg) (o : BitVec 13) : Statement (.sd s a o) :=
  statement_of rfl (.cons _ _ 32 s.isLt (.cons _ _ 32 a.isLt (.cons _ _ 8192 o.isLt .nil))) rfl
theorem vld (v : VReg) (a : XReg) (o : BitVec 13) : Statement (.vld v a o) :=
  statement_of rfl (.cons _ _ 32 v.isLt (.cons _ _ 32 a.isLt (.cons _ _ 8192 o.isLt .nil))) rfl
theorem vst (v : VReg) (a : XReg) (o : BitVec 13) : Statement (.vst v a o) :=
  statement_of rfl (.cons _ _ 32 v.isLt (.cons _ _ 32 a.isLt (.cons _ _ 8192 o.isLt .nil))) rfl
theorem vlds (v : VReg) (a : XReg) (b : XReg) (k : KReg) (d64 : Bool) : Statement (.vlds v a b k d64) :=
  statement_of rfl (.cons _ _ 32 v.isLt (.cons _ _ 32 a.isLt (.cons _ _ 32 b.isLt (.cons _ _ 8 k.isLt (.cons _ _ 2 (bool_lt d64) .nil))))) rfl
theorem vsts (v : VReg) (a : XReg) (b : XReg) (k : KReg) (d64 : Bool) : Statement (.vsts v a b k d64) :=
  statement_of rfl (.cons _ _ 32 v.isLt (.cons _ _ 32 a.isLt (.cons _ _ 32 b.isLt (.cons _ _ 8 k.isLt (.cons _ _ 2 (bool_lt d64) .nil))))) rfl
theorem vgth (v : VReg) (a : XReg) (i : VReg) (k : KReg) (d64 : Bool) : Statement (.vgth v a i k d64) :=
  statement_of rfl (.cons _ _ 32 v.isLt (.cons _ _ 32 a.isLt (.cons _ _ 32 i.isLt (.cons _ _ 8 k.isLt (.cons _ _ 2 (bool_lt d64) .nil))))) rfl
theorem vsct (v : VReg) (a : XReg) (i : VReg) (k : KReg) (d64 : Bool) : Statement (.vsct v a i k d64) :=
  statement_of rfl (.cons _ _ 32 v.isLt (.cons _ _ 32 a.isLt (.cons _ _ 32 i.isLt (.cons _ _ 8 k.isLt (.cons _ _ 2 (bool_lt d64) .nil))))) rfl
theorem lda (d : XReg) (a : XReg) (ord : Ord) (scope : Scope) (dbl : Bool) : Statement (.lda d a ord scope dbl) :=
  statement_of rfl (.cons _ _ 32 d.isLt (.cons _ _ 32 a.isLt (.cons _ _ 8 (ord_code_lt ord) (.cons _ _ 16 (scope_code_lt scope) (.cons _ _ 2 (bool_lt dbl) .nil))))) rfl
theorem stl (a : XReg) (b : XReg) (ord : Ord) (scope : Scope) (dbl : Bool) : Statement (.stl a b ord scope dbl) :=
  statement_of rfl (.cons _ _ 32 a.isLt (.cons _ _ 32 b.isLt (.cons _ _ 8 (ord_code_lt ord) (.cons _ _ 16 (scope_code_lt scope) (.cons _ _ 2 (bool_lt dbl) .nil))))) rfl
theorem amoadd (d : XReg) (a : XReg) (b : XReg) (ord : Ord) (scope : Scope) (dbl : Bool) : Statement (.amoadd d a b ord scope dbl) :=
  statement_of rfl (.cons _ _ 32 d.isLt (.cons _ _ 32 a.isLt (.cons _ _ 32 b.isLt (.cons _ _ 8 (ord_code_lt ord) (.cons _ _ 16 (scope_code_lt scope) (.cons _ _ 2 (bool_lt dbl) .nil)))))) rfl
theorem amoand (d : XReg) (a : XReg) (b : XReg) (ord : Ord) (scope : Scope) (dbl : Bool) : Statement (.amoand d a b ord scope dbl) :=
  statement_of rfl (.cons _ _ 32 d.isLt (.cons _ _ 32 a.isLt (.cons _ _ 32 b.isLt (.cons _ _ 8 (ord_code_lt ord) (.cons _ _ 16 (scope_code_lt scope) (.cons _ _ 2 (bool_lt dbl) .nil)))))) rfl
theorem amoor (d : XReg) (a : XReg) (b : XReg) (ord : Ord) (scope : Scope) (dbl : Bool) : Statement (.amoor d a b ord scope dbl) :=
  statement_of rfl (.cons _ _ 32 d.isLt (.cons _ _ 32 a.isLt (.cons _ _ 32 b.isLt (.cons _ _ 8 (ord_code_lt ord) (.cons _ _ 16 (scope_code_lt scope) (.cons _ _ 2 (bool_lt dbl) .nil)))))) rfl
theorem amoxor (d : XReg) (a : XReg) (b : XReg) (ord : Ord) (scope : Scope) (dbl : Bool) : Statement (.amoxor d a b ord scope dbl) :=
  statement_of rfl (.cons _ _ 32 d.isLt (.cons _ _ 32 a.isLt (.cons _ _ 32 b.isLt (.cons _ _ 8 (ord_code_lt ord) (.cons _ _ 16 (scope_code_lt scope) (.cons _ _ 2 (bool_lt dbl) .nil)))))) rfl
theorem amomin (d : XReg) (a : XReg) (b : XReg) (ord : Ord) (scope : Scope) (dbl : Bool) : Statement (.amomin d a b ord scope dbl) :=
  statement_of rfl (.cons _ _ 32 d.isLt (.cons _ _ 32 a.isLt (.cons _ _ 32 b.isLt (.cons _ _ 8 (ord_code_lt ord) (.cons _ _ 16 (scope_code_lt scope) (.cons _ _ 2 (bool_lt dbl) .nil)))))) rfl
theorem amomax (d : XReg) (a : XReg) (b : XReg) (ord : Ord) (scope : Scope) (dbl : Bool) : Statement (.amomax d a b ord scope dbl) :=
  statement_of rfl (.cons _ _ 32 d.isLt (.cons _ _ 32 a.isLt (.cons _ _ 32 b.isLt (.cons _ _ 8 (ord_code_lt ord) (.cons _ _ 16 (scope_code_lt scope) (.cons _ _ 2 (bool_lt dbl) .nil)))))) rfl
theorem amominu (d : XReg) (a : XReg) (b : XReg) (ord : Ord) (scope : Scope) (dbl : Bool) : Statement (.amominu d a b ord scope dbl) :=
  statement_of rfl (.cons _ _ 32 d.isLt (.cons _ _ 32 a.isLt (.cons _ _ 32 b.isLt (.cons _ _ 8 (ord_code_lt ord) (.cons _ _ 16 (scope_code_lt scope) (.cons _ _ 2 (bool_lt dbl) .nil)))))) rfl
theorem amomaxu (d : XReg) (a : XReg) (b : XReg) (ord : Ord) (scope : Scope) (dbl : Bool) : Statement (.amomaxu d a b ord scope dbl) :=
  statement_of rfl (.cons _ _ 32 d.isLt (.cons _ _ 32 a.isLt (.cons _ _ 32 b.isLt (.cons _ _ 8 (ord_code_lt ord) (.cons _ _ 16 (scope_code_lt scope) (.cons _ _ 2 (bool_lt dbl) .nil)))))) rfl
theorem amoswap (d : XReg) (a : XReg) (b : XReg) (ord : Ord) (scope : Scope) (dbl : Bool) : Statement (.amoswap d a b ord scope dbl) :=
  statement_of rfl (.cons _ _ 32 d.isLt (.cons _ _ 32 a.isLt (.cons _ _ 32 b.isLt (.cons _ _ 8 (ord_code_lt ord) (.cons _ _ 16 (scope_code_lt scope) (.cons _ _ 2 (bool_lt dbl) .nil)))))) rfl
theorem amocas (d : XReg) (a : XReg) (b : XReg) (ord : Ord) (scope : Scope) (dbl : Bool) : Statement (.amocas d a b ord scope dbl) :=
  statement_of rfl (.cons _ _ 32 d.isLt (.cons _ _ 32 a.isLt (.cons _ _ 32 b.isLt (.cons _ _ 8 (ord_code_lt ord) (.cons _ _ 16 (scope_code_lt scope) (.cons _ _ 2 (bool_lt dbl) .nil)))))) rfl
theorem fence (ord : Ord) (scope : Scope) : Statement (.fence ord scope) :=
  statement_of rfl (.cons _ _ 8 (ord_code_lt ord) (.cons _ _ 16 (scope_code_lt scope) .nil)) rfl
theorem putq (d : XReg) (a : XReg) (b : XReg) (len : Fin 64) : Statement (.putq d a b len) :=
  statement_of rfl (.cons _ _ 32 d.isLt (.cons _ _ 32 a.isLt (.cons _ _ 32 b.isLt (.cons _ _ 64 len.isLt .nil)))) rfl
theorem qcfg (p : PortNo) (a : XReg) : Statement (.qcfg p a) :=
  statement_of rfl (.cons _ _ 8 p.isLt (.cons _ _ 32 a.isLt .nil)) rfl
theorem qget (d : XReg) (p : PortNo) : Statement (.qget d p) :=
  statement_of rfl (.cons _ _ 32 d.isLt (.cons _ _ 8 p.isLt .nil)) rfl
theorem qput (p : PortNo) (a : XReg) : Statement (.qput p a) :=
  statement_of rfl (.cons _ _ 8 p.isLt (.cons _ _ 32 a.isLt .nil)) rfl
theorem qclose (p : PortNo) : Statement (.qclose p) :=
  statement_of rfl (.cons _ _ 8 p.isLt .nil) rfl
theorem qstat (d : XReg) (p : PortNo) (sel : Fin 8) : Statement (.qstat d p sel) :=
  statement_of rfl (.cons _ _ 32 d.isLt (.cons _ _ 8 p.isLt (.cons _ _ 8 sel.isLt .nil))) rfl
theorem cpyset (c : ChanNo) (a : XReg) (f : CpyField) : Statement (.cpyset c a f) :=
  statement_of rfl (.cons _ _ 4 c.isLt (.cons _ _ 32 a.isLt (.cons _ _ 16 (cpyField_code_lt f) .nil))) rfl
theorem cpysetClrerr (c : ChanNo) : Statement (.cpysetClrerr c) :=
  statement_of rfl (.cons _ _ 4 c.isLt .nil) rfl
theorem cpygo (d : XReg) (a : XReg) (c : ChanNo) : Statement (.cpygo d a c) :=
  statement_of rfl (.cons _ _ 32 d.isLt (.cons _ _ 32 a.isLt (.cons _ _ 4 c.isLt .nil))) rfl
theorem cpywait (c : ChanNo) (a : XReg) : Statement (.cpywait c a) :=
  statement_of rfl (.cons _ _ 4 c.isLt (.cons _ _ 32 a.isLt .nil)) rfl
theorem cpystat (d : XReg) (c : ChanNo) (sel : CpySel) : Statement (.cpystat d c sel) :=
  statement_of rfl (.cons _ _ 32 d.isLt (.cons _ _ 4 c.isLt (.cons _ _ 8 (cpySel_code_lt sel) .nil))) rfl
theorem bar (d : XReg) (lv : Level) : Statement (.bar d lv) :=
  statement_of rfl (.cons _ _ 32 d.isLt (.cons _ _ 4 (level_code_lt lv) .nil)) rfl
theorem barw (a : XReg) (lv : Level) : Statement (.barw a lv) :=
  statement_of rfl (.cons _ _ 32 a.isLt (.cons _ _ 4 (level_code_lt lv) .nil)) rfl
theorem phase (d : XReg) (lv : Level) : Statement (.phase d lv) :=
  statement_of rfl (.cons _ _ 32 d.isLt (.cons _ _ 4 (level_code_lt lv) .nil)) rfl
theorem couple (a : XReg) : Statement (.couple a) :=
  statement_of rfl (.cons _ _ 32 a.isLt .nil) rfl
theorem uncouple : Statement (.uncouple) :=
  statement_of rfl .nil rfl
theorem inbx (d : XReg) (a : XReg) (poll : Bool) : Statement (.inbx d a poll) :=
  statement_of rfl (.cons _ _ 32 d.isLt (.cons _ _ 32 a.isLt (.cons _ _ 2 (bool_lt poll) .nil))) rfl
theorem jnext (d : XReg) (a : XReg) : Statement (.jnext d a) :=
  statement_of rfl (.cons _ _ 32 d.isLt (.cons _ _ 32 a.isLt .nil)) rfl
theorem jnextCovered (d : XReg) (a : XReg) : Statement (.jnextCovered d a) := statement_none rfl
theorem larm (d : XReg) (a : XReg) : Statement (.larm d a) :=
  statement_of rfl (.cons _ _ 32 d.isLt (.cons _ _ 32 a.isLt .nil)) rfl
theorem gdisp (d : XReg) (a : XReg) : Statement (.gdisp d a) :=
  statement_of rfl (.cons _ _ 32 d.isLt (.cons _ _ 32 a.isLt .nil)) rfl
theorem gjoin (d : XReg) (a : XReg) (poll : Bool) : Statement (.gjoin d a poll) :=
  statement_of rfl (.cons _ _ 32 d.isLt (.cons _ _ 32 a.isLt (.cons _ _ 2 (bool_lt poll) .nil))) rfl
theorem sigw (d : XReg) (a : XReg) (b : XReg) (nowait : Bool) : Statement (.sigw d a b nowait) :=
  statement_of rfl (.cons _ _ 32 d.isLt (.cons _ _ 32 a.isLt (.cons _ _ 32 b.isLt (.cons _ _ 2 (bool_lt nowait) .nil)))) rfl
theorem sigs (a : XReg) (b : XReg) (add : Bool) : Statement (.sigs a b add) :=
  statement_of rfl (.cons _ _ 32 a.isLt (.cons _ _ 32 b.isLt (.cons _ _ 2 (bool_lt add) .nil))) rfl
theorem hnew (d : XReg) (a : XReg) (b : XReg) : Statement (.hnew d a b) :=
  statement_of rfl (.cons _ _ 32 d.isLt (.cons _ _ 32 a.isLt (.cons _ _ 32 b.isLt .nil))) rfl
theorem hcopy (d : XReg) (s : XReg) : Statement (.hcopy d s) :=
  statement_of rfl (.cons _ _ 32 d.isLt (.cons _ _ 32 s.isLt .nil)) rfl
theorem hdrop (s : XReg) : Statement (.hdrop s) :=
  statement_of rfl (.cons _ _ 32 s.isLt .nil) rfl
theorem hbind (d : XReg) (a : XReg) (b : XReg) : Statement (.hbind d a b) :=
  statement_of rfl (.cons _ _ 32 d.isLt (.cons _ _ 32 a.isLt (.cons _ _ 32 b.isLt .nil))) rfl
theorem hquery (d : XReg) (a : XReg) : Statement (.hquery d a) :=
  statement_of rfl (.cons _ _ 32 d.isLt (.cons _ _ 32 a.isLt .nil)) rfl
theorem foffer (d : XReg) (a : XReg) (b : XReg) : Statement (.foffer d a b) :=
  statement_of rfl (.cons _ _ 32 d.isLt (.cons _ _ 32 a.isLt (.cons _ _ 32 b.isLt .nil))) rfl
theorem faccept (d : XReg) (a : XReg) (b : XReg) : Statement (.faccept d a b) :=
  statement_of rfl (.cons _ _ 32 d.isLt (.cons _ _ 32 a.isLt (.cons _ _ 32 b.isLt .nil))) rfl
theorem flend (d : XReg) (a : XReg) (b : XReg) : Statement (.flend d a b) :=
  statement_of rfl (.cons _ _ 32 d.isLt (.cons _ _ 32 a.isLt (.cons _ _ 32 b.isLt .nil))) rfl
theorem frecall (d : XReg) (a : XReg) (b : XReg) : Statement (.frecall d a b) :=
  statement_of rfl (.cons _ _ 32 d.isLt (.cons _ _ 32 a.isLt (.cons _ _ 32 b.isLt .nil))) rfl
theorem frelease (d : XReg) (a : XReg) : Statement (.frelease d a) :=
  statement_of rfl (.cons _ _ 32 d.isLt (.cons _ _ 32 a.isLt .nil)) rfl
theorem fquery (d : XReg) (a : XReg) : Statement (.fquery d a) :=
  statement_of rfl (.cons _ _ 32 d.isLt (.cons _ _ 32 a.isLt .nil)) rfl
theorem tlbi (scope : TlbiScope) (a : XReg) (b : XReg) (kind : TlbiKind) : Statement (.tlbi scope a b kind) :=
  statement_of rfl (.cons _ _ 8 (tlbiScope_code_lt scope) (.cons _ _ 32 a.isLt (.cons _ _ 32 b.isLt (.cons _ _ 4 (tlbiKind_code_lt kind) .nil)))) rfl
theorem flush (a : XReg) (b : XReg) : Statement (.flush a b) :=
  statement_of rfl (.cons _ _ 32 a.isLt (.cons _ _ 32 b.isLt .nil)) rfl
theorem inval (a : XReg) (b : XReg) : Statement (.inval a b) :=
  statement_of rfl (.cons _ _ 32 a.isLt (.cons _ _ 32 b.isLt .nil)) rfl
theorem vadd (d : VReg) (a : VReg) (b : VReg) (k : KReg) (e : Ew) (keep : Bool) : Statement (.vadd d a b k e keep) :=
  statement_of rfl (.cons _ _ 32 d.isLt (.cons _ _ 32 a.isLt (.cons _ _ 32 b.isLt (.cons _ _ 8 k.isLt (.cons _ _ 4 (ew_code_lt e) (.cons _ _ 2 (bool_lt keep) .nil)))))) rfl
theorem vsub (d : VReg) (a : VReg) (b : VReg) (k : KReg) (e : Ew) (keep : Bool) : Statement (.vsub d a b k e keep) :=
  statement_of rfl (.cons _ _ 32 d.isLt (.cons _ _ 32 a.isLt (.cons _ _ 32 b.isLt (.cons _ _ 8 k.isLt (.cons _ _ 4 (ew_code_lt e) (.cons _ _ 2 (bool_lt keep) .nil)))))) rfl
theorem vmul (d : VReg) (a : VReg) (b : VReg) (k : KReg) (e : Ew) (keep : Bool) : Statement (.vmul d a b k e keep) :=
  statement_of rfl (.cons _ _ 32 d.isLt (.cons _ _ 32 a.isLt (.cons _ _ 32 b.isLt (.cons _ _ 8 k.isLt (.cons _ _ 4 (ew_code_lt e) (.cons _ _ 2 (bool_lt keep) .nil)))))) rfl
theorem vmulh (d : VReg) (a : VReg) (b : VReg) (k : KReg) (e : Ew) (keep : Bool) : Statement (.vmulh d a b k e keep) :=
  statement_of rfl (.cons _ _ 32 d.isLt (.cons _ _ 32 a.isLt (.cons _ _ 32 b.isLt (.cons _ _ 8 k.isLt (.cons _ _ 4 (ew_code_lt e) (.cons _ _ 2 (bool_lt keep) .nil)))))) rfl
theorem vmin (d : VReg) (a : VReg) (b : VReg) (k : KReg) (e : Ew) (keep : Bool) : Statement (.vmin d a b k e keep) :=
  statement_of rfl (.cons _ _ 32 d.isLt (.cons _ _ 32 a.isLt (.cons _ _ 32 b.isLt (.cons _ _ 8 k.isLt (.cons _ _ 4 (ew_code_lt e) (.cons _ _ 2 (bool_lt keep) .nil)))))) rfl
theorem vmax (d : VReg) (a : VReg) (b : VReg) (k : KReg) (e : Ew) (keep : Bool) : Statement (.vmax d a b k e keep) :=
  statement_of rfl (.cons _ _ 32 d.isLt (.cons _ _ 32 a.isLt (.cons _ _ 32 b.isLt (.cons _ _ 8 k.isLt (.cons _ _ 4 (ew_code_lt e) (.cons _ _ 2 (bool_lt keep) .nil)))))) rfl
theorem vminu (d : VReg) (a : VReg) (b : VReg) (k : KReg) (e : Ew) (keep : Bool) : Statement (.vminu d a b k e keep) :=
  statement_of rfl (.cons _ _ 32 d.isLt (.cons _ _ 32 a.isLt (.cons _ _ 32 b.isLt (.cons _ _ 8 k.isLt (.cons _ _ 4 (ew_code_lt e) (.cons _ _ 2 (bool_lt keep) .nil)))))) rfl
theorem vmaxu (d : VReg) (a : VReg) (b : VReg) (k : KReg) (e : Ew) (keep : Bool) : Statement (.vmaxu d a b k e keep) :=
  statement_of rfl (.cons _ _ 32 d.isLt (.cons _ _ 32 a.isLt (.cons _ _ 32 b.isLt (.cons _ _ 8 k.isLt (.cons _ _ 4 (ew_code_lt e) (.cons _ _ 2 (bool_lt keep) .nil)))))) rfl
theorem vand (d : VReg) (a : VReg) (b : VReg) (k : KReg) (e : Ew) (keep : Bool) : Statement (.vand d a b k e keep) :=
  statement_of rfl (.cons _ _ 32 d.isLt (.cons _ _ 32 a.isLt (.cons _ _ 32 b.isLt (.cons _ _ 8 k.isLt (.cons _ _ 4 (ew_code_lt e) (.cons _ _ 2 (bool_lt keep) .nil)))))) rfl
theorem vor (d : VReg) (a : VReg) (b : VReg) (k : KReg) (e : Ew) (keep : Bool) : Statement (.vor d a b k e keep) :=
  statement_of rfl (.cons _ _ 32 d.isLt (.cons _ _ 32 a.isLt (.cons _ _ 32 b.isLt (.cons _ _ 8 k.isLt (.cons _ _ 4 (ew_code_lt e) (.cons _ _ 2 (bool_lt keep) .nil)))))) rfl
theorem vxor (d : VReg) (a : VReg) (b : VReg) (k : KReg) (e : Ew) (keep : Bool) : Statement (.vxor d a b k e keep) :=
  statement_of rfl (.cons _ _ 32 d.isLt (.cons _ _ 32 a.isLt (.cons _ _ 32 b.isLt (.cons _ _ 8 k.isLt (.cons _ _ 4 (ew_code_lt e) (.cons _ _ 2 (bool_lt keep) .nil)))))) rfl
theorem vandn (d : VReg) (a : VReg) (b : VReg) (k : KReg) (e : Ew) (keep : Bool) : Statement (.vandn d a b k e keep) :=
  statement_of rfl (.cons _ _ 32 d.isLt (.cons _ _ 32 a.isLt (.cons _ _ 32 b.isLt (.cons _ _ 8 k.isLt (.cons _ _ 4 (ew_code_lt e) (.cons _ _ 2 (bool_lt keep) .nil)))))) rfl
theorem vsll (d : VReg) (a : VReg) (b : VReg) (k : KReg) (e : Ew) (keep : Bool) : Statement (.vsll d a b k e keep) :=
  statement_of rfl (.cons _ _ 32 d.isLt (.cons _ _ 32 a.isLt (.cons _ _ 32 b.isLt (.cons _ _ 8 k.isLt (.cons _ _ 4 (ew_code_lt e) (.cons _ _ 2 (bool_lt keep) .nil)))))) rfl
theorem vsrl (d : VReg) (a : VReg) (b : VReg) (k : KReg) (e : Ew) (keep : Bool) : Statement (.vsrl d a b k e keep) :=
  statement_of rfl (.cons _ _ 32 d.isLt (.cons _ _ 32 a.isLt (.cons _ _ 32 b.isLt (.cons _ _ 8 k.isLt (.cons _ _ 4 (ew_code_lt e) (.cons _ _ 2 (bool_lt keep) .nil)))))) rfl
theorem vsra (d : VReg) (a : VReg) (b : VReg) (k : KReg) (e : Ew) (keep : Bool) : Statement (.vsra d a b k e keep) :=
  statement_of rfl (.cons _ _ 32 d.isLt (.cons _ _ 32 a.isLt (.cons _ _ 32 b.isLt (.cons _ _ 8 k.isLt (.cons _ _ 4 (ew_code_lt e) (.cons _ _ 2 (bool_lt keep) .nil)))))) rfl
theorem vrol (d : VReg) (a : VReg) (b : VReg) (k : KReg) (e : Ew) (keep : Bool) : Statement (.vrol d a b k e keep) :=
  statement_of rfl (.cons _ _ 32 d.isLt (.cons _ _ 32 a.isLt (.cons _ _ 32 b.isLt (.cons _ _ 8 k.isLt (.cons _ _ 4 (ew_code_lt e) (.cons _ _ 2 (bool_lt keep) .nil)))))) rfl
theorem vsadd (d : VReg) (a : VReg) (b : VReg) (k : KReg) (e : Ew) (keep : Bool) : Statement (.vsadd d a b k e keep) :=
  statement_of rfl (.cons _ _ 32 d.isLt (.cons _ _ 32 a.isLt (.cons _ _ 32 b.isLt (.cons _ _ 8 k.isLt (.cons _ _ 4 (ew_code_lt e) (.cons _ _ 2 (bool_lt keep) .nil)))))) rfl
theorem vssub (d : VReg) (a : VReg) (b : VReg) (k : KReg) (e : Ew) (keep : Bool) : Statement (.vssub d a b k e keep) :=
  statement_of rfl (.cons _ _ 32 d.isLt (.cons _ _ 32 a.isLt (.cons _ _ 32 b.isLt (.cons _ _ 8 k.isLt (.cons _ _ 4 (ew_code_lt e) (.cons _ _ 2 (bool_lt keep) .nil)))))) rfl
theorem vavg (d : VReg) (a : VReg) (b : VReg) (k : KReg) (e : Ew) (keep : Bool) : Statement (.vavg d a b k e keep) :=
  statement_of rfl (.cons _ _ 32 d.isLt (.cons _ _ 32 a.isLt (.cons _ _ 32 b.isLt (.cons _ _ 8 k.isLt (.cons _ _ 4 (ew_code_lt e) (.cons _ _ 2 (bool_lt keep) .nil)))))) rfl
theorem vabs (d : VReg) (a : VReg) (k : KReg) (e : Ew) (keep : Bool) : Statement (.vabs d a k e keep) :=
  statement_of rfl (.cons _ _ 32 d.isLt (.cons _ _ 32 a.isLt (.cons _ _ 8 k.isLt (.cons _ _ 4 (ew_code_lt e) (.cons _ _ 2 (bool_lt keep) .nil))))) rfl
theorem vfadd (d : VReg) (a : VReg) (b : VReg) (k : KReg) (e : Fw) (keep : Bool) : Statement (.vfadd d a b k e keep) :=
  statement_of rfl (.cons _ _ 32 d.isLt (.cons _ _ 32 a.isLt (.cons _ _ 32 b.isLt (.cons _ _ 8 k.isLt (.cons _ _ 4 (fw_code_lt e) (.cons _ _ 2 (bool_lt keep) .nil)))))) rfl
theorem vfsub (d : VReg) (a : VReg) (b : VReg) (k : KReg) (e : Fw) (keep : Bool) : Statement (.vfsub d a b k e keep) :=
  statement_of rfl (.cons _ _ 32 d.isLt (.cons _ _ 32 a.isLt (.cons _ _ 32 b.isLt (.cons _ _ 8 k.isLt (.cons _ _ 4 (fw_code_lt e) (.cons _ _ 2 (bool_lt keep) .nil)))))) rfl
theorem vfmul (d : VReg) (a : VReg) (b : VReg) (k : KReg) (e : Fw) (keep : Bool) : Statement (.vfmul d a b k e keep) :=
  statement_of rfl (.cons _ _ 32 d.isLt (.cons _ _ 32 a.isLt (.cons _ _ 32 b.isLt (.cons _ _ 8 k.isLt (.cons _ _ 4 (fw_code_lt e) (.cons _ _ 2 (bool_lt keep) .nil)))))) rfl
theorem vfabd (d : VReg) (a : VReg) (b : VReg) (k : KReg) (e : Fw) (keep : Bool) : Statement (.vfabd d a b k e keep) :=
  statement_of rfl (.cons _ _ 32 d.isLt (.cons _ _ 32 a.isLt (.cons _ _ 32 b.isLt (.cons _ _ 8 k.isLt (.cons _ _ 4 (fw_code_lt e) (.cons _ _ 2 (bool_lt keep) .nil)))))) rfl
theorem vfma (d : VReg) (a : VReg) (b : VReg) (k : KReg) (e : Fw) (keep : Bool) : Statement (.vfma d a b k e keep) :=
  statement_of rfl (.cons _ _ 32 d.isLt (.cons _ _ 32 a.isLt (.cons _ _ 32 b.isLt (.cons _ _ 8 k.isLt (.cons _ _ 4 (fw_code_lt e) (.cons _ _ 2 (bool_lt keep) .nil)))))) rfl
theorem vfms (d : VReg) (a : VReg) (b : VReg) (k : KReg) (e : Fw) (keep : Bool) : Statement (.vfms d a b k e keep) :=
  statement_of rfl (.cons _ _ 32 d.isLt (.cons _ _ 32 a.isLt (.cons _ _ 32 b.isLt (.cons _ _ 8 k.isLt (.cons _ _ 4 (fw_code_lt e) (.cons _ _ 2 (bool_lt keep) .nil)))))) rfl
theorem vfnma (d : VReg) (a : VReg) (b : VReg) (k : KReg) (e : Fw) (keep : Bool) : Statement (.vfnma d a b k e keep) :=
  statement_of rfl (.cons _ _ 32 d.isLt (.cons _ _ 32 a.isLt (.cons _ _ 32 b.isLt (.cons _ _ 8 k.isLt (.cons _ _ 4 (fw_code_lt e) (.cons _ _ 2 (bool_lt keep) .nil)))))) rfl
theorem vfnms (d : VReg) (a : VReg) (b : VReg) (k : KReg) (e : Fw) (keep : Bool) : Statement (.vfnms d a b k e keep) :=
  statement_of rfl (.cons _ _ 32 d.isLt (.cons _ _ 32 a.isLt (.cons _ _ 32 b.isLt (.cons _ _ 8 k.isLt (.cons _ _ 4 (fw_code_lt e) (.cons _ _ 2 (bool_lt keep) .nil)))))) rfl
theorem vfmin (d : VReg) (a : VReg) (b : VReg) (k : KReg) (e : Fw) (keep : Bool) : Statement (.vfmin d a b k e keep) :=
  statement_of rfl (.cons _ _ 32 d.isLt (.cons _ _ 32 a.isLt (.cons _ _ 32 b.isLt (.cons _ _ 8 k.isLt (.cons _ _ 4 (fw_code_lt e) (.cons _ _ 2 (bool_lt keep) .nil)))))) rfl
theorem vfmax (d : VReg) (a : VReg) (b : VReg) (k : KReg) (e : Fw) (keep : Bool) : Statement (.vfmax d a b k e keep) :=
  statement_of rfl (.cons _ _ 32 d.isLt (.cons _ _ 32 a.isLt (.cons _ _ 32 b.isLt (.cons _ _ 8 k.isLt (.cons _ _ 4 (fw_code_lt e) (.cons _ _ 2 (bool_lt keep) .nil)))))) rfl
theorem vfneg (d : VReg) (a : VReg) (k : KReg) (e : Fw) (keep : Bool) : Statement (.vfneg d a k e keep) :=
  statement_of rfl (.cons _ _ 32 d.isLt (.cons _ _ 32 a.isLt (.cons _ _ 8 k.isLt (.cons _ _ 4 (fw_code_lt e) (.cons _ _ 2 (bool_lt keep) .nil))))) rfl
theorem vfabs (d : VReg) (a : VReg) (k : KReg) (e : Fw) (keep : Bool) : Statement (.vfabs d a k e keep) :=
  statement_of rfl (.cons _ _ 32 d.isLt (.cons _ _ 32 a.isLt (.cons _ _ 8 k.isLt (.cons _ _ 4 (fw_code_lt e) (.cons _ _ 2 (bool_lt keep) .nil))))) rfl
theorem vfdiv (d : VReg) (a : VReg) (b : VReg) (k : KReg) (keep : Bool) : Statement (.vfdiv d a b k keep) :=
  statement_of rfl (.cons _ _ 32 d.isLt (.cons _ _ 32 a.isLt (.cons _ _ 32 b.isLt (.cons _ _ 8 k.isLt (.cons _ _ 2 (bool_lt keep) .nil))))) rfl
theorem vfsqrt (d : VReg) (a : VReg) (k : KReg) (keep : Bool) : Statement (.vfsqrt d a k keep) :=
  statement_of rfl (.cons _ _ 32 d.isLt (.cons _ _ 32 a.isLt (.cons _ _ 8 k.isLt (.cons _ _ 2 (bool_lt keep) .nil)))) rfl
theorem vfrcp (d : VReg) (a : VReg) (k : KReg) (keep : Bool) : Statement (.vfrcp d a k keep) :=
  statement_of rfl (.cons _ _ 32 d.isLt (.cons _ _ 32 a.isLt (.cons _ _ 8 k.isLt (.cons _ _ 2 (bool_lt keep) .nil)))) rfl
theorem vfrsq (d : VReg) (a : VReg) (k : KReg) (keep : Bool) : Statement (.vfrsq d a k keep) :=
  statement_of rfl (.cons _ _ 32 d.isLt (.cons _ _ 32 a.isLt (.cons _ _ 8 k.isLt (.cons _ _ 2 (bool_lt keep) .nil)))) rfl
theorem vfexp2 (d : VReg) (a : VReg) (k : KReg) (keep : Bool) : Statement (.vfexp2 d a k keep) :=
  statement_of rfl (.cons _ _ 32 d.isLt (.cons _ _ 32 a.isLt (.cons _ _ 8 k.isLt (.cons _ _ 2 (bool_lt keep) .nil)))) rfl
theorem vflog2 (d : VReg) (a : VReg) (k : KReg) (keep : Bool) : Statement (.vflog2 d a k keep) :=
  statement_of rfl (.cons _ _ 32 d.isLt (.cons _ _ 32 a.isLt (.cons _ _ 8 k.isLt (.cons _ _ 2 (bool_lt keep) .nil)))) rfl
theorem vftanh (d : VReg) (a : VReg) (k : KReg) (keep : Bool) : Statement (.vftanh d a k keep) :=
  statement_of rfl (.cons _ _ 32 d.isLt (.cons _ _ 32 a.isLt (.cons _ _ 8 k.isLt (.cons _ _ 2 (bool_lt keep) .nil)))) rfl
theorem vfsigm (d : VReg) (a : VReg) (k : KReg) (keep : Bool) : Statement (.vfsigm d a k keep) :=
  statement_of rfl (.cons _ _ 32 d.isLt (.cons _ _ 32 a.isLt (.cons _ _ 8 k.isLt (.cons _ _ 2 (bool_lt keep) .nil)))) rfl
theorem vcmpEq (d : KReg) (a : VReg) (b : VReg) (k : KReg) (e : Ew) (keep : Bool) : Statement (.vcmpEq d a b k e keep) :=
  statement_of rfl (.cons _ _ 8 d.isLt (.cons _ _ 32 a.isLt (.cons _ _ 32 b.isLt (.cons _ _ 8 k.isLt (.cons _ _ 4 (ew_code_lt e) (.cons _ _ 2 (bool_lt keep) .nil)))))) rfl
theorem vcmpNe (d : KReg) (a : VReg) (b : VReg) (k : KReg) (e : Ew) (keep : Bool) : Statement (.vcmpNe d a b k e keep) :=
  statement_of rfl (.cons _ _ 8 d.isLt (.cons _ _ 32 a.isLt (.cons _ _ 32 b.isLt (.cons _ _ 8 k.isLt (.cons _ _ 4 (ew_code_lt e) (.cons _ _ 2 (bool_lt keep) .nil)))))) rfl
theorem vcmpLt (d : KReg) (a : VReg) (b : VReg) (k : KReg) (e : Ew) (keep : Bool) : Statement (.vcmpLt d a b k e keep) :=
  statement_of rfl (.cons _ _ 8 d.isLt (.cons _ _ 32 a.isLt (.cons _ _ 32 b.isLt (.cons _ _ 8 k.isLt (.cons _ _ 4 (ew_code_lt e) (.cons _ _ 2 (bool_lt keep) .nil)))))) rfl
theorem vcmpLe (d : KReg) (a : VReg) (b : VReg) (k : KReg) (e : Ew) (keep : Bool) : Statement (.vcmpLe d a b k e keep) :=
  statement_of rfl (.cons _ _ 8 d.isLt (.cons _ _ 32 a.isLt (.cons _ _ 32 b.isLt (.cons _ _ 8 k.isLt (.cons _ _ 4 (ew_code_lt e) (.cons _ _ 2 (bool_lt keep) .nil)))))) rfl
theorem vfcmpEq (d : KReg) (a : VReg) (b : VReg) (k : KReg) (e : Fw) (keep : Bool) : Statement (.vfcmpEq d a b k e keep) :=
  statement_of rfl (.cons _ _ 8 d.isLt (.cons _ _ 32 a.isLt (.cons _ _ 32 b.isLt (.cons _ _ 8 k.isLt (.cons _ _ 4 (fw_code_lt e) (.cons _ _ 2 (bool_lt keep) .nil)))))) rfl
theorem vfcmpNe (d : KReg) (a : VReg) (b : VReg) (k : KReg) (e : Fw) (keep : Bool) : Statement (.vfcmpNe d a b k e keep) :=
  statement_of rfl (.cons _ _ 8 d.isLt (.cons _ _ 32 a.isLt (.cons _ _ 32 b.isLt (.cons _ _ 8 k.isLt (.cons _ _ 4 (fw_code_lt e) (.cons _ _ 2 (bool_lt keep) .nil)))))) rfl
theorem vfcmpLt (d : KReg) (a : VReg) (b : VReg) (k : KReg) (e : Fw) (keep : Bool) : Statement (.vfcmpLt d a b k e keep) :=
  statement_of rfl (.cons _ _ 8 d.isLt (.cons _ _ 32 a.isLt (.cons _ _ 32 b.isLt (.cons _ _ 8 k.isLt (.cons _ _ 4 (fw_code_lt e) (.cons _ _ 2 (bool_lt keep) .nil)))))) rfl
theorem vfcmpLe (d : KReg) (a : VReg) (b : VReg) (k : KReg) (e : Fw) (keep : Bool) : Statement (.vfcmpLe d a b k e keep) :=
  statement_of rfl (.cons _ _ 8 d.isLt (.cons _ _ 32 a.isLt (.cons _ _ 32 b.isLt (.cons _ _ 8 k.isLt (.cons _ _ 4 (fw_code_lt e) (.cons _ _ 2 (bool_lt keep) .nil)))))) rfl
theorem vsel (d : VReg) (a : VReg) (b : VReg) (k : KReg) (e : Ew) (keep : Bool) : Statement (.vsel d a b k e keep) :=
  statement_of rfl (.cons _ _ 32 d.isLt (.cons _ _ 32 a.isLt (.cons _ _ 32 b.isLt (.cons _ _ 8 k.isLt (.cons _ _ 4 (ew_code_lt e) (.cons _ _ 2 (bool_lt keep) .nil)))))) rfl
theorem vmov (d : VReg) (a : VReg) (k : KReg) (e : Ew) (keep : Bool) : Statement (.vmov d a k e keep) :=
  statement_of rfl (.cons _ _ 32 d.isLt (.cons _ _ 32 a.isLt (.cons _ _ 8 k.isLt (.cons _ _ 4 (ew_code_lt e) (.cons _ _ 2 (bool_lt keep) .nil))))) rfl
theorem kand (d : KReg) (a : KReg) (b : KReg) : Statement (.kand d a b) :=
  statement_of rfl (.cons _ _ 8 d.isLt (.cons _ _ 8 a.isLt (.cons _ _ 8 b.isLt .nil))) rfl
theorem kor (d : KReg) (a : KReg) (b : KReg) : Statement (.kor d a b) :=
  statement_of rfl (.cons _ _ 8 d.isLt (.cons _ _ 8 a.isLt (.cons _ _ 8 b.isLt .nil))) rfl
theorem kxor (d : KReg) (a : KReg) (b : KReg) : Statement (.kxor d a b) :=
  statement_of rfl (.cons _ _ 8 d.isLt (.cons _ _ 8 a.isLt (.cons _ _ 8 b.isLt .nil))) rfl
theorem kandn (d : KReg) (a : KReg) (b : KReg) : Statement (.kandn d a b) :=
  statement_of rfl (.cons _ _ 8 d.isLt (.cons _ _ 8 a.isLt (.cons _ _ 8 b.isLt .nil))) rfl
theorem knot (d : KReg) (a : KReg) : Statement (.knot d a) :=
  statement_of rfl (.cons _ _ 8 d.isLt (.cons _ _ 8 a.isLt .nil)) rfl
theorem kpop (d : XReg) (a : KReg) : Statement (.kpop d a) :=
  statement_of rfl (.cons _ _ 32 d.isLt (.cons _ _ 8 a.isLt .nil)) rfl
theorem kfirst (d : XReg) (a : KReg) : Statement (.kfirst d a) :=
  statement_of rfl (.cons _ _ 32 d.isLt (.cons _ _ 8 a.isLt .nil)) rfl
theorem kset (d : KReg) (a : XReg) : Statement (.kset d a) :=
  statement_of rfl (.cons _ _ 8 d.isLt (.cons _ _ 32 a.isLt .nil)) rfl
theorem vbcast (d : VReg) (b : XReg) (k : KReg) (e : Ew) : Statement (.vbcast d b k e) :=
  statement_of rfl (.cons _ _ 32 d.isLt (.cons _ _ 32 b.isLt (.cons _ _ 8 k.isLt (.cons _ _ 4 (ew_code_lt e) .nil)))) rfl
theorem vins (d : VReg) (a : XReg) (b : XReg) (e : Ew) : Statement (.vins d a b e) :=
  statement_of rfl (.cons _ _ 32 d.isLt (.cons _ _ 32 a.isLt (.cons _ _ 32 b.isLt (.cons _ _ 4 (ew_code_lt e) .nil)))) rfl
theorem vext (d : XReg) (a : VReg) (b : XReg) (e : Ew) (keep : Bool) : Statement (.vext d a b e keep) :=
  statement_of rfl (.cons _ _ 32 d.isLt (.cons _ _ 32 a.isLt (.cons _ _ 32 b.isLt (.cons _ _ 4 (ew_code_lt e) (.cons _ _ 2 (bool_lt keep) .nil))))) rfl
theorem vslide (d : VReg) (a : VReg) (b : XReg) (k : KReg) (e : Ew) (keep : Bool) : Statement (.vslide d a b k e keep) :=
  statement_of rfl (.cons _ _ 32 d.isLt (.cons _ _ 32 a.isLt (.cons _ _ 32 b.isLt (.cons _ _ 8 k.isLt (.cons _ _ 4 (ew_code_lt e) (.cons _ _ 2 (bool_lt keep) .nil)))))) rfl
theorem vperm (d : VReg) (a : VReg) (b : VReg) (k : KReg) (e : Ew) (keep : Bool) : Statement (.vperm d a b k e keep) :=
  statement_of rfl (.cons _ _ 32 d.isLt (.cons _ _ 32 a.isLt (.cons _ _ 32 b.isLt (.cons _ _ 8 k.isLt (.cons _ _ 4 (ew_code_lt e) (.cons _ _ 2 (bool_lt keep) .nil)))))) rfl
theorem vrot (d : VReg) (a : VReg) (b : XReg) (k : KReg) (e : Ew) (keep : Bool) : Statement (.vrot d a b k e keep) :=
  statement_of rfl (.cons _ _ 32 d.isLt (.cons _ _ 32 a.isLt (.cons _ _ 32 b.isLt (.cons _ _ 8 k.isLt (.cons _ _ 4 (ew_code_lt e) (.cons _ _ 2 (bool_lt keep) .nil)))))) rfl
theorem vzip (d : VReg) (a : VReg) (b : VReg) (k : KReg) (e : Ew) (keep : Bool) : Statement (.vzip d a b k e keep) :=
  statement_of rfl (.cons _ _ 32 d.isLt (.cons _ _ 32 a.isLt (.cons _ _ 32 b.isLt (.cons _ _ 8 k.isLt (.cons _ _ 4 (ew_code_lt e) (.cons _ _ 2 (bool_lt keep) .nil)))))) rfl
theorem vunzip (d : VReg) (a : VReg) (b : VReg) (k : KReg) (e : Ew) (keep : Bool) : Statement (.vunzip d a b k e keep) :=
  statement_of rfl (.cons _ _ 32 d.isLt (.cons _ _ 32 a.isLt (.cons _ _ 32 b.isLt (.cons _ _ 8 k.isLt (.cons _ _ 4 (ew_code_lt e) (.cons _ _ 2 (bool_lt keep) .nil)))))) rfl
theorem vrsum (d : VReg) (a : VReg) (k : KReg) (e : Ew) (keep : Bool) : Statement (.vrsum d a k e keep) :=
  statement_of rfl (.cons _ _ 32 d.isLt (.cons _ _ 32 a.isLt (.cons _ _ 8 k.isLt (.cons _ _ 4 (ew_code_lt e) (.cons _ _ 2 (bool_lt keep) .nil))))) rfl
theorem vrmax (d : VReg) (a : VReg) (k : KReg) (e : Ew) (keep : Bool) : Statement (.vrmax d a k e keep) :=
  statement_of rfl (.cons _ _ 32 d.isLt (.cons _ _ 32 a.isLt (.cons _ _ 8 k.isLt (.cons _ _ 4 (ew_code_lt e) (.cons _ _ 2 (bool_lt keep) .nil))))) rfl
theorem vrfmax (d : VReg) (a : VReg) (k : KReg) (e : Fw) (keep : Bool) : Statement (.vrfmax d a k e keep) :=
  statement_of rfl (.cons _ _ 32 d.isLt (.cons _ _ 32 a.isLt (.cons _ _ 8 k.isLt (.cons _ _ 4 (fw_code_lt e) (.cons _ _ 2 (bool_lt keep) .nil))))) rfl
theorem vrmin (d : VReg) (a : VReg) (k : KReg) (e : Ew) (keep : Bool) : Statement (.vrmin d a k e keep) :=
  statement_of rfl (.cons _ _ 32 d.isLt (.cons _ _ 32 a.isLt (.cons _ _ 8 k.isLt (.cons _ _ 4 (ew_code_lt e) (.cons _ _ 2 (bool_lt keep) .nil))))) rfl
theorem vrfmin (d : VReg) (a : VReg) (k : KReg) (e : Fw) (keep : Bool) : Statement (.vrfmin d a k e keep) :=
  statement_of rfl (.cons _ _ 32 d.isLt (.cons _ _ 32 a.isLt (.cons _ _ 8 k.isLt (.cons _ _ 4 (fw_code_lt e) (.cons _ _ 2 (bool_lt keep) .nil))))) rfl
theorem vrfsum (d : VReg) (a : VReg) (k : KReg) (e : Fw) (keep : Bool) : Statement (.vrfsum d a k e keep) :=
  statement_of rfl (.cons _ _ 32 d.isLt (.cons _ _ 32 a.isLt (.cons _ _ 8 k.isLt (.cons _ _ 4 (fw_code_lt e) (.cons _ _ 2 (bool_lt keep) .nil))))) rfl
theorem vcvt (d : VReg) (a : VReg) (src : Fmt) (dst : Fmt) (rm : Rm) (sat : Bool) (k : Fin 4) : Statement (.vcvt d a src dst rm sat k) :=
  statement_of rfl (.cons _ _ 32 d.isLt (.cons _ _ 32 a.isLt (.cons _ _ 16 (fmt_code_lt src) (.cons _ _ 16 (fmt_code_lt dst) (.cons _ _ 4 (rm_code_lt rm) (.cons _ _ 2 (bool_lt sat) (.cons _ _ 4 k.isLt .nil))))))) rfl
theorem vpack (d : VReg) (a : VReg) (nf : Fmt) (k : KReg) (e : Ew) (keep : Bool) : Statement (.vpack d a nf k e keep) :=
  statement_of rfl (.cons _ _ 32 d.isLt (.cons _ _ 32 a.isLt (.cons _ _ 16 (fmt_code_lt nf) (.cons _ _ 8 k.isLt (.cons _ _ 4 (ew_code_lt e) (.cons _ _ 2 (bool_lt keep) .nil)))))) rfl
theorem vunpk (d : VReg) (a : VReg) (nf : Fmt) (k : KReg) (e : Ew) (keep : Bool) : Statement (.vunpk d a nf k e keep) :=
  statement_of rfl (.cons _ _ 32 d.isLt (.cons _ _ 32 a.isLt (.cons _ _ 16 (fmt_code_lt nf) (.cons _ _ 8 k.isLt (.cons _ _ 4 (ew_code_lt e) (.cons _ _ 2 (bool_lt keep) .nil)))))) rfl
theorem vlut (d : VReg) (a : VReg) (b : VReg) (k : KReg) (e : Fw) (keep : Bool) : Statement (.vlut d a b k e keep) :=
  statement_of rfl (.cons _ _ 32 d.isLt (.cons _ _ 32 a.isLt (.cons _ _ 32 b.isLt (.cons _ _ 8 k.isLt (.cons _ _ 4 (fw_code_lt e) (.cons _ _ 2 (bool_lt keep) .nil)))))) rfl
theorem vscale (d : VReg) (a : VReg) (b : XReg) (k : KReg) (e : Fw) (keep : Bool) : Statement (.vscale d a b k e keep) :=
  statement_of rfl (.cons _ _ 32 d.isLt (.cons _ _ 32 a.isLt (.cons _ _ 32 b.isLt (.cons _ _ 8 k.isLt (.cons _ _ 4 (fw_code_lt e) (.cons _ _ 2 (bool_lt keep) .nil)))))) rfl
theorem vmovi (d : VReg) (i : BitVec 13) (k : KReg) (e : Ew) : Statement (.vmovi d i k e) :=
  statement_of rfl (.cons _ _ 32 d.isLt (.cons _ _ 8192 i.isLt (.cons _ _ 8 k.isLt (.cons _ _ 4 (ew_code_lt e) .nil)))) rfl
theorem mma (c : AccNo) (a : RingNo) (b : RingNo) (fa : Fmt) (fb : Fmt) (popA : Bool) (popB : Bool) (s : XReg) : Statement (.mma c a b fa fb popA popB s) :=
  statement_of rfl (.cons _ _ 4 c.isLt (.cons _ _ 8 a.isLt (.cons _ _ 8 b.isLt (.cons _ _ 16 (fmt_code_lt fa) (.cons _ _ 16 (fmt_code_lt fb) (.cons _ _ 2 (bool_lt popA) (.cons _ _ 2 (bool_lt popB) (.cons _ _ 32 s.isLt .nil)))))))) rfl
theorem mmasN6 (c : AccNo) (a : RingNo) (b : RingNo) (fa : Fmt) (fb : Fmt) (popA : Bool) (popB : Bool) (s : XReg) : Statement (.mmasN6 c a b fa fb popA popB s) :=
  statement_of rfl (.cons _ _ 4 c.isLt (.cons _ _ 8 a.isLt (.cons _ _ 8 b.isLt (.cons _ _ 16 (fmt_code_lt fa) (.cons _ _ 16 (fmt_code_lt fb) (.cons _ _ 2 (bool_lt popA) (.cons _ _ 2 (bool_lt popB) (.cons _ _ 32 s.isLt .nil)))))))) rfl
theorem mmasN8 (c : AccNo) (a : RingNo) (b : RingNo) (fa : Fmt) (fb : Fmt) (popA : Bool) (popB : Bool) (s : XReg) : Statement (.mmasN8 c a b fa fb popA popB s) :=
  statement_of rfl (.cons _ _ 4 c.isLt (.cons _ _ 8 a.isLt (.cons _ _ 8 b.isLt (.cons _ _ 16 (fmt_code_lt fa) (.cons _ _ 16 (fmt_code_lt fb) (.cons _ _ 2 (bool_lt popA) (.cons _ _ 2 (bool_lt popB) (.cons _ _ 32 s.isLt .nil)))))))) rfl
theorem mmasN12 (c : AccNo) (a : RingNo) (b : RingNo) (fa : Fmt) (fb : Fmt) (popA : Bool) (popB : Bool) (s : XReg) : Statement (.mmasN12 c a b fa fb popA popB s) :=
  statement_of rfl (.cons _ _ 4 c.isLt (.cons _ _ 8 a.isLt (.cons _ _ 8 b.isLt (.cons _ _ 16 (fmt_code_lt fa) (.cons _ _ 16 (fmt_code_lt fb) (.cons _ _ 2 (bool_lt popA) (.cons _ _ 2 (bool_lt popB) (.cons _ _ 32 s.isLt .nil)))))))) rfl
theorem mzero (c : AccNo) : Statement (.mzero c) :=
  statement_of rfl (.cons _ _ 4 c.isLt .nil) rfl
theorem mdrain (c : AccNo) (v : VReg) (tf : Fmt) (rm : Rm) (sat : Bool) (row : Fin 32) : Statement (.mdrain c v tf rm sat row) :=
  statement_of rfl (.cons _ _ 4 c.isLt (.cons _ _ 32 v.isLt (.cons _ _ 16 (fmt_code_lt tf) (.cons _ _ 4 (rm_code_lt rm) (.cons _ _ 2 (bool_lt sat) (.cons _ _ 32 row.isLt .nil)))))) rfl
theorem mdrains (c : AccNo) (a : XReg) (tf : Fmt) (rm : Rm) (sat : Bool) (row : Fin 32) : Statement (.mdrains c a tf rm sat row) :=
  statement_of rfl (.cons _ _ 4 c.isLt (.cons _ _ 32 a.isLt (.cons _ _ 16 (fmt_code_lt tf) (.cons _ _ 4 (rm_code_lt rm) (.cons _ _ 2 (bool_lt sat) (.cons _ _ 32 row.isLt .nil)))))) rfl
theorem mchainSend (c : AccNo) (rows : Fin 32) (row : Fin 32) : Statement (.mchainSend c rows row) :=
  statement_of rfl (.cons _ _ 4 c.isLt (.cons _ _ 32 rows.isLt (.cons _ _ 32 row.isLt .nil))) rfl
theorem mchainRecv (c : AccNo) (rows : Fin 32) (int : Bool) (row : Fin 32) : Statement (.mchainRecv c rows int row) :=
  statement_of rfl (.cons _ _ 4 c.isLt (.cons _ _ 32 rows.isLt (.cons _ _ 2 (bool_lt int) (.cons _ _ 32 row.isLt .nil)))) rfl
theorem mchainRelay (c : AccNo) (rows : Fin 32) (int : Bool) (row : Fin 32) : Statement (.mchainRelay c rows int row) :=
  statement_of rfl (.cons _ _ 4 c.isLt (.cons _ _ 32 rows.isLt (.cons _ _ 2 (bool_lt int) (.cons _ _ 32 row.isLt .nil)))) rfl
theorem mcbk (r : RingNo) (a : XReg) : Statement (.mcbk r a) :=
  statement_of rfl (.cons _ _ 8 r.isLt (.cons _ _ 32 a.isLt .nil)) rfl
theorem mrset (r : RingNo) (a : XReg) : Statement (.mrset r a) :=
  statement_of rfl (.cons _ _ 8 r.isLt (.cons _ _ 32 a.isLt .nil)) rfl
theorem mradv (r : RingNo) (a : XReg) : Statement (.mradv r a) :=
  statement_of rfl (.cons _ _ 8 r.isLt (.cons _ _ 32 a.isLt .nil)) rfl
theorem mrstat (r : RingNo) (d : XReg) : Statement (.mrstat r d) :=
  statement_of rfl (.cons _ _ 8 r.isLt (.cons _ _ 32 d.isLt .nil)) rfl
theorem mwait : Statement (.mwait) :=
  statement_of rfl .nil rfl
theorem mseq (d : XReg) : Statement (.mseq d) :=
  statement_of rfl (.cons _ _ 32 d.isLt .nil) rfl
theorem macc (c : AccNo) (int : Bool) (s : AccNo) : Statement (.macc c int s) :=
  statement_of rfl (.cons _ _ 4 c.isLt (.cons _ _ 2 (bool_lt int) (.cons _ _ 4 s.isLt .nil))) rfl
theorem resultLand (h : Nat) : Statement (.resultLand h) := statement_none rfl
theorem variableResultLand (h : Nat) : Statement (.variableResultLand h) := statement_none rfl
theorem shadowReland (h : Nat) : Statement (.shadowReland h) := statement_none rfl
theorem vectorPartBind (t : Nat) : Statement (.vectorPartBind t) := statement_none rfl
theorem seqCommandStart (t : Nat) : Statement (.seqCommandStart t) := statement_none rfl
theorem mmaRetire (t : Nat) : Statement (.mmaRetire t) := statement_none rfl
theorem mzeroRetire (t : Nat) : Statement (.mzeroRetire t) := statement_none rfl
theorem maccRetire (t : Nat) : Statement (.maccRetire t) := statement_none rfl
theorem mdrainRetire (t : Nat) : Statement (.mdrainRetire t) := statement_none rfl
theorem mdrainsRetire (t : Nat) : Statement (.mdrainsRetire t) := statement_none rfl
theorem chainSendDone (t : Nat) : Statement (.chainSendDone t) := statement_none rfl
theorem chainMessageArrival (t : Nat) : Statement (.chainMessageArrival t) := statement_none rfl
theorem chainReceiveRetire (t : Nat) : Statement (.chainReceiveRetire t) := statement_none rfl
theorem ringstarved (t : Nat) : Statement (.ringstarved t) := statement_none rfl
theorem streamFetch (h : Nat) (p : PortNo) : Statement (.streamFetch h p) := statement_none rfl
theorem streamWrite (h : Nat) (p : PortNo) : Statement (.streamWrite h p) := statement_none rfl
theorem ringTileAdvance (h : Nat) (p : PortNo) : Statement (.ringTileAdvance h p) := statement_none rfl
theorem streamCloseDone (h : Nat) (p : PortNo) : Statement (.streamCloseDone h p) := statement_none rfl
theorem copyTransferStart (u : Nat) (c : ChanNo) : Statement (.copyTransferStart u c) := statement_none rfl
theorem copyTransferComplete (u : Nat) (c : ChanNo) (id : Nat) (remote : Nat) : Statement (.copyTransferComplete u c id remote) := statement_none rfl
theorem putqDelivery (remote : Nat) : Statement (.putqDelivery remote) := statement_none rfl
theorem chipLinkArrival (kind : LinkKind) (spkg : Nat) (sctx : Nat) (addr : Word) (data : List Byte) : Statement (.chipLinkArrival kind spkg sctx addr data) := statement_none rfl
theorem enginePageFault (u : EngineUnit) : Statement (.enginePageFault u) := statement_none rfl
theorem engineReplay (u : EngineUnit) (refuse : Bool) : Statement (.engineReplay u refuse) := statement_none rfl
theorem translationFill (h : Nat) (va : Word) (k : AccKind) : Statement (.translationFill h va k) := statement_none rfl
theorem barrierCompletion (t : Nat) (lv : Level) : Statement (.barrierCompletion t lv) := statement_none rfl
theorem consistForm (t : Nat) : Statement (.consistForm t) := statement_none rfl
theorem consistResume (t : Nat) : Statement (.consistResume t) := statement_none rfl
theorem trapEntry (h : Nat) : Statement (.trapEntry h) := statement_none rfl
theorem faultRecordWrite (i : Nat) : Statement (.faultRecordWrite i) := statement_none rfl
theorem kickInterrupt (t : Nat) (v : Word) : Statement (.kickInterrupt t v) := statement_none rfl
theorem kickRestart (t : Nat) (v : Word) : Statement (.kickRestart t v) := statement_none rfl
theorem breakpointTableLoad (t : Nat) : Statement (.breakpointTableLoad t) := statement_none rfl
theorem engineFreeze (t : Nat) : Statement (.engineFreeze t) := statement_none rfl
theorem engineFrozen (t : Nat) : Statement (.engineFrozen t) := statement_none rfl
theorem engineUnfreeze (t : Nat) : Statement (.engineUnfreeze t) := statement_none rfl
theorem switchArm (p : Nat) (v : Word) : Statement (.switchArm p v) := statement_none rfl
theorem switchStop (p : Nat) : Statement (.switchStop p) := statement_none rfl
theorem switchSave (t : Nat) : Statement (.switchSave t) := statement_none rfl
theorem switchRestore (t : Nat) : Statement (.switchRestore t) := statement_none rfl
theorem notifyWrite (q : Nat) (v : Word) : Statement (.notifyWrite q v) := statement_none rfl
theorem yardAdmit : Statement (.yardAdmit) := statement_none rfl
theorem yardPriorityAge (q : Nat) : Statement (.yardPriorityAge q) := statement_none rfl
theorem yardIdleRelease (q : Nat) : Statement (.yardIdleRelease q) := statement_none rfl
theorem packetTake (q : Nat) : Statement (.packetTake q) := statement_none rfl
theorem signalBoxEvent : Statement .signalBoxEvent := statement_none rfl
theorem launchPlace (l : Nat) : Statement (.launchPlace l) := statement_none rfl
theorem monitorEntry (t : Nat) : Statement (.monitorEntry t) := statement_none rfl
theorem eretStart : Statement (.eretStart) := statement_none rfl
theorem launchCompletion (l : Nat) : Statement (.launchCompletion l) := statement_none rfl
theorem endRequest (v : Word) : Statement (.endRequest v) := statement_none rfl
theorem launchEndDone (l : Nat) : Statement (.launchEndDone l) := statement_none rfl
theorem queueRegister (q : Nat) : Statement (.queueRegister q) := statement_none rfl
theorem queueRemove (q : Nat) : Statement (.queueRemove q) := statement_none rfl
theorem contextRegister (c : Nat) : Statement (.contextRegister c) := statement_none rfl
theorem contextUnregister (c : Nat) : Statement (.contextUnregister c) := statement_none rfl
theorem partitionWrite (p : Nat) (off : Nat) (size : Nat) (v : Word) : Statement (.partitionWrite p off size v) := statement_none rfl
theorem handlePost : Statement .handlePost := statement_none rfl
theorem recallDeadline (f : Nat) : Statement (.recallDeadline f) := statement_none rfl
theorem recallDrainDone (f : Nat) : Statement (.recallDrainDone f) := statement_none rfl
theorem rootWrite (pa : Nat) (size : Nat) (v : Word) : Statement (.rootWrite pa size v) := statement_none rfl
theorem eventFrameWrite (kn : Kernel) (byMonitor : Bool) (off : Nat) (size : Nat) (v : Word) : Statement (.eventFrameWrite kn byMonitor off size v) := statement_none rfl
theorem keyRegenerate (k : Nat) : Statement (.keyRegenerate k) := statement_none rfl
theorem pkgnumWrite (v : Word) : Statement (.pkgnumWrite v) := statement_none rfl
theorem hubRegisterWrite (pa : Nat) (size : Nat) (v : Word) : Statement (.hubRegisterWrite pa size v) := statement_none rfl
theorem dmaWrite (port : Nat) (va : Word) (data : List Byte) : Statement (.dmaWrite port va data) := statement_none rfl
theorem dmaRead (port : Nat) (va : Word) (n : Nat) : Statement (.dmaRead port va n) := statement_none rfl
theorem correctedError (u : ErrUnit) : Statement (.correctedError u) := statement_none rfl
theorem linkRetrainDone (link : Nat) : Statement (.linkRetrainDone link) := statement_none rfl
theorem uncorrectableError (g : Nat) : Statement (.uncorrectableError g) := statement_none rfl
theorem tileRemap (t : Nat) : Statement (.tileRemap t) := statement_none rfl
theorem patrolScrub (g : Nat) : Statement (.patrolScrub g) := statement_none rfl
theorem watchdogBeat : Statement (.watchdogBeat) := statement_none rfl
theorem watchdogPeriodWrite (v : Word) : Statement (.watchdogPeriodWrite v) := statement_none rfl
theorem watchdogExpiry : Statement (.watchdogExpiry) := statement_none rfl
theorem residentAdopt : Statement (.residentAdopt) := statement_none rfl
theorem residentResume : Statement (.residentResume) := statement_none rfl
theorem extentAdd (port : Nat) (frame : Nat) (n : Nat) (block : Nat) (shared : Bool) : Statement (.extentAdd port frame n block shared) := statement_none rfl
theorem extentRelease (frame : Nat) (n : Nat) : Statement (.extentRelease frame n) := statement_none rfl
theorem coldReset : Statement (.coldReset) := statement_none rfl
theorem warmReset : Statement (.warmReset) := statement_none rfl
theorem bootTimeout : Statement (.bootTimeout) := statement_none rfl
theorem bootokWrite : Statement (.bootokWrite) := statement_none rfl
theorem mctpControl (data : List Byte) : Statement (.mctpControl data) := statement_none rfl
theorem sidebandOtherMessage (ty : Nat) : Statement (.sidebandOtherMessage ty) := statement_none rfl
theorem getVersion : Statement (.getVersion) := statement_none rfl
theorem getCapabilities : Statement (.getCapabilities) := statement_none rfl
theorem negotiateAlgorithms : Statement (.negotiateAlgorithms) := statement_none rfl
theorem getDigests : Statement (.getDigests) := statement_none rfl
theorem getCertificate : Statement (.getCertificate) := statement_none rfl
theorem challenge : Statement (.challenge) := statement_none rfl
theorem getMeasurements (n : Nat) : Statement (.getMeasurements n) := statement_none rfl
theorem sensorThreshold (die : Nat) (idx : Nat) (e : SensorEvent) : Statement (.sensorThreshold die idx e) := statement_none rfl
theorem thermalClockStep (die : Nat) : Statement (.thermalClockStep die) := statement_none rfl
theorem heartbeatSend (link : Nat) : Statement (.heartbeatSend link) := statement_none rfl
theorem linkdown (link : Nat) : Statement (.linkdown link) := statement_none rfl
theorem freezeFlitArrival (tag : Nat) : Statement (.freezeFlitArrival tag) := statement_none rfl
theorem heartbeatArrival (link : Nat) : Statement (.heartbeatArrival link) := statement_none rfl
theorem rowSpareDone (tile : Nat) (row : Nat) : Statement (.rowSpareDone tile row) := statement_none rfl
theorem hbmRepairDone (stack : Nat) (bank : Nat) (row : Nat) : Statement (.hbmRepairDone stack bank row) := statement_none rfl
theorem handlePostLost : Statement .handlePostLost := statement_none rfl

end Sys2Proof.Laws.Encoding
end

