-- ==== Sys2Proof/Tests/Slice0.lean ====
section
/-! SUPPORT. Tests of the model against the manual: the words of its encoding tables, ill-formed terms, single steps on
small states with results worked out by hand from the rules, and states that meet the hypotheses of the statements. -/

open Sys2Proof Sys2Proof.Machine

namespace Sys2Proof.Tests

set_option maxRecDepth 100000
set_option Elab.async false

/-! ## Words, written out from the fields of their encoding (R35 to R45) -/

theorem test_decode_scalar_1 :
    decodeWord 0b00_0_000000_01000_01101_10010_00000000 = .ok (.add 8 13 18) ∧
    decodeWord 0b00_0_000000_01111_10100_11001_00000001 = .ok (.sub 15 20 25) ∧
    decodeWord 0b00_0_000000_10110_11011_00001_00000010 = .ok (.and 22 27 1) ∧
    decodeWord 0b00_0_000000_11101_00010_00111_00000011 = .ok (.or 29 2 7) ∧
    decodeWord 0b00_0_000000_00100_01001_01110_00000100 = .ok (.xor 4 9 14) ∧
    decodeWord 0b00_0_000000_01011_10000_10101_00000101 = .ok (.andn 11 16 21) ∧
    decodeWord 0b00_0_000000_10010_10111_11100_00000110 = .ok (.sll 18 23 28) ∧
    decodeWord 0b00_0_000000_11001_11110_00011_00000111 = .ok (.srl 25 30 3) ∧
    decodeWord 0b00_0_000000_00001_00101_01010_00001000 = .ok (.sra 1 5 10) ∧
    decodeWord 0b00_0_000000_00111_01100_10001_00001001 = .ok (.rol 7 12 17) ∧
    decodeWord 0b00_0_000000_01110_10011_11000_00001010 = .ok (.slt 14 19 24) ∧
    decodeWord 0b00_0_000000_10101_11010_11111_00001011 = .ok (.sltu 21 26 31) ∧
    decodeWord 0b00_0_000000_11100_00001_00110_00001100 = .ok (.min 28 1 6) := by decide
theorem test_decode_scalar_2 :
    decodeWord 0b00_0_000000_00011_01000_01101_00001101 = .ok (.max 3 8 13) ∧
    decodeWord 0b00_0_000000_01010_01111_10100_00001110 = .ok (.minu 10 15 20) ∧
    decodeWord 0b00_0_000000_10001_10110_11011_00001111 = .ok (.maxu 17 22 27) ∧
    decodeWord 0b00_0_000000_11000_11101_0000000010000 = .ok (.clz 24 29) ∧
    decodeWord 0b00_0_000000_11111_00100_0000000010001 = .ok (.ctz 31 4) ∧
    decodeWord 0b00_0_000000_00110_01011_0000000010010 = .ok (.popc 6 11) ∧
    decodeWord 0b00_0_000000_01101_10010_10111_00010011 = .ok (.sel 13 18 23) ∧
    decodeWord 0b00_0_000001_10100_11001_11110_00000000 = .ok (.mul 20 25 30) ∧
    decodeWord 0b00_0_000001_11011_00001_00101_00000001 = .ok (.mulh 27 1 5) ∧
    decodeWord 0b00_0_000001_00010_00111_01100_00000010 = .ok (.mulhu 2 7 12) ∧
    decodeWord 0b00_0_000001_01001_01110_10011_00000011 = .ok (.div 9 14 19) ∧
    decodeWord 0b00_0_000001_10000_10101_11010_00000100 = .ok (.divu 16 21 26) ∧
    decodeWord 0b00_0_000001_10111_11100_00001_00000101 = .ok (.rem 23 28 1) := by decide
theorem test_decode_scalar_3 :
    decodeWord 0b00_0_000001_11110_00011_01000_00000110 = .ok (.remu 30 3 8) ∧
    decodeWord 0b00_0_000010_00101_01010_01111_00000_100 = .ok (.lea 5 10 15 4) ∧
    decodeWord 0b00_0_000011_01100_10001_0_000111_111000 = .ok (.bfx 12 17 7 56) ∧
    decodeWord 0b00_0_000100_10011_11000_0_000111_111000 = .ok (.bfi 19 24 7 56) ∧
    decodeWord 0b00_0_000101_11010_11111_00100_00000000 = .ok (.faddS 26 31 4) ∧
    decodeWord 0b00_0_000101_00001_00110_01011_00000001 = .ok (.fsubS 1 6 11) ∧
    decodeWord 0b00_0_000101_01000_01101_10010_00000010 = .ok (.fmulS 8 13 18) ∧
    decodeWord 0b00_0_000101_01111_10100_11001_00000011 = .ok (.fminS 15 20 25) ∧
    decodeWord 0b00_0_000101_10110_11011_00001_00000100 = .ok (.fmaxS 22 27 1) ∧
    decodeWord 0b00_0_000101_11101_00010_0000000000101 = .ok (.fcvtSW 29 2) ∧
    decodeWord 0b00_0_000101_00100_01001_0000000000110 = .ok (.fcvtWS 4 9) ∧
    decodeWord 0b00_0_000101_01011_10000_10101_00000111 = .ok (.feqS 11 16 21) ∧
    decodeWord 0b00_0_000101_10010_10111_11100_00001000 = .ok (.fltS 18 23 28) := by decide
theorem test_decode_scalar_4 :
    decodeWord 0b00_0_000101_11001_11110_00011_00001001 = .ok (.fleS 25 30 3) ∧
    decodeWord 0b00_0_000101_00001_00101_01010_00001010 = .ok (.fmaS 1 5 10) ∧
    decodeWord 0b00_0_000101_00111_01100_0000000001011 = .ok (.fcvtSBf 7 12) ∧
    decodeWord 0b00_0_000101_01110_10011_0000000001100 = .ok (.fcvtBfS 14 19) ∧
    decodeWord 0b00_0_001000_10101_11010_0000000110001 = .ok (.addi 21 26 49) ∧
    decodeWord 0b00_0_001001_11100_00001_1111111010000 = .ok (.andi 28 1 (-48)) ∧
    decodeWord 0b00_0_001010_00011_01000_0000000110011 = .ok (.ori 3 8 51) ∧
    decodeWord 0b00_0_001011_01010_01111_1111111001110 = .ok (.xori 10 15 (-50)) ∧
    decodeWord 0b00_0_001100_10001_10110_0000000_011011 = .ok (.slli 17 22 27) ∧
    decodeWord 0b00_0_001101_11000_11101_0000000_100010 = .ok (.srli 24 29 34) ∧
    decodeWord 0b00_0_001110_11111_00100_0000000_101001 = .ok (.srai 31 4 41) ∧
    decodeWord 0b00_0_001111_00110_01011_1111111001010 = .ok (.slti 6 11 (-54)) ∧
    decodeWord 0b00_0_010000_01101_000000000000111001 = .ok (.lui 13 57) := by decide
theorem test_decode_scalar_5 :
    decodeWord 0b00_0_010001_10100_111111111111001000 = .ok (.luih 20 (-56)) ∧
    decodeWord 0b00_0_010100_11011_00001_0000000111011 = .ok (.beq 27 1 59) ∧
    decodeWord 0b00_0_010101_00010_00111_1111111000110 = .ok (.bne 2 7 (-58)) ∧
    decodeWord 0b00_0_010110_01001_01110_0000000111101 = .ok (.blt 9 14 61) ∧
    decodeWord 0b00_0_010111_10000_10101_1111111000100 = .ok (.bge 16 21 (-60)) ∧
    decodeWord 0b00_0_011000_10111_11100_0000000111111 = .ok (.bltu 23 28 63) ∧
    decodeWord 0b00_0_011001_11110_00011_1111111000010 = .ok (.bgeu 30 3 (-62)) ∧
    decodeWord 0b00_0_011010_00101_000000000001000001 = .ok (.jal 5 65) ∧
    decodeWord 0b00_0_011011_01100_10001_1111111000000 = .ok (.jalr 12 17 (-64)) ∧
    decodeWord 0b00_0_011100_10011_00000_0000001000011 = .ok (.loop 19 67) ∧
    decodeWord 0b00_0_01110100_010_00000_1111110111110 = .ok (.beos 2 (-66)) ∧
    decodeWord 0b00_0_10000000000_00001_0000000000000 = .ok (.trap 1) ∧
    decodeWord 0b00_0_10000000000000000000000000001 = .ok (.eret) := by decide
theorem test_decode_scalar_6 :
    decodeWord 0b00_0_10000000000_01111_0000000000010 = .ok (.wfe 15) ∧
    decodeWord 0b00_0_10000000000000000000000000011 = .ok (.yield) ∧
    decodeWord 0b00_0_10000000000000000000000000100 = .ok (.halt) ∧
    decodeWord 0b00_0_10000000000000000000000000101 = .ok (.brk) ∧
    decodeWord 0b00_0_100000_01011_10000_10101_00000111 = .ok (.scall 11 16 21) ∧
    decodeWord 0b00_0_100001_10010_000000_001100000010 = .ok (.mfc 18 770) ∧
    decodeWord 0b00_0_10001000000_11001_0_001100000010 = .ok (.mtc 25 770) := by decide
theorem test_decode_memory_1 :
    decodeWord 0b01_0_000000_00001_00101_1111110110100 = .ok (.lb 1 5 (-76)) ∧
    decodeWord 0b01_0_000001_00111_01100_0000001001111 = .ok (.lbu 7 12 79) ∧
    decodeWord 0b01_0_000010_01110_10011_1111110110010 = .ok (.lh 14 19 (-78)) ∧
    decodeWord 0b01_0_000011_10101_11010_0000001010001 = .ok (.lhu 21 26 81) ∧
    decodeWord 0b01_0_000100_11100_00001_1111110110000 = .ok (.lw 28 1 (-80)) ∧
    decodeWord 0b01_0_000101_00011_01000_0000001010011 = .ok (.lwu 3 8 83) ∧
    decodeWord 0b01_0_000110_01010_01111_1111110101110 = .ok (.ld 10 15 (-82)) ∧
    decodeWord 0b01_0_001000_10001_10110_0000001010101 = .ok (.sb 17 22 85) ∧
    decodeWord 0b01_0_001001_11000_11101_1111110101100 = .ok (.sh 24 29 (-84)) ∧
    decodeWord 0b01_0_001010_11111_00100_0000001010111 = .ok (.sw 31 4 87) ∧
    decodeWord 0b01_0_001011_00110_01011_1111110101010 = .ok (.sd 6 11 (-86)) ∧
    decodeWord 0b01_0_001100_01101_10010_0000001011001 = .ok (.vld 13 18 89) ∧
    decodeWord 0b01_0_001101_10100_11001_1111110101000 = .ok (.vst 20 25 (-88)) := by decide
theorem test_decode_memory_2 :
    decodeWord 0b01_0_001110_00011_00001_00101_010_1_0_000 = .ok (.vlds 3 1 5 2 false) ∧
    decodeWord 0b01_0_001111_01010_00111_01100_001_1_1_000 = .ok (.vsts 10 7 12 1 true) ∧
    decodeWord 0b01_0_010000_10001_01110_00011_001_1_0_000 = .ok (.vgth 17 14 3 1 false) ∧
    decodeWord 0b01_0_010001_00001_10101_01010_111_1_1_000 = .ok (.vsct 1 21 10 7 true) ∧
    decodeWord 0b01_0_010010_10111_11100_00000_100_0100_0 = .ok (.lda 23 28 .sc .die false) ∧
    decodeWord 0b01_0_01001100000_11110_00011_010_0101_1 = .ok (.stl 30 3 .rel .device true) ∧
    decodeWord 0b01_0_010100_00101_01010_01111_001_0111_1 = .ok (.amoadd 5 10 15 .acq .system true) ∧
    decodeWord 0b01_0_010101_01100_10001_10110_010_1000_0 = .ok (.amoand 12 17 22 .rel .fabric false) ∧
    decodeWord 0b01_0_010110_10011_11000_11101_011_0000_1 = .ok (.amoor 19 24 29 .ar .strand true) ∧
    decodeWord 0b01_0_010111_11010_11111_00100_100_0001_0 = .ok (.amoxor 26 31 4 .sc .tile false) ∧
    decodeWord 0b01_0_011000_00001_00110_01011_000_0010_1 = .ok (.amomin 1 6 11 .rlx .consist true) ∧
    decodeWord 0b01_0_011001_01000_01101_10010_001_0011_0 = .ok (.amomax 8 13 18 .acq .domain false) ∧
    decodeWord 0b01_0_011010_01111_10100_11001_010_0100_1 = .ok (.amominu 15 20 25 .rel .die true) := by decide
theorem test_decode_memory_3 :
    decodeWord 0b01_0_011011_10110_11011_00001_011_0101_0 = .ok (.amomaxu 22 27 1 .ar .device false) ∧
    decodeWord 0b01_0_011100_11101_00010_00111_100_0110_1 = .ok (.amoswap 29 2 7 .sc .package true) ∧
    decodeWord 0b01_0_011101_00100_01001_01110_000_0111_0 = .ok (.amocas 4 9 14 .rlx .system false) ∧
    decodeWord 0b01_0_011110000000000000000_001_0011_0 = .ok (.fence .acq .domain) ∧
    decodeWord 0b01_0_011111_10010_10111_11100_00_100001 = .ok (.putq 18 23 28 33) ∧
    decodeWord 0b01_0_10000000_001_11110_0000000000000 = .ok (.qcfg 1 30) ∧
    decodeWord 0b01_0_100001_00001_00_101_0000000000000 = .ok (.qget 1 5) ∧
    decodeWord 0b01_0_10001000_111_01100_0000000000000 = .ok (.qput 7 12) ∧
    decodeWord 0b01_0_10001100_110_000000000000000000 = .ok (.qclose 6) ∧
    decodeWord 0b01_0_100100_10101_00_010_0000000000_111 = .ok (.qstat 21 2 7) ∧
    decodeWord 0b01_0_100101000_01_00010_000000000_0010 = .ok (.cpyset 1 2 .len0) ∧
    decodeWord 0b01_0_100101000_11_000000000000001010 = .ok (.cpysetClrerr 3) ∧
    decodeWord 0b01_0_100110_01010_01111_000_01_00000000 = .ok (.cpygo 10 15 1) := by decide
theorem test_decode_memory_4 :
    decodeWord 0b01_0_100111000_01_10110_0000000000000 = .ok (.cpywait 1 22) ∧
    decodeWord 0b01_0_101000_11000_00000000_01_00000_001 = .ok (.cpystat 24 1 .nextid) ∧
    decodeWord 0b01_0_101001_11111_000000000000_00_0000 = .ok (.bar 31 .tile) ∧
    decodeWord 0b01_0_10100100000_00110_0000000_01_0001 = .ok (.barw 6 .consist) ∧
    decodeWord 0b01_0_101001_01101_000000000000_10_0010 = .ok (.phase 13 .group) ∧
    decodeWord 0b01_0_10100100000_10100_0000000000011 = .ok (.couple 20) ∧
    decodeWord 0b01_0_10100100000000000000000000100 = .ok (.uncouple) ∧
    decodeWord 0b01_0_101010_00010_00111_00000000_1_0000 = .ok (.inbx 2 7 true) ∧
    decodeWord 0b01_0_101010_11110_01110_0000000000001 = .ok (.jnext 30 14) ∧
    decodeWord 0b01_0_101010_10000_10101_0000000000010 = .ok (.larm 16 21) ∧
    decodeWord 0b01_0_101010_10111_11100_0000000000011 = .ok (.gdisp 23 28) ∧
    decodeWord 0b01_0_101010_11110_00011_00000000_1_0100 = .ok (.gjoin 30 3 true) ∧
    decodeWord 0b01_0_101010_00101_01010_01111_000_1_0101 = .ok (.sigw 5 10 15 true) := by decide
theorem test_decode_memory_5 :
    decodeWord 0b01_0_10101000000_01100_10001_000_1_0110 = .ok (.sigs 12 17 true) ∧
    decodeWord 0b01_0_101011_10011_11000_11101_00000000 = .ok (.hnew 19 24 29) ∧
    decodeWord 0b01_0_101011_11010_11111_0000000000001 = .ok (.hcopy 26 31) ∧
    decodeWord 0b01_0_10101100000_00001_0000000000010 = .ok (.hdrop 1) ∧
    decodeWord 0b01_0_101011_01000_01101_10010_00000011 = .ok (.hbind 8 13 18) ∧
    decodeWord 0b01_0_101011_01111_10100_0000000000100 = .ok (.hquery 15 20) ∧
    decodeWord 0b01_0_101100_10110_11011_00001_00000000 = .ok (.foffer 22 27 1) ∧
    decodeWord 0b01_0_101100_11101_00010_00111_00000001 = .ok (.faccept 29 2 7) ∧
    decodeWord 0b01_0_101100_00100_01001_01110_00000010 = .ok (.flend 4 9 14) ∧
    decodeWord 0b01_0_101100_01011_10000_10101_00000011 = .ok (.frecall 11 16 21) ∧
    decodeWord 0b01_0_101100_10010_10111_0000000000100 = .ok (.frelease 18 23) ∧
    decodeWord 0b01_0_101100_11110_11110_0000000000101 = .ok (.fquery 30 30) ∧
    decodeWord 0b01_0_101101_00101_00101_01010_00_10_0000 = .ok (.tlbi .device 5 10 .page) := by decide
theorem test_decode_memory_6 :
    decodeWord 0b01_0_10110100000_00111_01100_00000001 = .ok (.flush 7 12) ∧
    decodeWord 0b01_0_10110100000_01110_10011_00000010 = .ok (.inval 14 19) := by decide
theorem test_decode_vector_1 :
    decodeWord 0b10_0_000000_10101_00010_00111_100_01_1_00 = .ok (.vadd 21 2 7 4 .h16 true) ∧
    decodeWord 0b10_0_000000_00100_01001_01110_011_10_0_01 = .ok (.vsub 4 9 14 3 .w32 false) ∧
    decodeWord 0b10_0_000000_01011_10000_10101_010_11_1_10 = .ok (.vmul 11 16 21 2 .d64 true) ∧
    decodeWord 0b10_0_000000_10010_10111_00100_001_00_0_11 = .ok (.vmulh 18 23 4 1 .b8 false) ∧
    decodeWord 0b10_0_000001_00001_00110_01011_010_01_1_00 = .ok (.vmin 1 6 11 2 .h16 true) ∧
    decodeWord 0b10_0_000001_01000_01101_10010_111_10_0_01 = .ok (.vmax 8 13 18 7 .w32 false) ∧
    decodeWord 0b10_0_000001_01111_10100_00001_110_11_1_10 = .ok (.vminu 15 20 1 6 .d64 true) ∧
    decodeWord 0b10_0_000001_10110_00011_01000_101_00_0_11 = .ok (.vmaxu 22 3 8 5 .b8 false) ∧
    decodeWord 0b10_0_000010_00101_01010_01111_100_01_1_00 = .ok (.vand 5 10 15 4 .h16 true) ∧
    decodeWord 0b10_0_000010_01100_10001_10110_011_10_0_01 = .ok (.vor 12 17 22 3 .w32 false) ∧
    decodeWord 0b10_0_000010_10011_00001_00101_010_11_1_10 = .ok (.vxor 19 1 5 2 .d64 true) ∧
    decodeWord 0b10_0_000010_00010_00111_01100_001_00_0_11 = .ok (.vandn 2 7 12 1 .b8 false) ∧
    decodeWord 0b10_0_000011_01001_01110_10011_001_01_1_00 = .ok (.vsll 9 14 19 1 .h16 true) := by decide
theorem test_decode_vector_2 :
    decodeWord 0b10_0_000011_10000_10101_00010_111_10_0_01 = .ok (.vsrl 16 21 2 7 .w32 false) ∧
    decodeWord 0b10_0_000011_10111_00100_01001_110_11_1_10 = .ok (.vsra 23 4 9 6 .d64 true) ∧
    decodeWord 0b10_0_000011_00110_01011_10000_101_00_0_11 = .ok (.vrol 6 11 16 5 .b8 false) ∧
    decodeWord 0b10_0_000100_01101_10010_10111_100_01_1_00 = .ok (.vsadd 13 18 23 4 .h16 true) ∧
    decodeWord 0b10_0_000100_10100_00001_00110_011_10_0_01 = .ok (.vssub 20 1 6 3 .w32 false) ∧
    decodeWord 0b10_0_000100_00011_01000_01101_010_11_1_10 = .ok (.vavg 3 8 13 2 .d64 true) ∧
    decodeWord 0b10_0_000100_01010_01111_00000_100_11_1_11 = .ok (.vabs 10 15 4 .d64 true) ∧
    decodeWord 0b10_0_000101_10001_10110_00011_001_00_1_00 = .ok (.vfadd 17 22 3 1 .fp32 true) ∧
    decodeWord 0b10_0_000101_00001_00101_01010_111_01_0_01 = .ok (.vfsub 1 5 10 7 .bf16 false) ∧
    decodeWord 0b10_0_000101_00111_01100_10001_110_10_1_10 = .ok (.vfmul 7 12 17 6 .fp16 true) ∧
    decodeWord 0b10_0_000101_01110_10011_00001_101_00_0_11 = .ok (.vfabd 14 19 1 5 .fp32 false) ∧
    decodeWord 0b10_0_000110_10101_00010_00111_100_01_1_00 = .ok (.vfma 21 2 7 4 .bf16 true) ∧
    decodeWord 0b10_0_000110_00100_01001_01110_011_10_0_01 = .ok (.vfms 4 9 14 3 .fp16 false) := by decide
theorem test_decode_vector_3 :
    decodeWord 0b10_0_000110_01011_10000_10101_010_00_1_10 = .ok (.vfnma 11 16 21 2 .fp32 true) ∧
    decodeWord 0b10_0_000110_10010_10111_00100_001_01_0_11 = .ok (.vfnms 18 23 4 1 .bf16 false) ∧
    decodeWord 0b10_0_000111_00001_00110_01011_010_10_1_00 = .ok (.vfmin 1 6 11 2 .fp16 true) ∧
    decodeWord 0b10_0_000111_01000_01101_10010_111_00_0_01 = .ok (.vfmax 8 13 18 7 .fp32 false) ∧
    decodeWord 0b10_0_000111_01111_10100_00000_001_00_0_10 = .ok (.vfneg 15 20 1 .fp32 false) ∧
    decodeWord 0b10_0_000111_10110_00011_00000_001_01_1_11 = .ok (.vfabs 22 3 1 .bf16 true) ∧
    decodeWord 0b10_0_001000_00101_01010_01111_100_00_0_00 = .ok (.vfdiv 5 10 15 4 false) ∧
    decodeWord 0b10_0_001000_01100_10001_00000_110_00_0_01 = .ok (.vfsqrt 12 17 6 false) ∧
    decodeWord 0b10_0_001000_10011_00001_00000_101_00_1_10 = .ok (.vfrcp 19 1 5 true) ∧
    decodeWord 0b10_0_001000_00010_00111_00000_100_00_0_11 = .ok (.vfrsq 2 7 4 false) ∧
    decodeWord 0b10_0_001001_01001_01110_00000_011_00_1_00 = .ok (.vfexp2 9 14 3 true) ∧
    decodeWord 0b10_0_001001_10000_10101_00000_010_00_0_01 = .ok (.vflog2 16 21 2 false) ∧
    decodeWord 0b10_0_001001_10111_00100_00000_001_00_1_10 = .ok (.vftanh 23 4 1 true) := by decide
theorem test_decode_vector_4 :
    decodeWord 0b10_0_001001_00110_01011_00000_001_00_0_11 = .ok (.vfsigm 6 11 1 false) ∧
    decodeWord 0b10_0_00101000_101_10010_10111_100_01_1_00 = .ok (.vcmpEq 5 18 23 4 .h16 true) ∧
    decodeWord 0b10_0_00101000_100_00001_00110_011_10_0_01 = .ok (.vcmpNe 4 1 6 3 .w32 false) ∧
    decodeWord 0b10_0_00101000_011_01000_01101_010_11_1_10 = .ok (.vcmpLt 3 8 13 2 .d64 true) ∧
    decodeWord 0b10_0_00101000_010_01111_10100_001_00_0_11 = .ok (.vcmpLe 2 15 20 1 .b8 false) ∧
    decodeWord 0b10_0_00101100_001_10110_00011_010_00_1_00 = .ok (.vfcmpEq 1 22 3 2 .fp32 true) ∧
    decodeWord 0b10_0_00101100_001_00101_01010_111_01_0_01 = .ok (.vfcmpNe 1 5 10 7 .bf16 false) ∧
    decodeWord 0b10_0_00101100_111_01100_10001_110_10_1_10 = .ok (.vfcmpLt 7 12 17 6 .fp16 true) ∧
    decodeWord 0b10_0_00101100_110_10011_00001_101_00_0_11 = .ok (.vfcmpLe 6 19 1 5 .fp32 false) ∧
    decodeWord 0b10_0_001100_10101_00010_00111_100_01_1_00 = .ok (.vsel 21 2 7 4 .h16 true) ∧
    decodeWord 0b10_0_001100_00100_01001_00000_110_01_1_01 = .ok (.vmov 4 9 6 .h16 true) ∧
    decodeWord 0b10_0_00110100_011_00_001_00_101_00000000 = .ok (.kand 3 1 5) ∧
    decodeWord 0b10_0_00110100_010_00_111_00_100_00000001 = .ok (.kor 2 7 4) := by decide
theorem test_decode_vector_5 :
    decodeWord 0b10_0_00110100_001_00_110_00_011_00000010 = .ok (.kxor 1 6 3) ∧
    decodeWord 0b10_0_00110100_001_00_101_00_010_00000011 = .ok (.kandn 1 5 2) ∧
    decodeWord 0b10_0_00111000_111_00_100_0000000000000 = .ok (.knot 7 4) ∧
    decodeWord 0b10_0_001110_10110_00_011_0000000000001 = .ok (.kpop 22 3) ∧
    decodeWord 0b10_0_001110_11101_00_010_0000000000010 = .ok (.kfirst 29 2) ∧
    decodeWord 0b10_0_00111000_100_01001_0000000000011 = .ok (.kset 4 9) ∧
    decodeWord 0b10_0_001111_10011_00000_10000_101_10_000 = .ok (.vbcast 19 16 5 .w32) ∧
    decodeWord 0b10_0_001111_00010_10111_11100_000_11_001 = .ok (.vins 2 23 28 .d64) ∧
    decodeWord 0b10_0_001111_11001_01110_00011_000_00_0_10 = .ok (.vext 25 14 3 .b8 false) ∧
    decodeWord 0b10_0_001111_10000_10101_01010_111_10_0_11 = .ok (.vslide 16 21 10 7 .w32 false) ∧
    decodeWord 0b10_0_010000_10111_00100_01001_110_11_1_00 = .ok (.vperm 23 4 9 6 .d64 true) ∧
    decodeWord 0b10_0_010000_00110_01011_11000_101_00_0_01 = .ok (.vrot 6 11 24 5 .b8 false) ∧
    decodeWord 0b10_0_010000_01101_10010_10111_100_01_1_10 = .ok (.vzip 13 18 23 4 .h16 true) := by decide
theorem test_decode_vector_6 :
    decodeWord 0b10_0_010000_10100_00001_00110_011_10_0_11 = .ok (.vunzip 20 1 6 3 .w32 false) ∧
    decodeWord 0b10_0_010001_00011_01000_00000_101_10_0_00 = .ok (.vrsum 3 8 5 .w32 false) ∧
    decodeWord 0b10_0_010001_01010_01111_00000_100_11_1_01 = .ok (.vrmax 10 15 4 .d64 true) ∧
    decodeWord 0b10_0_010001_10001_10110_00001_011_10_0_01 = .ok (.vrfmax 17 22 3 .fp16 false) ∧
    decodeWord 0b10_0_010001_00001_00101_00000_010_01_1_10 = .ok (.vrmin 1 5 2 .h16 true) ∧
    decodeWord 0b10_0_010001_00111_01100_00001_001_01_0_10 = .ok (.vrfmin 7 12 1 .bf16 false) ∧
    decodeWord 0b10_0_010001_01110_10011_00000_001_10_1_11 = .ok (.vrfsum 14 19 1 .fp16 true) ∧
    decodeWord 0b10_0_010010_10101_00010_0001_0100_01_1_11 = .ok (.vcvt 21 2 .bf16 .e4m3 .rtz true 3) ∧
    decodeWord 0b10_0_010011_00100_01001_0_1100_011_10_0_00 = .ok (.vpack 4 9 .i4 3 .w32 false) ∧
    decodeWord 0b10_0_010011_01011_10000_0_1010_010_10_1_01 = .ok (.vunpk 11 16 .i8 2 .w32 true) ∧
    decodeWord 0b10_0_010100_10010_10111_00100_001_01_0_00 = .ok (.vlut 18 23 4 1 .bf16 false) ∧
    decodeWord 0b10_0_010101_00001_00110_10011_010_10_1_00 = .ok (.vscale 1 6 19 2 .fp16 true) ∧
    decodeWord 0b10_0_010110_01000_1111100100100_010_01 = .ok (.vmovi 8 (-220) 2 .h16) := by decide
theorem test_decode_matrix_1 :
    decodeWord 0b11_0_000000_11_100_001_1110_1111_1_0_11010 = .ok (.mma 3 4 1 .i2 .t2 true false 26) ∧
    decodeWord 0b11_0_000001_10_011_001_1111_0000_0_1_00100 = .ok (.mmasN6 2 3 1 .t2 .fp32 false true 4) ∧
    decodeWord 0b11_0_000010_01_010_111_0000_0001_1_0_01000 = .ok (.mmasN8 1 2 7 .fp32 .bf16 true false 8) ∧
    decodeWord 0b11_0_000011_01_010_110_0001_0010_0_1_01111 = .ok (.mmasN12 1 2 6 .bf16 .fp16 false true 15) ∧
    decodeWord 0b11_0_000100_11_000000000000000000000 = .ok (.mzero 3) ∧
    decodeWord 0b11_0_000101_10_00111_0001_11_1_10011_0000 = .ok (.mdrain 2 7 .bf16 .rdn true 19) ∧
    decodeWord 0b11_0_000110_01_00110_0101_00_0_11010_0000 = .ok (.mdrains 1 6 .e3m2 .rne false 26) ∧
    decodeWord 0b11_0_000111_01_00110_0000000_11001_0000 = .ok (.mchainSend 1 6 25) ∧
    decodeWord 0b11_0_000111_11_00110_010_0_000_11001_0000 = .ok (.mchainRecv 3 6 false 25) ∧
    decodeWord 0b11_0_000111_10_00110_100_1_000_11001_0000 = .ok (.mchainRelay 2 6 true 25) ∧
    decodeWord 0b11_0_00100000_101_0000000000000_00010 = .ok (.mcbk 5 2) ∧
    decodeWord 0b11_0_00100100_100_0000000000000_01001 = .ok (.mrset 4 9) ∧
    decodeWord 0b11_0_00101000_011_0000000000000_10000 = .ok (.mradv 3 16) := by decide
theorem test_decode_matrix_2 :
    decodeWord 0b11_0_00101100_010_0000000000000_10111 = .ok (.mrstat 2 23) ∧
    decodeWord 0b11_0_00110000000000000000000000000 = .ok (.mwait) ∧
    decodeWord 0b11_0_001101000000000000000000_00001 = .ok (.mseq 1) ∧
    decodeWord 0b11_0_001110_11_1_01_000000000000000000 = .ok (.macc 3 true 1) := by decide

/-! ## Ill-formed terms, one for each check of WellFormed -/

/-- R116: a field must end at bit 63 at the latest. -/
theorem test_wf_bit_fields : (Instr.bfx 1 2 63 1).wellFormed = false ∧ (Instr.bfi 1 2 7 57).wellFormed = false := by decide
/-- R123: the body of a loop ends after the LOOP. -/
theorem test_wf_loop : (Instr.loop 1 0).wellFormed = false ∧ (Instr.loop 1 (-1)).wellFormed = false := by decide
/-- R143, R146: the orders that a word may name. -/
theorem test_wf_orders : (Instr.lda 1 2 .rel .tile true).wellFormed = false ∧ (Instr.stl 1 2 .acq .tile true).wellFormed = false
    ∧ (Instr.fence .rlx .tile).wellFormed = false := by decide
/-- R280, R314: a pair of registers neither of which is x0. -/
theorem test_wf_pairs : (Instr.jnext 0 2).wellFormed = false ∧ (Instr.jnext 31 2).wellFormed = false
    ∧ (Instr.fquery 0 2).wellFormed = false ∧ (Instr.fquery 31 2).wellFormed = false := by decide
/-- R367: HCOPY names two registers, neither of them x0. -/
theorem test_wf_hcopy : (Instr.hcopy 3 3).wellFormed = false ∧ (Instr.hcopy 0 3).wellFormed = false
    ∧ (Instr.hcopy 3 0).wellFormed = false := by decide
/-- R304: registers that a TLBI does not use are x0. -/
theorem test_wf_tlbi : (Instr.tlbi .core 1 0 .all).wellFormed = false ∧ (Instr.tlbi .core 0 1 .all).wellFormed = false
    ∧ (Instr.tlbi .core 1 2 .asn).wellFormed = false := by decide
/-- R77: a word that reads vd does not name a port there. -/
theorem test_wf_vd_port : (Instr.vfma 24 1 2 0 .fp32 false).wellFormed = false ∧ (Instr.vfms 31 1 2 0 .fp32 false).wellFormed = false
    ∧ (Instr.vfnma 24 1 2 0 .fp32 false).wellFormed = false ∧ (Instr.vfnms 24 1 2 0 .fp32 false).wellFormed = false
    ∧ (Instr.vsel 24 1 2 0 .b8 false).wellFormed = false ∧ (Instr.vins 24 1 2 .b8).wellFormed = false
    ∧ (Instr.vslide 24 1 2 0 .b8 false).wellFormed = false := by decide
/-- R105, R165, R183: LUT4 is no format to convert from or to, nor to drain to. -/
theorem test_wf_lut4 : (Instr.vcvt 1 2 .lut4 .fp32 .rne false 0).wellFormed = false
    ∧ (Instr.vcvt 1 2 .fp32 .lut4 .rne false 0).wellFormed = false ∧ (Instr.mdrain 0 1 .lut4 .rne false 0).wellFormed = false
    ∧ (Instr.mdrains 0 1 .lut4 .rne false 0).wellFormed = false := by decide
/-- R166: a narrow integer format, narrower than the elements. -/
theorem test_wf_pack : (Instr.vpack 1 2 .fp16 0 .w32 false).wellFormed = false ∧ (Instr.vpack 1 2 .i16 0 .h16 false).wellFormed = false
    ∧ (Instr.vunpk 1 2 .e4m3 0 .w32 false).wellFormed = false ∧ (Instr.vunpk 1 2 .i8 0 .b8 false).wellFormed = false := by decide
/-- R174: the two rings of an MMA differ. -/
theorem test_wf_rings : (Instr.mma 0 1 1 .fp16 .fp16 false false 0).wellFormed = false
    ∧ (Instr.mmasN6 0 1 1 .fp16 .fp16 false false 0).wellFormed = false
    ∧ (Instr.mmasN8 0 1 1 .fp16 .fp16 false false 0).wellFormed = false
    ∧ (Instr.mmasN12 0 1 1 .fp16 .fp16 false false 0).wellFormed = false := by decide
/-- R189: the rows of a chain message lie within the accumulator. -/
theorem test_wf_chain : (Instr.mchainSend 0 31 1).wellFormed = false ∧ (Instr.mchainRecv 0 7 false 25).wellFormed = false
    ∧ (Instr.mchainRelay 0 0 false 31).wellFormed = true ∧ (Instr.mchainRelay 0 1 false 31).wellFormed = false := by decide
/-- spec/95: a step of the package is no word. -/
theorem test_wf_package : (Instr.bootTimeout).wellFormed = false := by decide

/-! ## One step on a small state -/

/-- Strand 0 of tile 0 at USER, at an address that the tests choose. -/
def strand : State := { State.reset with harts := [(0, { pc := 0x1000, priv := .user })] }
/-- Core 0 of profile G at KERNEL. -/
def core : State := { State.reset with cur := 2048, harts := [(2048, { pc := 0x1000, priv := .system, tvec := 0x8000 })] }
/-- Core 0 at USER, with a page for its handler frame below x2. -/
def trapping : State :=
  { State.reset with
    cur := 2048
    harts := [(2048, { pc := 0x1000, tvec := 0x8000, x := (Vector.replicate 32 0).set 2 0x2000 })]
    tlb := [⟨2000, .host, 0, true, 0, 16, 0x10000, true, true, true, false, none⟩] }
/-- A state whose moving strand or core holds these values. -/
def holding (s : State) (vs : List (XReg × Word)) : State := s.mapMe (fun x => vs.foldl (fun x v => x.wx v.1 v.2) x)

def after {α : Type} (o : Out) (f : State → α) : Option α :=
  match o with
  | .next t => some (f t)
  | _ => none
/-- The result that a word has put on its way, with its latency. -/
def sent (o : Out) : Option (Landing × Nat) := (after o (fun t => t.me.flight.getLast?.map (fun f => (f.land, f.lat)))).join
/-- The result that is on its way to x3. -/
def x3 (o : Out) : Option Word := (sent o).bind (fun l => match l.1 with | .x r v => if r = 3 then some v else none | _ => none)

/-- R114: xa + xb modulo 2^64. -/
theorem test_add_wraps : x3 (exec (.add 3 1 2) (holding core [(1, 0xFFFFFFFFFFFFFFFF), (2, 2)])) = some 1 := by decide
/-- R114: an arithmetic shift keeps the sign, and only six bits of the count are read. -/
theorem test_sra_sign : x3 (exec (.sra 3 1 2) (holding core [(1, 0x8000000000000000), (2, 0x44)])) = some 0xF800000000000000 := by decide
/-- R114: SEL reads the old xd. -/
theorem test_sel_reads_destination : x3 (exec (.sel 3 1 2) (holding core [(1, 5), (2, 7), (3, 1)])) = some 5 := by decide
theorem test_clz_zero : x3 (exec (.clz 3 1) core) = some 64 := by decide
/-- R115: the high half of (−1) × (−1) is 0. -/
theorem test_mulh_signed : x3 (exec (.mulh 3 1 1) (holding core [(1, 0xFFFFFFFFFFFFFFFF)])) = some 0 := by decide
/-- R115: the corners of division. -/
theorem test_div_by_zero : x3 (exec (.div 3 1 2) (holding core [(1, 9)])) = some 0xFFFFFFFFFFFFFFFF := by decide
theorem test_div_overflow :
    x3 (exec (.div 3 1 2) (holding core [(1, 0x8000000000000000), (2, 0xFFFFFFFFFFFFFFFF)])) = some 0x8000000000000000 := by decide
theorem test_rem_sign : x3 (exec (.rem 3 1 2) (holding core [(1, 0xFFFFFFFFFFFFFFF9), (2, 2)])) = some 0xFFFFFFFFFFFFFFFF := by decide
/-- R116: fields at bit 4, and the last bit of the register. -/
theorem test_bfx_middle : x3 (exec (.bfx 3 1 7 4) (holding core [(1, 0xABCD)])) = some 0xBC := by decide
theorem test_bfi_top : x3 (exec (.bfi 3 1 0 63) (holding core [(1, 1), (3, 5)])) = some 0x8000000000000005 := by decide
/-- R117, R118: immediates are read as two's complement. -/
theorem test_addi_negative : x3 (exec (.addi 3 1 0x1FFF) (holding core [(1, 1)])) = some 0 := by decide
theorem test_lui_sign : x3 (exec (.lui 3 0x20000) core) = some 0xFFFFFFFFC0000000 := by decide
/-- R51: x0 discards its result. -/
theorem test_x0_discards : after (exec (.addi 0 0 1) core) (fun t => t.me.rx 0) = some 0 := by decide

/-- R119: 1.5 + 2.25 = 3.75 is exact. -/
theorem test_fadd_exact : x3 (exec (.faddS 3 1 2) (holding core [(1, 0x3FC00000), (2, 0x40100000)])) = some 0x40700000 := by decide
/-- R119, R98: a NaN converts to 0 with NV, the flag of bit 0. -/
theorem test_fcvt_nan :
    after (exec (.fcvtWS 3 1) (holding core [(1, 0x7FC00000)])) (fun t => t.me.flight.map (fun f => (f.land, f.fl))) = some [(.x 3 0, 1)] := by decide

/-- R120, R39: a branch is counted in bundles from its own. -/
theorem test_beq_back : after (exec (.beq 1 2 0x1FFE) core) (fun t => (t.me.pc, t.me.w1)) = some (0xFF0, false) := by decide
theorem test_bltu_unsigned : after (exec (.bltu 1 2 4) (holding core [(1, 0xFFFFFFFFFFFFFFFF)])) (fun t => t.me.pc) = some 0x1000 := by decide
/-- R121: JAL links the next bundle. -/
theorem test_jal_links : after (exec (.jal 3 4) core) (fun t => (t.me.flight.map (·.land), t.me.pc)) = some ([.x 3 0x1008], 0x1020) := by decide
/-- R123: a level from the next bundle to the last. -/
theorem test_loop_pushes : after (exec (.loop 1 2) (holding core [(1, 5)])) (fun t => t.me.loopsH) = some [⟨0x1008, 0x1010, 5⟩] := by decide
/-- R127, R321: TRAP enters at the vector with its cause, its TVAL and its place. -/
theorem test_trap_enters : after (exec (.trap 1) (holding trapping [(1, 77)]))
    (fun t => (t.me.tcause, t.me.tval, t.me.tpc, t.me.pc)) = some (0x40, 77, 0x1000, 0x8000) := by decide
theorem test_trap_privilege : after (exec (.trap 1) trapping)
    (fun t => (t.me.priv, t.me.tstatus)) = some (.system, 0) := by decide
/-- R324: above USER with RE clear it freezes with DOUBLE. -/
theorem test_trap_nested : after (exec .brk core) (fun t => (t.me.run, t.me.tcause)) = some (.frozen .nested, 0x50) := by decide
/-- R128, R325: ERET returns to TPC at the privilege of TSTATUS. -/
theorem test_eret_returns : after (exec .eret { core with harts := [(2048, { priv := .system, tpc := 0x4008, tstatus := 4 })] })
    (fun t => (t.me.pc, t.me.w1, t.me.priv)) = some (0x4008, true, .user) := by decide
/-- R48: a word of profile T on profile G. -/
theorem test_vadd_on_profile_g : after (exec (.vadd 1 2 3 0 .w32 false) trapping)
    (fun t => t.me.tcause) = some 0x01 := by decide
/-- R53, R132: FRM keeps two bits. -/
theorem test_mtc_frm : after (exec (.mtc 1 0x301) (holding core [(1, 7)])) (fun t => t.me.frm) = some 3 := by decide
theorem test_mfc_tile : sent (exec (.mfc 3 0x001) { strand with cur := 36 }) = some (.x 3 9, 1) := by decide
/-- R58: the latency of a multiply. -/
theorem test_mul_latency : sent (exec (.mul 3 1 1) (holding strand [(1, 3)])) = some (.x 3 9, 3) := by decide

/-- The local alias (R133). -/
def aliased : State := holding strand [(1, BitVec.ofNat 64 aliasBase), (2, 0x80FF)]
/-- R134: SH stores two bytes, the lower first. -/
theorem test_sh_bytes : after (exec (.sh 2 1 4) aliased) (fun t => t.myTile.scratch) = some [(4, 0xFF), (5, 0x80)] := by decide
/-- R134: LH extends the sign. -/
theorem test_lh_extends : sent (exec (.lh 3 1 4) (aliased.setMyTile { aliased.myTile with scratch := [(4, 0xFF), (5, 0x80)] }))
    = some (.x 3 0xFFFFFFFFFFFF80FF, 4) := by decide
/-- R135: an unaligned word. -/
theorem test_lw_unaligned : after (exec (.lw 3 1 2) aliased) (fun t => (t.me.tcause, t.me.tval))
    = some (0x50, 0x18) := by decide
/-- R145: AMOADD returns the old value with its sign. -/
theorem test_amoadd_old : after (exec (.amoadd 3 1 2 .rlx .tile false) (aliased.setMyTile { aliased.myTile with scratch := [(3, 0x80)] }))
    (fun t => (t.myTile.scratch, t.me.flight.map (·.land))) = some ([(0, 0xFF), (1, 0x80), (3, 0x80)], [.x 3 0xFFFFFFFF80000000]) := by decide

/-- A strand with two vector registers and a mask. -/
def vectors : State :=
  strand.setHart 0 { strand.me with v := (strand.me.v.set 1 0x800001FF).set 2 0x0201, k := strand.me.k.set 1 2 }
/-- R155, R151: element 1 is 1 + 2, and of the first 64 elements the mask of k1 lets it alone pass. -/
theorem test_vadd_masked : (sent (exec (.vadd 3 1 2 1 .b8 false) vectors)).map (fun l => match l with
    | (.v r v m, n) => (r, elem v 8 1, m.setWidth 512, n)
    | _ => (0, 0, 0, 0)) = some (3, 3, 0xFF00, 2) := by decide
/-- R158: 0x800001FF is negative. -/
theorem test_vcmp_signed : sent (exec (.vcmpLt 4 1 2 0 .w32 false) vectors) = some (.k 4 1, 2) := by decide
/-- R159: KPOP and KFIRST of k1. -/
theorem test_kpop : sent (exec (.kpop 3 1) vectors) = some (.x 3 1, 2) := by decide
theorem test_kfirst : sent (exec (.kfirst 3 1) vectors) = some (.x 3 1, 2) := by decide
/-- R163: VEXT extends nothing. -/
theorem test_vext : sent (exec (.vext 3 1 0 .b8 false) vectors) = some (.x 3 0xFF, 3) := by decide
/-- R75: a class X word of a strand that does not own the unit. -/
theorem test_matrix_owner : after (exec .mwait (strand.setMyTile { strand.myTile with owner := 1 })) (fun t => t.me.tcause) = some 0x50 := by decide
/-- R171: a command takes its strand's sequence number. -/
theorem test_mzero_enters : after (exec (.mzero 2) strand) (fun t => (t.myTile.cmds.length, t.me.seq)) = some (1, 1) := by decide
/-- R261: BAR gives the number of the arrival. -/
theorem test_bar_arrives : after (exec (.bar 3 .tile) strand) (fun t => (t.me.flight.map (·.land), t.me.arrivals[0])) = some ([.x 3 1], 1) := by
  decide
/-- R203: CPYSET writes one shadow register. -/
theorem test_cpyset : after (exec (.cpyset 1 1 .len0) (holding core [(1, 64)])) (fun t => (t.chan 512 1).shadow[2]) = some 64 := by decide
/-- R30: a step fetches the word placed at the pc and runs it. -/
theorem test_step_runs : after (step (State.reset.withFetchWord 32 0b00_1_001000_00011_00001_0000000000101))
    (fun t => ((t.hart 0).rx 3, (t.hart 0).w1)) = some (5, true) := by decide

/-! ## States that meet the hypotheses of the statements -/

/-- An access in the local alias that passes every check. -/
theorem reaches_alias (s : State) (k : AccKind) (va : Word) (n align off : Nat)
    (h : (va.toNat % align = 0 ∧ s.pathBusy = false ∧ (s.tile (tileOf s.cur)).lockBars (tileOf s.cur) va.toNat n (k == .store || k == .atomic) = false)
      ∧ isT s.cur = true ∧ va.toNat = aliasBase + off ∧ off + n ≤ scratchSize) :
    s.reaches k va n align (.scratch (tileOf s.cur) off) :=
  ⟨h.1.1, h.1.2.1, fun _ => h.1.2.2, .inl ⟨h.2.1, off, h.2.2.1, h.2.2.2, rfl⟩⟩

/-- An access by a translation that is cached. -/
theorem reaches_page (s : State) (k : AccKind) (va : Word) (n align : Nat) (e : TlbEntry)
    (h : isT s.cur = false ∧ va.toNat % align = 0 ∧ s.pathBusy = false ∧ va.toNat % 0x10000 + n ≤ 0x10000 ∧ va.toNat < 2 ^ 48
      ∧ s.tlb.find? (fun e => e.hits (s.requester s.cur s.me.priv).unit (s.requester s.cur s.me.priv) va.toNat s.dtime) = some e
      ∧ permits e.r e.w e.x k = true ∧ (e.k && (s.requester s.cur s.me.priv).user) = false) :
    s.reaches k va n align (.phys (e.pa + va.toNat % 2 ^ e.sz)) := by
  obtain ⟨h1, h2, h3, h4, h5, h6, h7, h8⟩ := h
  have n1 : ¬ isT s.cur = true := by simp [h1]
  exact ⟨h2, h3, fun h => absurd h n1, .inr ⟨h4, .inr ⟨h5, fun h => absurd h n1, e, h6, h7, h8, rfl⟩⟩⟩

/-- Strand 0 of a fixed-mode tile, at USER, with this bundle at the start of its scratchpad. -/
def placed (w0 w1 : Nat) (second : Bool) : State :=
  { State.reset with
    harts := [(0, { pc := BitVec.ofNat 64 aliasBase, priv := .user, w1 := second })]
    tiles := [(0, { scratch := memWrite [] 0 (leBytes 4 w0 ++ leBytes 4 w1) })] }

theorem mayIssue_of {s : State} {h : Nat} (d : (s.hart h).run = .running ∧ (s.hart h).bubble = 0 ∧ (s.hart h).late = []
      ∧ (s.hart h).step = none ∧ (s.hart h).irqs = [] ∧ (s.hart h).ereting = false
      ∧ h % 4 = 0 ∧ (s.tile (tileOf h)).presence = .present ∧ (s.tile (tileOf h)).shared = false ∧ (s.tile (tileOf h)).csize ≤ 1) :
    s.mayIssue h :=
  ⟨d.1, d.2.1, d.2.2.1, d.2.2.2.1, d.2.2.2.2.1, d.2.2.2.2.2.1, fun _ => d.2.2.2.2.2.2⟩

theorem unheld_of {s : State} {h w0 w1 : Nat} {is : List Instr}
    (d : s.breakHit h (!lBit w0) = none ∧ s.notOwner h w0 w1 = false ∧ ∀ i ∈ is, ∀ r ∈ reads i ++ writes i, s.pendingReg h r = false) :
    s.unheld h w0 w1 is := ⟨d.1, fun _ => d.2.1, d.2.2⟩

/-- The words of the witnesses below: ADD x3, x1, x2 with L set and clear, and VADD.w32 v1, v2, v3, k4. -/
def wAdd1 : Nat := 0b00_1_000000_00011_00001_00010_00000000
def wAdd : Nat := 0b00_0_000000_00011_00001_00010_00000000
def wVadd : Nat := 0b10_0_000000_00001_00010_00011_100_10_0_00

/-- The state in which the words of a bundle placed so run. -/
def ran (w0 w1 : Nat) (second : Bool) : State := ((((placed w0 w1 second).progress 0).at 0).fetch 0).2

/-- O1: word 0 of a split bundle. -/
theorem witness_step_word0 : let s := placed wAdd1 wAdd false
    s.agenda = [] ∧ s.power = .on ∧ isCore s.cur = true ∧ (s.progress 0).mayIssue 0 ∧
    ((s.progress 0).at 0).fetch 0 = (.ok (wAdd1, wAdd), ran wAdd1 wAdd false) ∧
    ((s.progress 0).hart 0).w1 = false ∧ lBit wAdd1 = true ∧ lBit wAdd = false ∧
    (ran wAdd1 wAdd false).available 0 wAdd1 (.add 3 1 2) ∧ (ran wAdd1 wAdd false).available 0 wAdd (.add 3 1 2) ∧
    (ran wAdd1 wAdd false).unheld 0 wAdd1 wAdd [.add 3 1 2] := by
  refine ⟨rfl, rfl, by decide, mayIssue_of (by decide), Prod.ext (by decide) rfl, by decide, by decide, by decide, ⟨by decide, by decide⟩,
    ⟨by decide, by decide⟩, unheld_of (by decide)⟩

/-- O1: word 1 of a split bundle. -/
theorem witness_step_word1 : let s := (placed wAdd1 wAdd true).progress 0
    s.mayIssue 0 ∧ (s.at 0).fetch 0 = (.ok (wAdd1, wAdd), ran wAdd1 wAdd true) ∧ (s.hart 0).w1 = true ∧
    (ran wAdd1 wAdd true).available 0 wAdd (.add 3 1 2) ∧ (ran wAdd1 wAdd true).unheld 0 wAdd1 wAdd [.add 3 1 2] := by
  refine ⟨mayIssue_of (by decide), Prod.ext (by decide) rfl, by decide, ⟨by decide, by decide⟩, unheld_of (by decide)⟩

/-- What ADD leaves in the paired bundle. -/
def ranAdd : State :=
  let s := ran wAdd wVadd false
  (after (exec (.add 3 1 2) { s with issue := { s.issue with raw := wAdd, w1 := false, paired := true } }) id).getD s

/-- O1: a paired bundle. -/
theorem witness_step_paired : let s := (placed wAdd wVadd false).progress 0
    let t := ran wAdd wVadd false
    s.mayIssue 0 ∧ (s.at 0).fetch 0 = (.ok (wAdd, wVadd), t) ∧ (s.hart 0).w1 = false ∧ lBit wAdd = false ∧ lBit wVadd = false ∧
      classOf wAdd < 2 ∧ 2 ≤ classOf wVadd ∧ shareDestination wAdd wVadd = false ∧
      t.available 0 wAdd (.add 3 1 2) ∧ t.available 0 wVadd (.vadd 1 2 3 4 .w32 false) ∧
      t.unheld 0 wAdd wVadd [.add 3 1 2, .vadd 1 2 3 4 .w32 false] := by
  refine ⟨mayIssue_of (by decide), Prod.ext (by decide) rfl, by decide, by decide, by decide, by decide, by decide, by decide, ⟨by decide, by decide⟩,
    ⟨by decide, by decide⟩, unheld_of (by decide)⟩
theorem witness_step_pair_runs :
    after (exec (.add 3 1 2) (let s := ran wAdd wVadd false
      { s with issue := { s.issue with raw := wAdd, w1 := false, paired := true } })) (·.issue.ctl.issued) = some true ∧
    after (exec (.vadd 1 2 3 4 .w32 false) { ranAdd with issue := { ranAdd.issue with raw := wVadd, w1 := true, paired := true, ctl := .ran } })
      (·.issue.ctl.issued) = some true := by decide

/-- O1: a paired bundle whose word 0 is a QCLOSE, beside a VADD. -/
def wQclose : Nat := 0b01_0_100011_00000000000000000000000
def ranClose : State := ran wQclose wVadd false
def besideClose : State :=
  (after (exec (.vadd 1 2 3 4 .w32 false) { ranClose with issue := { ranClose.issue with raw := wVadd, w1 := true, paired := true } }) id).getD ranClose
theorem witness_step_port : let s := (placed wQclose wVadd false).progress 0
    s.mayIssue 0 ∧ (s.at 0).fetch 0 = (.ok (wQclose, wVadd), ranClose) ∧ (s.hart 0).w1 = false ∧ lBit wQclose = false ∧ lBit wVadd = false ∧
      classOf wQclose < 2 ∧ 2 ≤ classOf wVadd ∧ shareDestination wQclose wVadd = false ∧
      ranClose.available 0 wQclose (.qclose 0) ∧ ranClose.available 0 wVadd (.vadd 1 2 3 4 .w32 false) ∧
      ranClose.unheld 0 wQclose wVadd [.qclose 0, .vadd 1 2 3 4 .w32 false] ∧ portSet (.qclose 0) = some 0 := by
  refine ⟨mayIssue_of (by decide), Prod.ext (by decide) rfl, by decide, by decide, by decide, by decide, by decide, by decide, ⟨by decide, by decide⟩,
    ⟨by decide, by decide⟩, unheld_of (by decide), by decide⟩
theorem witness_step_port_runs :
    after (exec (.qclose 0) { ranClose with issue := { ranClose.issue with raw := wQclose, w1 := false, paired := true } }) (·.issue.ctl.issued) = some true ∧
    after (exec (.vadd 1 2 3 4 .w32 false) { ranClose with issue := { ranClose.issue with raw := wVadd, w1 := true, paired := true } })
      (·.issue.ctl.issued) = some true ∧
    after (exec (.qclose 0) (let b := (besideClose.setPort 0 0 (ranClose.port 0 0)).mapMe (fun y => { y with qcfg := ranClose.me.qcfg })
      { b with issue := { b.issue with raw := wQclose, w1 := false, paired := true, ctl := .ran } })) (·.issue.ctl.issued) = some true := by decide

/-- O1: a fetch from the local alias, at its last bundle, and one by a cached translation. -/
theorem witness_fetch_alias : isCore 0 = true ∧ isT 0 = true ∧
    (({ State.reset with harts := [(0, { pc := BitVec.ofNat 64 (aliasBase + scratchSize - 8) })] } : State).hart 0).pc.toNat = aliasBase + (scratchSize - 8) ∧
    State.reset.readBad (.scratch 0 (scratchSize - 8)) 8 = false := by decide

/-- A page of core 0 of profile G that may be read, written and run. -/
def page : TlbEntry := ⟨2000, .host, 0, true, 0, 16, 0x10000, true, true, true, false, none⟩
def paged : State := { core with tlb := [page] }

theorem witness_fetch_page : isCore 2048 = true ∧ (paged.hart 2048).pc.toNat < 2 ^ 48 ∧
    paged.tlb.find? (fun e => e.hits (paged.requester 2048 .system).unit (paged.requester 2048 .system) 0x1000 paged.dtime) = some page ∧
    page.x = true ∧ (page.k && (paged.requester 2048 .system).user) = false ∧ physKind (page.pa + 0x1000 % 2 ^ page.sz) ≠ .io ∧
    paged.readBad (.phys (page.pa + 0x1000 % 2 ^ page.sz)) 8 = false := by decide

/-- O3: a well-formed instruction with its word, and a word with its instruction. -/
theorem witness_round_trip : (Instr.bfx 1 2 63 0).wellFormed = true ∧ encode true (.bfx 1 2 63 0) = some 0x21844FC0 ∧
    decodeWord 0x21844FC0 = .ok (.bfx 1 2 63 0) := by decide
/-- O4: a register that is written; the last vector register, and the first port. -/
theorem witness_registers : (31 : XReg) ≠ 0 ∧ (7 : KReg) ≠ 0 ∧ (23 : VReg).val < 24 ∧ 24 ≤ (24 : VReg).val := by decide
/-- O5: an overflow, and a rounding that is a tie. -/
theorem witness_rounding : FloatFmt.e4m3 ∈ [FloatFmt.fp32, .bf16, .fp16, .e5m2, .e4m3, .e3m2, .e2m3, .e2m1, .fx48] ∧
    ((roundFin .e4m3 .rne false false 1 20 false).2 &&& flagOF ≠ 0) ∧
    ((roundFin .e4m3 .rne false false 17 0 false).2 &&& flagOF = 0) ∧ ((roundFin .e4m3 .rne false false 17 0 false).2 &&& flagNX ≠ 0) := by decide
/-- O6: the clauses of a tile, its strands, and the waybill table. -/
theorem witness_reset : (511 : Nat) < 512 ∧ isCore 2047 = true ∧ isT 2047 = true ∧ strandOf 2044 = 0 ∧ (0xBFF3FF : Nat) < 0xBFF400 := by decide
/-- O8: a step from memories in canonical form. -/
theorem witness_step_wf : (placed wAdd1 wAdd false).memoriesWf ∧ ∃ t, step (placed wAdd1 wAdd false) = .next t :=
  ⟨⟨by decide, by decide, by decide, by decide⟩, _, rfl⟩

/-- A strand, a core at KERNEL and a core at USER that may run. -/
theorem witness_ready : strand.ready ∧ strand.readyT ∧ core.ready ∧ core.readyG ∧ trapping.readyG ∧ core.me.priv ≠ .user ∧ trapping.me.priv = .user := by
  decide
/-- O10: selectors beyond the table, and the corners of division. -/
theorem witness_division :
    let s := holding core [(1, BitVec.ofInt 64 (-2 ^ 63)), (2, BitVec.ofInt 64 (-1))]
    (7 : Nat) ≤ 7 ∧ (255 : Nat) < 256 ∧ s.ready ∧ s.rx 3 = 0 ∧ s.rx 2 ≠ 0 ∧ s.rx 1 = BitVec.ofInt 64 (-2 ^ 63) ∧ s.rx 2 = BitVec.ofInt 64 (-1) := by
  decide
/-- O9: the longest field, and the last bit. -/
theorem witness_fields : (Instr.bfx 1 2 63 0).wellFormed = true ∧ (Instr.bfi 1 2 0 63).wellFormed = true := by decide

/-- O11: numbers that stand for rationals, one of them of a format. -/
theorem witness_exact : (Num.fin true 3 (-1) false).Is (-(3 / 2)) ∧ (FloatFmt.fp32.value 0x3FC00000).real = some (3 / 2 : ℚ) := by
  refine ⟨⟨true, 3, -1, rfl, by norm_num⟩, ?_⟩
  have h : FloatFmt.fp32.value 0x3FC00000 = .fin false 12582912 (-23) false := by decide
  rw [h, Num.real]; norm_num

/-- A follower's word of a consist. -/
def following : State := { strand with issue := { fwd := some ⟨0, none, 0, false, 8, false, [], 0, some (5, 3)⟩ } }
/-- A strand with a read port at its end. -/
def ended : State := strand.setHart 0 { strand.me with ports := strand.me.ports.set 7 { cfg := true, eos := true } }

/-- O12: branches that are taken and not, by a follower too; the end of a port; a jump to an aligned address. -/
theorem witness_branches :
    (let s := holding strand [(1, 0x8000000000000000), (2, 1), (3, 1)]
     s.rx 2 = s.rx 3 ∧ s.rx 1 ≠ s.rx 2 ∧ (s.rx 1).toInt < (s.rx 2).toInt ∧ (s.rx 2).toInt ≤ (s.rx 3).toInt ∧ (s.rx 2).toNat < (s.rx 1).toNat
      ∧ (s.rx 2).toNat ≤ (s.rx 3).toNat ∧ s.issue.fwd = none ∧ ((s.rx 2) + BitVec.ofInt 64 ((7 : BitVec 13).toInt)).toNat % 8 = 0) ∧
    following.ready ∧ following.issue.fwd ≠ none ∧ ended.me.ports[7].cfg = true ∧ ended.me.ports[7].eos = true := by decide
/-- O12: a count that is too large, a loop beside the outer one's end, a third level, a level that is pushed, and a body that is skipped. -/
theorem witness_loops :
    let at' := fun (n : Word) (ls : List LoopLevel) => (holding strand [(1, n)]).mapMe (fun x => { x with loopsU := ls })
    let last := strand.me.pc + BitVec.ofInt 64 ((2 : BitVec 13).toInt * 8)
    strand.issue.fwd = none ∧ 2 ^ 28 ≤ ((at' 0x10000000 []).rx 1).toNat ∧ ((at' 0xFFFFFFF []).rx 1).toNat < 2 ^ 28 ∧
    0 < ((at' 1 []).rx 1).toNat ∧ 2 ≤ (at' 1 [⟨0, 0x2000, 1⟩, ⟨0, 0x2000, 1⟩]).me.loops.length ∧
    (∃ l ∈ (at' 1 [⟨0, 0x1008, 1⟩]).me.loops, l.last.toNat < last.toNat) ∧
    ((at' 1 [⟨0, 0x1010, 1⟩]).me.loops.length < 2 ∧ ∀ l ∈ (at' 1 [⟨0, 0x1010, 1⟩]).me.loops, last.toNat ≤ l.last.toNat) ∧
    ((at' 0 []).rx 1 = 0 ∧ (at' 0 []).issue.paired = false) := by decide
/-- O13: a target that is not 8-aligned. -/
theorem witness_jalr_misaligned : strand.issue.fwd = none ∧ (strand.rx 1 + BitVec.ofInt 64 ((4 : BitVec 13).toInt)).toNat % 8 ≠ 0 ∧
    strand.me.flight = [] := by decide
/-- O14: USER on either profile, and each profile. -/
theorem witness_privilege : strand.me.priv = .user ∧ trapping.me.priv = .user ∧ isT trapping.cur = false ∧ isT strand.cur = true ∧
    (∃ w, encode false (.vadd 1 2 3 4 .w32 false) = some w ∧ 2 ≤ classOf w) ∧ ∃ w, encode false (.mzero 2) = some w ∧ 2 ≤ classOf w :=
  ⟨by decide, by decide, by decide, by decide, ⟨_, rfl, by decide⟩, ⟨_, rfl, by decide⟩⟩

/-- A strand in a shared-mode tile whose arbiter follows this policy. -/
def arbitrated (policy : Word) (ctr : Int) : State :=
  strand.setMyTile { strand.myTile with mode := 3, arb := policy, arbCtr := (Vector.replicate 4 0).set 0 ctr }
/-- O15: YIELD under GTO, with a weight left under WEIGHTED, and otherwise. -/
theorem witness_yield :
    ((arbitrated 0 0).ready ∧ isT (arbitrated 0 0).cur = true ∧ (arbitrated 0 0).myTile.shared = true ∧ (arbitrated 0 0).myTile.arb.toNat % 4 = 0) ∧
    ((arbitrated 2 1).myTile.shared = true ∧ (arbitrated 2 1).myTile.arb.toNat % 4 = 2 ∧ 0 < (arbitrated 2 1).myTile.arbCtr[strandOf 0]) ∧
    strand.myTile.shared = false := by decide
/-- O15: WFE with the latch set, with its deadline at hand and past, and waiting. -/
theorem witness_wfe :
    (strand.mapMe (fun x => { x with latch := true })).me.latch = true ∧ strand.me.latch = false ∧ (1 : XReg) ≠ 0 ∧ (strand.rx 1).toNat ≤ strand.dtime ∧
    (strand.mapMe (fun x => { x with wfeOver := true })).me.wfeOver = true ∧ strand.me.wfeOver = false ∧ strand.dtime < ((holding strand [(1, 1)]).rx 1).toNat ∧
    ((strand.mapMe (fun x => { x with wfe := some 0 })).hart 0).wfe = some 0 ∧ (0 : Word).toNat ≤ strand.dtime := by decide
/-- O15: HALT of a strand, of a core, and the strand whose results have landed. -/
theorem witness_halt : isT strand.cur = true ∧ strand.issue.paired = false ∧
    (let s := ({ strand with issue := { paired := true } } : State); s.ready ∧ s.issue.paired = true ∧ s.issue.w1 = false) ∧ isT core.cur = false ∧ core.me.priv ≠ .user ∧ core.me.latch = false ∧
    (core.mapMe (fun x => { x with latch := true })).me.latch = true ∧
    (let s := strand.mapMe (fun x => { x with run := .halting })
     isT 0 = true ∧ (s.hart 0).run = .halting ∧ (s.hart 0).flight = [] ∧ (s.hart 0).vq = [] ∧ (s.hart 0).late = []) := by decide
/-- O16: a handler of a strand with a shadow, outside a consist, and one of a core. -/
def handling : State :=
  { State.reset with harts := [(0, { priv := .system, shadow := [{ rem := 2, land := .x 3 9, org := {} }] })] }
theorem witness_eret : handling.ready ∧ handling.me.priv ≠ .user ∧ tsStart handling.me = false ∧ handling.myTile.csize ≤ 1 ∧
    isT handling.cur = true ∧ handling.myTile.shared = false ∧ handling.me.tstatus.toNat % 4 = 0 ∧ core.me.priv ≠ .user ∧ isT core.cur = false := by decide
/-- O16: START for a launch that fits its tile, and for a fixed launch in a shared tile. -/
def starting (mode : Word) : State :=
  { State.reset with
    harts := [(0, { priv := .system, tstatus := 0x2000 })]
    tiles := [(0, { mode := mode, launch := some 7 })]
    launches := [(7, { ctx := 0, queue := none, record := none, bytes := [], tiles := [0], size := 1, begun := true })] }
theorem witness_start : (starting 2).readyT ∧ (starting 2).me.priv ≠ .user ∧ (starting 2).cur % 4 = 0 ∧ tsStart (starting 2).me = true ∧
    ((starting 2).myTile.shared && (starting 2).myTile.fixcode) = false ∧
    ((starting 0x23).readyT ∧ tsStart (starting 0x23).me = true ∧ (starting 0x23).myTile.shared = true ∧ (starting 0x23).myTile.fixcode = true ∧
      (starting 0x23).myTile.launch = some 7) ∧
    ((holding (starting 2) [(1, BitVec.ofNat 64 (aliasBase + (scratchSize - 64)))]).rx 1).toNat = aliasBase + (scratchSize - 64) := by decide
theorem witness_start_ended : ∃ l, (starting 0x23).launch? 7 = some l ∧ tileOf (starting 0x23).cur ∈ l.tiles := ⟨_, rfl, by decide⟩

/-- O17: no flags on their way; one and two levels of loop; both privileges. -/
theorem witness_creg_reads : strand.readyT ∧ strand.flagsPending = false ∧ strand.me.loops = [] ∧ strand.me.priv = .user ∧ handling.me.priv ≠ .user ∧
    (strand.mapMe (fun x => { x with loopsU := [⟨0, 8, 2⟩] })).me.loops = [⟨0, 8, 2⟩] ∧
    (strand.mapMe (fun x => { x with loopsU := [⟨0, 8, 2⟩, ⟨0, 16, 3⟩] })).me.loops = [⟨0, 8, 2⟩, ⟨0, 16, 3⟩] := by decide
/-- O18: an MTC above USER, alone and in a pair, of values at the edges of PPRIV and POLICY. -/
theorem witness_creg_writes : handling.readyT ∧ handling.me.priv ≠ .user ∧ handling.issue.paired = false ∧
    ({ handling with issue := { paired := true } } : State).issue.paired = true ∧ (1 : Word).toNat % 4 < 2 ∧ 2 ≤ (2 : Word).toNat % 4 ∧
    (2 : Word).toNat % 4 ≠ 3 ∧ (3 : Word).toNat % 4 = 3 := by decide

/-- A floating result with a flag, on its way. -/
def flagged (s : State) : State := s.mapMe (fun x => { x with flight := [{ due := some 3, land := .x 3 0, fl := flagNX, float := true, org := {} }] })
/-- O17: flags owing in a shared tile and above USER; a tile that has arrived for one generation and for two. -/
theorem witness_owing :
    (let s := flagged (strand.setMyTile { strand.myTile with mode := 3 }); s.readyT ∧ s.myTile.shared = true ∧ ∃ f ∈ s.me.flight, f.float = true) ∧
    (let s := flagged handling; s.readyT ∧ s.me.priv ≠ .user ∧ ∃ f ∈ s.me.flight, f.float = true) ∧
    (let s := strand.mapMe (fun x => { x with arrivals := x.arrivals.set 0 2 })
     let past := fun (i : Fin 4) (m : BitVec 32) => (s.hart (4 * tileOf s.cur + i.val)).arrivals[0] - m
     (∃ i, s.myTile.runs i = true) ∧ (∀ i, s.myTile.runs i = true → (past i (s.myTile.gen[0] + 2)).toNat < 2 ^ 31)) ∧
    (let s := strand.mapMe (fun x => { x with arrivals := x.arrivals.set 0 1 })
     let past := fun (i : Fin 4) (m : BitVec 32) => (s.hart (4 * tileOf s.cur + i.val)).arrivals[0] - m
     s.myTile.allHalted = false ∧ (∃ i, s.myTile.runs i = true ∧ 2 ^ 31 ≤ (past i (s.myTile.gen[0] + 2)).toNat)
       ∧ ∀ i, s.myTile.runs i = true → (past i (s.myTile.gen[0] + 1)).toNat < 2 ^ 31) := by decide
/-- O17, O18: a profile G core with flags on their way and without, at both privileges, with one and two levels of loop, and values at the edges
of PPRIV. -/
theorem witness_core_creg : core.readyG ∧ core.issue.paired = false ∧ (∀ f ∈ core.me.flight, f.fl = 0) ∧
    (let s := flagged core; s.readyG ∧ ∃ f ∈ s.me.flight, f.float = true) ∧ core.me.loops = [] ∧
    (core.mapMe (fun x => { x with loopsH := [⟨0, 8, 2⟩] })).me.loops = [⟨0, 8, 2⟩] ∧
    (core.mapMe (fun x => { x with loopsH := [⟨0, 8, 2⟩, ⟨0, 16, 3⟩] })).me.loops = [⟨0, 8, 2⟩, ⟨0, 16, 3⟩] ∧
    core.me.priv ≠ .user ∧ trapping.readyG ∧ trapping.me.priv = .user ∧ (2 : Word).toNat % 4 < 3 ∧ (7 : Word).toNat % 4 = 3 := by decide

/-- A tile in shared mode with its strand 1 running. -/
def shared : State := handling.setMyTile { handling.myTile with mode := 7 }
/-- O19: the conditions of MODE, and a strand in the way. -/
theorem witness_mode : handling.issue.paired = false ∧ handling.myTile.shared = false ∧ handling.myTile.fixcode = false ∧
    (1 : Word).getLsbD 0 = true ∧ (1 : Word).getLsbD 5 = false ∧ (0x21 : Word).getLsbD 5 = true ∧ (0x20 : Word).getLsbD 0 = false ∧
    (handling.myTile.runs 1 = false ∧ handling.myTile.runs 2 = false ∧ handling.myTile.runs 3 = false ∧ handling.me.vq = [] ∧
      ∀ f ∈ handling.me.flight, f.due ≠ none) ∧
    shared.readyT ∧ shared.myTile.shared = true ∧ shared.myTile.runs 1 = true ∧
    (handling.setMyTile { handling.myTile with mode := 0x22 }).myTile.fixcode = true := by decide
/-- O19: MOWNER with a sequencer that is empty and not, the bounds of RINGTIME, and levels of loop. -/
theorem witness_units : (strand.me.priv = .user ∧ strand.myTile.owner.toNat = strand.cur % 4) ∧ strand.myTile.cmds = [] ∧ (4 : Word).toNat % 4 = 0 ∧
    (strand.setMyTile { strand.myTile with cmds := [{ instr := .mwait, opnd := 0, strand := 0, org := {}, issuedAt := 0 }] }).myTile.cmds ≠ [] ∧
    (10 ≤ (0xA00 : Word).toNat / 2 ^ 8 % 32 ∧ (0x1E00 : Word).toNat / 2 ^ 8 % 32 ≤ 30) ∧ (0x10000 : Word).toNat % 4 ≠ 3 := by decide
/-- O19: FREEZE with nothing in progress, clear, and with a command in progress. -/
theorem witness_debug :
    let t := fun (d : Word) (c : List Command) => ({ strand.myTile with dbgctl := d, cmds := c } : Tile)
    (t 1 []).dbgctl.getLsbD 0 = true ∧ (∀ m ∈ (t 1 []).cmds, m.started = none) ∧ (t 0 []).dbgctl.getLsbD 0 = false ∧
    (∃ m ∈ (t 1 [{ instr := .mwait, opnd := 0, strand := 0, org := {}, issuedAt := 0, started := some 0 }]).cmds, m.started ≠ none) := by decide

/-! Memory and vector words. -/

/-- A strand whose x1 holds an address of the local alias, so many bytes above its base. -/
def atAlias (off : Nat) : State := holding strand [(1, BitVec.ofNat 64 (aliasBase + off))]
theorem witness_reaches (k : AccKind) : (atAlias (scratchSize - 8)).reaches k ((atAlias (scratchSize - 8)).rx 1 + BitVec.ofInt 64 ((0 : BitVec 13).toInt)) 8 8
    (.scratch 0 (scratchSize - 8)) := reaches_alias _ k _ 8 8 _ (by cases k <;> decide)
/-- O20, O24: the last eight bytes of the local alias, and a page of core 0. -/
theorem witness_scalar_access : (Loc.scratch 0 (scratchSize - 8)).isMemory ∧ (atAlias 0).ready ∧
    (atAlias 0).readBad (.scratch 0 (scratchSize - 8)) 8 = false ∧ (atAlias 0).writeBad (.scratch 0 (scratchSize - 8)) 8 = false :=
  ⟨trivial, by decide⟩
theorem witness_memories : strand.memoriesWf ∧ paged.memoriesWf ∧ (atAlias 0).memoriesWf ∧ vectors.memoriesWf ∧ core.memoriesWf :=
  ⟨⟨by decide, by decide, by decide, by decide⟩, ⟨by decide, by decide, by decide, by decide⟩,
    ⟨by decide, by decide, by decide, by decide⟩, ⟨by decide, by decide, by decide, by decide⟩,
    ⟨by decide, by decide, by decide, by decide⟩⟩
theorem witness_page_access (k : AccKind) : (holding paged [(1, 0x1008)]).reaches k 0x1008 8 8 (.phys (page.pa + 0x1008 % 2 ^ page.sz)) :=
  reaches_page _ k _ 8 8 page (by cases k <;> decide)
theorem witness_page_memory : physKind (page.pa + 0x1008 % 2 ^ page.sz) ≠ .io ∧ paged.readBad (.phys (page.pa + 0x1008 % 2 ^ page.sz)) 8 = false ∧
    paged.writeBad (.phys (page.pa + 0x1008 % 2 ^ page.sz)) 8 = false ∧ paged.ready := by decide

/-- O21: an address that is not aligned; another tile's slice, out of the launch and in it with an open phase; beyond 48 bits; a page without
its permission, and one of KERNEL; a lock. -/
theorem witness_checks :
    (1 : Nat) % 2 ≠ 0 ∧ isT strand.cur = true ∧ strand.pathBusy = false ∧ (511 : Nat) < 512 ∧ windowBase + 511 * 0x100000 + 0 ≠ 0 ∧ 511 ≠ tileOf strand.cur ∧
    strand.together (tileOf strand.cur) 511 = false ∧
    (let s := ({ strand with
        tiles := [(0, { launch := some 7 }), (1, { launch := some 7 })]
        launches := [(7, { ctx := 0, queue := none, record := none, bytes := [], tiles := [0, 1], size := 2, begun := true })] } : State)
     s.lost 1 = false ∧ s.together 0 1 = true ∧ s.phaseBars 0 1 = true) ∧
    2 ^ 48 ≤ (0xFFFF000000000000 : Word).toNat ∧
    (let e : TlbEntry := { page with w := false }
     ({ core with tlb := [e] } : State).tlb.find? (fun e => e.hits 2000 (core.requester 2048 .system) 0x1000 core.dtime) = some e ∧
     permits e.r e.w e.x .store = false) ∧
    (let e : TlbEntry := { page with k := true }
     ({ trapping with tlb := [e] } : State).tlb.find? (fun e => e.hits 2000 (trapping.requester 2048 .user) 0x1000 core.dtime) = some e ∧
     e.k = true ∧ (trapping.requester 2048 .user).user = true) ∧
    (({ locks := [⟨aliasBase, aliasBase + 63, true, .port 0 0, 0⟩] } : Tile).lockBars 0 aliasBase 8 false = true) := by decide

/-- O22: VLD and VST at the last 256 bytes of the local alias. -/
theorem witness_vector_access (k : AccKind) : (atAlias (scratchSize - 256)).reaches k ((atAlias (scratchSize - 256)).rx 1 + BitVec.ofInt 64 ((0 : BitVec 13).toInt))
    256 32 (.scratch 0 (scratchSize - 256)) := reaches_alias _ k _ 256 32 _ (by cases k <;> decide)
/-- Ports that serve a word: port 0 is read, with a transfer staged; port 1 takes pushes. -/
def portsOpen : State := strand.mapMe (fun x => { x with
  ports := (x.ports.set 0 { cfg := true, stage := [[1, 2]], w := 2 }).set 1 { cfg := true, write := true, w := 2 } })
theorem witness_ports : (24 : VReg).val = 24 + (0 : PortNo).val ∧ (25 : VReg).val = 24 + (1 : PortNo).val ∧
    portsOpen.me.badRead 0 = none ∧ portsOpen.me.ports[0].ready = true ∧
    portsOpen.me.badWrite 1 = none ∧ portsOpen.me.ports[1].fault = false ∧ portsOpen.room 0 portsOpen.me.ports[1] false = true ∧
    strand.readBad (.scratch 0 (scratchSize - 256)) 256 = false ∧ strand.writeBad (.scratch 0 (scratchSize - 256)) 256 = false := by decide

/-- O23: a stride of eight bytes from the base of the local alias, with a mask that lets the first and the last element pass. -/
def strided : State := (holding (atAlias 0) [(2, 8)]).mapMe (fun x => { x with k := x.k.set 1 0x4000000000000001 })
theorem witness_strided (j : Nat) (h : j < 32) (k : AccKind) (hk : k = .load ∨ k = .store) :
    strided.reaches k (strided.rx 1 + BitVec.ofNat 64 j * strided.rx 2) 8 8 (.scratch 0 (8 * j)) := by
  have d : ∀ j < 32, ∀ k ∈ [AccKind.load, .store], ((strided.rx 1 + BitVec.ofNat 64 j * strided.rx 2).toNat % 8 = 0 ∧ strided.pathBusy = false
      ∧ (strided.tile (tileOf strided.cur)).lockBars (tileOf strided.cur) (strided.rx 1 + BitVec.ofNat 64 j * strided.rx 2).toNat 8 (k == .store || k == .atomic) = false)
      ∧ isT strided.cur = true ∧ (strided.rx 1 + BitVec.ofNat 64 j * strided.rx 2).toNat = aliasBase + 8 * j ∧ 8 * j + 8 ≤ scratchSize := by decide
  exact reaches_alias strided k _ 8 8 (8 * j) (d j h k (by rcases hk with rfl | rfl <;> simp))
theorem witness_strided_rest : strided.readyT ∧ strided.pathBusy = false ∧ (0 : VReg).val < 24 ∧ strided.bad = [] ∧
    ((List.range 32).filter (active (strided.rk 1) 64)) = [0, 31] ∧
    (∀ j < 32, inAlias (strided.rx 1 + BitVec.ofNat 64 j * strided.rx 2).toNat) ∧ ¬ inAlias 0x1000 ∧
    (∀ j < 32, strided.readBad (.scratch 0 (8 * j)) 8 = false ∧ strided.writeBad (.scratch 0 (8 * j)) 8 = false) := by
  unfold inAlias; decide
theorem witness_no_bad_granule : ∀ u, (strided.tile u).bad = [] := by
  intro u
  simp [strided, State.mapMe, State.setMe, State.setHart, holding, atAlias, strand, State.reset, State.tile, look, Tile.initial]
/-- O23: a gather from the local alias whose index is the transfer of port 0 and whose data go to port 1. -/
def gathering : State := (holding portsOpen [(1, BitVec.ofNat 64 aliasBase)]).mapMe (fun x => { x with k := x.k.set 1 1 })
theorem witness_gather : gathering.reaches .load (gathering.rx 1 + BitVec.ofInt 64 (elemS (gathering.operand 24) 32 0 * 4)) 4 4 (.scratch 0 2052) :=
  reaches_alias _ .load _ 4 4 _ (by decide)
theorem witness_gather_rest : gathering.readyT ∧ gathering.pathBusy = false ∧ gathering.portsServe [24] (some 25) ∧
    (∀ j < 64, active (gathering.rk 1) 32 j = true → j = 0) ∧ (Loc.scratch 0 2052).isMemory ∧ gathering.readBad (.scratch 0 2052) 4 = false ∧
    gathering.portsServe [24, 24] none := by
  unfold State.portsServe
  exact ⟨by decide, by decide, ⟨by decide, by decide⟩, by decide, trivial, by decide, ⟨by decide, by decide⟩⟩

/-- O24: an atomic of FABRIC scope on a page in which another host has stored. -/
theorem witness_fabric : ∃ f, (({ paged with foreign := [f] } : State).foreign ≠ []) ∧ paged.foreign = [] := ⟨(0x11008, 5), by decide⟩

/-- O24: the old value is the expected one, and not. -/
theorem witness_amocas : (strand.rx 3).toNat % 2 ^ 64 = 0 ∧ ((holding strand [(3, 1)]).rx 3).toNat % 2 ^ 64 ≠ 0 ∧
    leNat (strand.bytesAt (.scratch 0 0) 8) = 0 := by decide

/-- O25 to O29: a word whose operands are registers, one that reads port 0, and one that writes port 1. -/
theorem vReady_of {s : State} {rs : List VReg} {d : Option VReg}
    (h : s.readyT ∧ s.me.vq.length < 4 ∧ s.dispatchBusy = false
      ∧ (∀ r ∈ rs, ∀ p : PortNo, r.val = 24 + p.val → s.me.badRead p = none ∧ s.me.ports[p].ready = true)
      ∧ (∀ e ∈ d, ∀ p : PortNo, e.val = 24 + p.val → s.me.badWrite p = none ∧ s.me.ports[p].fault = false
        ∧ s.room s.cur s.me.ports[p] false = true)) :
    s.vReady rs d := h
theorem witness_vReady : vectors.vReady [1, 23] (some 3) ∧ portsOpen.vReady [24, 2] (some 25) ∧ vectors.vReady [1] none ∧ vectors.vReady [] none :=
  ⟨vReady_of (by decide), vReady_of (by decide), vReady_of (by decide), vReady_of (by decide)⟩
/-- O29: formats that convert, and narrow formats for each width. -/
theorem witness_conversions : Fmt.t2 ≠ .lut4 ∧ Fmt.e3m2 ≠ .lut4 ∧ (Instr.vpack 1 2 .i4 0 .b8 false).wellFormed = true ∧
    (Instr.vpack 1 2 .i16 0 .d64 false).wellFormed = true := by decide

/-- O26: numbers whose quotients and roots are exact, and not. -/
theorem witness_quotients : (Num.fin false 3 0 false).Is 3 ∧ (Num.fin true 1 1 false).Is (-2) ∧ (Num.fin false 0 0 false).Is 0 ∧
    (value32 0x3F800000).Is (2 ^ (0 : ℤ)) := by
  refine ⟨⟨false, 3, 0, rfl, by norm_num⟩, ⟨true, 1, 1, rfl, by norm_num⟩, ⟨false, 0, 0, rfl, by norm_num⟩, ⟨false, 8388608, -23, by decide, by norm_num⟩⟩
/-- O29: operands at the edges of a conversion: an integer below the range of the target and in it, a NaN, an infinity, and a number. -/
theorem witness_conversion_values : (0x80 : Nat) < 2 ^ Fmt.i8.bits ∧ intValue .i8 0x80 < (intRange .i4).1 ∧ (intRange .i4).1 ≤ intValue .i8 0xF8 ∧
    FloatFmt.fp32.value 0x7FC00000 = .nan ∧ FloatFmt.fp32.value 0xFF800000 = .inf true ∧ (FloatFmt.fp32.value 0x40400000).Is 3 ∧
    floatFmt? .fp32 = some .fp32 ∧ Fmt.i8.isInt = true :=
  ⟨by decide, by decide, by decide, by decide, by decide, ⟨false, 12582912, -22, by decide, by norm_num⟩, by decide, by decide⟩

/-- O30: a word that names three ports. -/
theorem witness_port_word : (Instr.vadd 28 24 26 0 .w32 false).wellFormed = true ∧
    (∃ w, encode false (.vadd 28 24 26 0 .w32 false) = some w ∧ classOf w = 2) ∧
    (reads (.vadd 28 24 26 0 .w32 false)).filterMap (fun r => match r with | .v n => portOf n | _ => none) = [0, 2] ∧
    (writes (.vadd 28 24 26 0 .w32 false)).filterMap (fun r => match r with | .v n => portOf n | _ => none) = [4] :=
  ⟨by decide, ⟨_, rfl, by decide⟩, by decide, by decide⟩

/-- O30: a port that is not configured, one that writes, one with a fault and one with nothing, a full one; a full vector queue, and a ring
entry in use. -/
def portsShut : State := strand.mapMe (fun x => { x with
  ports := (((x.ports.set 1 { cfg := true, write := true }).set 2 { cfg := true, fault := true, fva := 0x40 }).set 3 { cfg := true }).set 4
    { cfg := true, write := true, pend := [⟨0, [0], [true], none⟩, ⟨1, [0], [true], none⟩], pos := 2, cnt := #v[8, 1, 1, 1] } })
theorem witness_port_stops : (∃ c, portsShut.me.badRead 0 = some c) ∧ (∃ c, portsShut.me.badRead 1 = some c) ∧ (∃ c, portsShut.me.badWrite 3 = some c) ∧
    (portsShut.me.badRead 2 = none ∧ portsShut.me.ports[2].fault = true ∧ portsShut.me.ports[2].ready = false ∧ portsShut.me.priv = .user) ∧
    (portsShut.me.badRead 3 = none ∧ portsShut.me.ports[3].fault = false ∧ portsShut.me.ports[3].ready = false) ∧
    (portsShut.me.badWrite 4 = none ∧ portsShut.me.ports[4].fault = false ∧ portsShut.room 0 portsShut.me.ports[4] false = false) ∧
    4 ≤ (strand.mapMe (fun x => { x with vq := List.replicate 4 ⟨0, 0, false⟩ })).me.vq.length :=
  ⟨⟨_, rfl⟩, ⟨_, rfl⟩, ⟨_, rfl⟩, by decide⟩
/-! The matrix unit. -/

/-- A command of strand 0. -/
def cmd (i : Instr) (order : Nat) : Command := { instr := i, opnd := BitVec.ofNat 64 aliasBase, strand := 0, org := { order := order }, issuedAt := 0 }
/-- Rings 1 and 2 hold one tile each of 18,432 bytes, from offset 0 and from 65,536; the clock is past every start. -/
def fed : Tile :=
  let ring := fun (base : Nat) => ({ cfg := BitVec.ofNat 64 (base + 2 * 2 ^ 28 + 18432 * 2 ^ 36), tail := 1 } : Ring)
  { rings := ((Vector.replicate 8 {}).set 1 (ring 0)).set 2 (ring 65536), scrbase := 0x7F0000000000 }
def fedWith (cs : List Command) : State := { strand with tiles := [(0, { fed with cmds := cs })], clk := 200 }

/-- O31: the owner and another; a sequencer with room, and one with 16; a port that takes a drain. -/
theorem witness_matrix : strand.mReady ∧ (strand.setMyTile { strand.myTile with owner := 1 }).myTile.owner.toNat ≠ (strandOf 0).val ∧
    strand.myTile.cmds.length < 16 ∧ (fedWith (List.replicate 16 (cmd (.mzero 0) 0))).mReady ∧
    16 ≤ (fedWith (List.replicate 16 (cmd (.mzero 0) 0))).myTile.cmds.length ∧
    ({ strand with harts := [(0, { priv := .user, seq := 64, ring := [⟨0, 0, false, 0⟩], flight := [{ due := none, land := .none, org := { vx := true } }] })] } : State).dispatchBusy = true := by
  unfold State.mReady; decide

def fedPorts : Vector PortCtx 8 := (Vector.replicate 8 {}).set 4 { cfg := true, mode := .ring, aux := 3 }
/-- O32: rings that a command names and not; configurations that are right and wrong; a ring that a port feeds; x0 and a value; an MRADV of no
tile, on an unconfigured ring, beyond the ring, of more than its free slots, and that fits. -/
theorem witness_rings :
    let s := fedWith [cmd (.mma 0 1 2 .fp16 .fp16 true true 0) 0]
    (∃ c ∈ s.myTile.cmds, (1 : RingNo) ∈ c.kind.ringsOf) ∧ (¬ ∃ c ∈ s.myTile.cmds, (3 : RingNo) ∈ c.kind.ringsOf) ∧ (5 : XReg) ≠ 0 ∧
    ringConfigOk (BitVec.ofNat 64 (2 * 2 ^ 28 + 18432 * 2 ^ 36)) = true ∧ ringConfigOk 1 = false ∧ s.rx 5 = 0 ∧
    (∃ (i : Fin 4) (p : PortNo), let f := (({ s with harts := [(0, { priv := .user, ports := fedPorts })] } : State).hart (4 * 0 + i.val)).ports[p]
      f.cfg = true ∧ f.mode = .ring ∧ f.aux = (3 : RingNo).val) ∧
    (2 : Word) ≠ 0 ∧ s.myTile.rings[3].cfg = 0 ∧ (s.myTile.rings[1].cfg ≠ 0 ∧ s.myTile.rings[1].count < (3 : Word).toNat) ∧
    ((2 : Word).toNat ≤ s.myTile.rings[1].count ∧ s.myTile.rings[1].count < s.myTile.rings[1].held + (2 : Word).toNat) ∧
    s.myTile.rings[1].held + (1 : Word).toNat ≤ s.myTile.rings[1].count ∧ s.myTile.cmds ≠ [] ∧ s.myTile.cmds.length ≤ 16 := by decide
theorem witness_codebook :
    (BitVec.ofNat 64 (aliasBase + (scratchSize - 32)) : Word).toNat = aliasBase + (scratchSize - 32) ∧ (scratchSize - 32) % 32 = 0 ∧
    strand.myTile.lockBars 0 (aliasBase + (scratchSize - 32)) 32 false = false ∧ strand.readBad (.scratch 0 (scratchSize - 32)) 32 = false ∧
    ¬ inAlias (0 : Word).toNat ∧ (8 : Nat) % 32 ≠ 0 ∧ 8 + 32 ≤ scratchSize ∧
    ({ locks := [⟨aliasBase, aliasBase + 63, true, .port 0 0, 0⟩] } : Tile).lockBars 0 aliasBase 32 false = true := by unfold inAlias; decide

/-- A command that starts next behind an MZERO that has started. -/
theorem nextToStart_of {x : Tile} {now : Nat} {e : List Command} {c : Command} {l : List Command}
    (h : x.cmds = e ++ c :: l ∧ (∀ d ∈ e, d.started.isSome = true) ∧ c.started = none ∧ x.enginesOn = true ∧ c.issuedAt < now
      ∧ ∀ d ∈ e ++ l, d.org.order ≠ c.org.order) : x.NextToStart now e c l :=
  ⟨h.1, h.2.1, h.2.2.1, h.2.2.2.1, h.2.2.2.2.1, h.2.2.2.2.2⟩
def started (i : Instr) (order retire : Nat) : Command := { cmd i order with started := some 0, retireAt := retire }

/-- O33: each kind of command as the next, with the conditions under which it waits and starts. -/
theorem witness_starts :
    (∀ i ∈ [Instr.mzero 0, .macc 0 false 1, .mdrain 0 3 .bf16 .rne false 0, .mdrains 0 1 .bf16 .rne false 0, .mma 0 1 2 .fp16 .fp16 true true 0],
      ((fedWith [started (.mzero 0) 0 9, cmd i 1]).tile 0).NextToStart 100 [started (.mzero 0) 0 9] (cmd i 1) []) := by
  intro i hi
  simp only [List.mem_cons, List.not_mem_nil, or_false] at hi
  rcases hi with rfl | rfl | rfl | rfl | rfl <;> exact nextToStart_of (by decide)
theorem witness_start_conditions :
    (∃ d ∈ [started (.mzero 0) 0 9], (0 : AccNo) ∈ d.kind.names) ∧ (¬ ∃ d ∈ [started (.mzero 0) 0 9], (1 : AccNo) ∈ d.kind.names) ∧
    (∃ d ∈ [started (.mzero 0) 0 9], d.kind.writes = some 0) ∧ (¬ ∃ d ∈ [started (.mzero 0) 0 9], d.kind.writes = some 1) ∧
    fed.drainFree ≤ 100 ∧ (100 : Nat) < ({ fed with drainFree := 101, arrayFree := 101 } : Tile).drainFree ∧
    ((BitVec.ofNat 64 aliasBase : Word).toNat = aliasBase + 0 ∧ 0 + 8 * Fmt.bits .bf16 ≤ scratchSize ∧ 0 % (min (8 * Fmt.bits .bf16) 32) = 0 ∧
      fed.lockBars 0 aliasBase (8 * Fmt.bits .bf16) true = false ∧ strand.writeBad (.scratch 0 0) (8 * Fmt.bits .bf16) = false) := by decide
/-- O33: an MMA of FP16 on tiles that are there. -/
theorem witness_mma_starts :
    let qa := fed.rings[1]
    let qb := fed.rings[2]
    (cmd (.mma 0 1 2 .fp16 .fp16 true true 0) 1).kind = .mma 0 0 1 2 .fp16 .fp16 true true ∧ fed.arrayFree ≤ 100 ∧ qa.cfg ≠ 0 ∧ qb.cfg ≠ 0 ∧
    popsBefore [started (.mzero 0) 0 9] 1 < qa.held ∧ popsBefore [started (.mzero 0) 0 9] 2 < qb.held ∧ pairOk .fp16 .fp16 = true ∧
    tileNeed (elemBytesA 0 .fp16) qa.scale 64 ≤ qa.tbytes ∧ tileNeed (elemBytesB .fp16) qb.scale 128 ≤ qb.tbytes ∧
    ¬ (qa.scale = true ∧ Fmt.isInt .fp16 = true) ∧ ¬ (qb.scale = true ∧ Fmt.isInt .fp16 = true) ∧ Fmt.isInt .fp16 = false ∧
    strand.readBad (.scratch 0 0) 6144 = false := by decide

/-- O34: each command as the oldest that is due. -/
theorem dueFirst_of {x : Tile} {now : Nat} {c : Command} {rest : List Command} (h : x.cmds = c :: rest ∧ c.started.isSome = true ∧ c.retireAt ≤ now
      ∧ ∀ d ∈ rest, d.org.order ≠ c.org.order) : x.DueFirst now c rest :=
  ⟨⟨[], rest, h.1, rfl, by simp⟩, h.2.1, h.2.2.1, h.2.2.2⟩
theorem witness_retires :
    (∀ i ∈ [Instr.mzero 0, .macc 0 true 1, .mdrain 0 3 .bf16 .rne false 31, .mdrains 0 1 .bf16 .rne false 31, .mma 0 1 2 .fp16 .fp16 true true 0,
        .mchainSend 0 31 0, .mchainRelay 0 0 false 31, .mchainRecv 0 3 true 28],
      ((fedWith [started i 0 100]).tile 0).DueFirst (fedWith [started i 0 100]).dtime (started i 0 100) []) := by
  intro i hi
  simp only [List.mem_cons, List.not_mem_nil, or_false] at hi
  rcases hi with rfl | rfl | rfl | rfl | rfl | rfl | rfl | rfl <;> exact dueFirst_of (by decide)
/-- O34: a drain that is owed to v3. -/
theorem witness_drain_owed : (3 : VReg).val < 24 ∧
    ([{ due := none, land := .v 3 0 (BitVec.allOnes 2048), wait := true, org := {} }] : List InFlight).find?
      (fun g => g.org.order == (started (.mdrain 0 3 .bf16 .rne false 31) 0 100).org.order)
      = some { due := none, land := .v 3 0 (BitVec.allOnes 2048), wait := true, org := {} } := ⟨by decide, rfl⟩

/-- O34: a drain that is owed to port 1, between two other pushes. -/
theorem witness_drain_port :
    let other : Push := ⟨0, [0], [true], none⟩
    let owed : Push := ⟨1, [0], [true], some 0⟩
    let q : PortCtx := { cfg := true, write := true, pend := [other, owed, other] }
    (25 : VReg).val = 24 + (1 : PortNo).val ∧ q.pend = [other] ++ owed :: [other] ∧
    owed.owed = some (started (.mdrain 0 25 .bf16 .rne false 31) 0 100).org.order ∧ (∀ z ∈ [other] ++ [other], z.owed ≠ some 0) ∧
    ∀ g ∈ strand.me.flight, g.org.order ≠ 0 := by decide

/-- O35: tiles 0 and 1 form a chain of two. -/
def chained : State :=
  { strand with
    tiles := [(0, { dommem := 0x20 + 2 ^ 57, chainOut := some ⟨1, false, 0, none, 1, []⟩, launch := some 7 }), (1, { dommem := 0x21 + 2 ^ 57, launch := some 7 })]
    launches := [(7, { ctx := 0, queue := none, record := none, bytes := [], tiles := [0, 1], size := 2, begun := true })] }
theorem witness_chain : chained.chainPos 0 = (0, 2, some 1) ∧ chained.chainPos 1 = (1, 2, none) ∧ (chained.tile 1).presence = .present ∧
    (chained.tile 1).chain.isNone = true ∧ (chained.tile 0).chainOut.isSome = true := by decide
theorem witness_chain_message : (chained.tile 0).chainOut = some ⟨1, false, 0, none, 1, []⟩ ∧
    ((chained.setTile 1 { chained.tile 1 with chain := some ⟨4, true, 0, none, 1, []⟩ }).tile 1).chain = some ⟨4, true, 0, none, 1, []⟩ := ⟨rfl, rfl⟩
/-- O35: commands that hold the message and the way to the next tile, and one that does neither; a PUTQ that the message is behind, and not. -/
theorem witness_chain_starts :
    let recv : Command := { started (.mchainRecv 1 0 false 0) 0 100 with place := some ⟨1, 2, none⟩ }
    let send : Command := { started (.mchainSend 1 0 0) 0 100 with place := some ⟨0, 2, some 1⟩ }
    recv.receives = true ∧ recv.sends = false ∧ send.sends = true ∧ send.receives = false ∧
    ((fedWith [send, cmd (.mchainSend 0 0 0) 1]).tile 0).NextToStart 100 [send] (cmd (.mchainSend 0 0 0) 1) [] ∧
    (∀ d ∈ [send], d.kind.writes ≠ some 0) ∧ (chained.tile 1).chain = none ∧ (∀ d ∈ ([] : List Command), d.sends = false) ∧
    (let m : PutqMsg := ⟨0, [], 0, 0, .user, 3⟩
     (m.hart, m.order) ∈ [(0, 3)] ∧ (m.hart, m.order) ∉ [(0, 4)]) ∧ (1 : Nat) ≠ 0 :=
  ⟨by decide, by decide, by decide, by decide, nextToStart_of (by decide), by decide, by decide, by decide, by decide, by decide⟩
/-- O33: an MMA whose ring has been empty for 2^RINGTIME cycles, and one whose rings are not configured. -/
theorem witness_command_faults :
    let c := { cmd (.mma 0 1 2 .fp16 .fp16 true true 0) 1 with starved := some 0 }
    let x : Tile := { fed with cmds := [c], rings := fed.rings.set 1 { fed.rings[1] with tail := 0 } }
    x.rings[1].cfg ≠ 0 ∧ x.rings[2].cfg ≠ 0 ∧ x.rings[1].held ≤ popsBefore [] 1 ∧ 0 + 2 ^ (x.mstat.toNat / 2 ^ 8 % 2 ^ 5) ≤ 2 ^ 20 ∧ x.arrayFree ≤ 2 ^ 20 ∧
    c.issuedAt < 2 ^ 20 ∧ x.enginesOn = true ∧ strand.myTile.rings[1].cfg = 0 ∧
    ({ fed with rings := fed.rings.set 2 {} } : Tile).rings[1].cfg ≠ 0 ∧ ({ fed with rings := fed.rings.set 2 {} } : Tile).rings[2].cfg = 0 ∧
    (started (.mzero 0) 0 9).org.order < c.org.order ∧ c.org.order < (cmd (.mzero 0) 2).org.order := by decide

/-! Ports, copies, queues, links. -/

/-- Port 5 of strand 0 as given. -/
def withPort (q : PortCtx) : State := strand.mapMe (fun x => { x with ports := x.ports.set 5 q })
/-- A write port whose two transfers of staging are taken. -/
def shut : PortCtx := { cfg := true, write := true, depth := 2, pend := [⟨0, [0], [true], none⟩, ⟨1, [0], [true], none⟩], pos := 2, cnt := #v[8, 1, 1, 1] }
/-- O36: QGET with a transfer, with nothing, and of a faulted port; QPUT on a port too wide, faulted, full, and open. -/
theorem witness_get_put :
    ((withPort { cfg := true, stage := [[7]] }).me.badRead 5 = none ∧ (withPort { cfg := true, stage := [[7]] }).me.ports[5].ready = true) ∧
    ((withPort { cfg := true }).me.badRead 5 = none ∧ (withPort { cfg := true }).me.ports[5].ready = false ∧ (withPort { cfg := true }).me.ports[5].fault = false) ∧
    ((withPort { cfg := true, fault := true }).me.badRead 5 = none ∧ (withPort { cfg := true, fault := true }).me.ports[5].ready = false) ∧
    ((withPort { cfg := true, write := true, w := 3, l := 3 }).me.badWrite 5 = none ∧ 8 < 3 * 3) ∧
    ((withPort { cfg := true, write := true, w := 8, fault := true }).me.badWrite 5 = none ∧ 8 * 1 ≤ 8) ∧
    ((withPort shut).me.badWrite 5 = none ∧ (withPort shut).me.ports[5] = shut ∧ (withPort shut).room 0 shut false = false) ∧
    (withPort { cfg := true, write := true }).room 0 { cfg := true, write := true } false = true := by decide
theorem witness_get_put_bad : (∃ c, strand.me.badRead 5 = some c) ∧ (∃ c, strand.me.badWrite 5 = some c) := ⟨⟨_, rfl⟩, ⟨_, rfl⟩⟩
/-- O36: QCLOSE of a port with pushes left and with none. -/
theorem witness_close : ({ cfg := true, write := true, pend := [⟨0, [1], [true], none⟩] } : PortCtx).pend ≠ [] ∧
    ({ cfg := true, write := true } : PortCtx).pend = [] ∧ ({ cfg := true, write := true } : PortCtx).fault = false := by decide

/-- O36: a record at the base of the local alias that breaks no rule (eight elements of one byte), and one that breaks one (a reserved mode). -/
def recordBytes (mode : Nat) : List Byte :=
  leBytes 8 (aliasBase + 128) ++ leBytes 1 0 ++ leBytes 1 0 ++ leBytes 1 mode ++ leBytes 1 2 ++ leBytes 4 0
    ++ leBytes 4 8 ++ leBytes 4 1 ++ leBytes 4 1 ++ leBytes 4 1 ++ leBytes 8 1 ++ leBytes 8 0 ++ leBytes 8 0 ++ leBytes 8 0
def recorded (mode : Nat) : State := (atAlias 0).setMyTile { (atAlias 0).myTile with scratch := memWrite [] 0 (recordBytes mode) }
def recordPort (s : State) : PortCtx :=
  { cfg := true, base := BitVec.ofNat 64 (aliasBase + 128), depth := 2, cnt := #v[8, 1, 1, 1], stride := #v[1, 0, 0, 0], sys := s.me.priv != .user }
theorem witness_record : (recorded 0).bytesAt (.scratch 0 0) 64 = recordBytes 0 ∧
    recordBad (recordBytes 0) (recordPort (recorded 0)) 5 {} {} false = none ∧ (recorded 0).myTile.dbgctl.getLsbD 0 = false ∧ (recorded 0).me.qcfg = none ∧
    (recorded 0).boxBarred 0 ((recordPort (recorded 0)).box 0) = false ∧ (recorded 0).me.ports[5].close = false ∧ (recorded 0).me.ports[5].cfg = false ∧
    (recorded 0).myTile.locks.length < 16 ∧ (recorded 0).readBad (.scratch 0 0) 64 = false := by decide
theorem witness_record_reaches : (recorded 0).reaches .load ((recorded 0).rx 1) 64 64 (.scratch 0 0) := reaches_alias _ .load _ 64 64 0 (by decide)
theorem witness_record_bad : ∃ c, recordBad (recordBytes 3) { recordPort (recorded 3) with mode := .ring } 5 {} {} false = some c := ⟨_, rfl⟩

/-- O36: in that record a width, a count, the reserved bits, DEPTH, an index port and a ring that break their rules. -/
theorem witness_record_rows :
    let b := fun (lo : Nat) (v : Byte) (m : Nat) => recordBad ((recordBytes m).set lo v) { recordPort (recorded m) with
      mode := if m % 4 = 0 then .affine else if m % 4 = 1 then .indexed else .ring, aux := m / 8 % 8,
      w := if lo = 8 then v.toNat + 1 else 1, l := if lo = 9 then v.toNat + 1 else 1, cnt := if lo = 20 then #v[8, 0, 1, 1] else #v[8, 1, 1, 1] } 5 {} {} false
    b 9 1 2 = some 16 ∧ b 20 0 0 = some 17 ∧ b 10 0x40 0x40 = some 18 ∧ b 11 1 0 = some 19 ∧ b 11 2 1 = some 20 ∧ b 11 2 2 = some 21 := by decide

/-- O37: a read port of eight elements with nothing staged. -/
def reading : State := (recorded 0).mapMe (fun x => { x with ports := x.ports.set 5 (recordPort (recorded 0)) })
theorem witness_stream_read : (reading.tile 0).enginesOn = true ∧ (reading.port 0 5).stage.length < (reading.port 0 5).depth ∧
    (reading.port 0 5).done < (reading.port 0 5).transfers ∧ (reading.port 0 5).elems = 8 ∧
    (reading.port 0 5).pend = [] ∧ (reading.port 0 5).stage.length < 2 ∧ reading.stagingUse 0 + 1 * 1 ≤ 0x8000 := by decide
theorem witness_stream_elements : ∀ e < 8, reading.engineRead (.port 0 5) (reading.port 0 5).sys (reading.port 0 5).since ((reading.port 0 5).addr e) (reading.port 0 5).w = (.ok [0], reading) := by
  decide +kernel
/-- O37: a write port with a push to write, and a port that feeds a ring. -/
def writing : State := (recorded 0).mapMe (fun x => { x with
  ports := x.ports.set 5 { recordPort (recorded 0) with write := true, pend := [⟨7, [9], [true], none⟩], pos := 8, done := 7 } })
theorem witness_stream_write : (writing.port 0 5).pend = [⟨7, [9], [true], none⟩] ∧ [true] = List.replicate ((writing.port 0 5).w * (writing.port 0 5).l) true ∧
    0 < (writing.port 0 5).w ∧ (∀ e < 8, ((writing.port 0 5).addr e).toNat = aliasBase + (128 + e) ∧ 128 + e + (writing.port 0 5).w ≤ scratchSize) := by decide
def ringing : State := (recorded 0).mapMe (fun x => { x with ports := x.ports.set 5 { recordPort (recorded 0) with mode := .ring, aux := 1 } })
theorem witness_ring_feed : (ringing.port 0 5).aux = (1 : RingNo).val ∧ fed.rings[1].cfg ≠ 0 ∧ fed.rings[1].held < fed.rings[1].count ∧
    0 < fed.rings[1].tbytes ∧ strand.writeBad (.scratch 0 (fed.rings[1].slot fed.rings[1].tail)) fed.rings[1].tbytes = false := by decide

/-- O38: a copy of 64 bytes within the local alias, an empty one, and one that is refused (a reserved flag); eight transfers on a channel. -/
def copyOf (n : Nat) (flags : Nat) : CopyParams :=
  #v[BitVec.ofNat 64 aliasBase, BitVec.ofNat 64 (aliasBase + 4096), BitVec.ofNat 64 n, 0, 0, 1, 0, 0, 1, BitVec.ofNat 64 flags]
def copying (p : CopyParams) (live : List Xfer) : State :=
  { strand with chans := [(0, #v[{ shadow := p, live := live, nextId := 9 }, {}, {}, {}])], clk := 20 }
theorem witness_copy_words :
    ((copyOf 64 0).bad = false ∧ (copying (copyOf 64 0) []).copyBarred (copyOf 64 0) = false ∧ (copyOf 64 0).empty = false) ∧
    ((copyOf 0 0).bad = false ∧ (copyOf 0 0).empty = true ∧ (copying (copyOf 0 0) []).copyBarred (copyOf 0 0) = false) ∧ (copyOf 64 (2 ^ 40)).bad = true ∧
    ((copying (copyOf 64 0) []).myTile.dbgctl.getLsbD 0 = false ∧ (copying (copyOf 64 0) []).me.cpygo = none ∧ (copying (copyOf 64 0) []).myTile.locks = []) ∧
    8 ≤ ((copying (copyOf 64 0) ((List.range 8).map (fun i => { id := i + 1, p := copyOf 64 0, hart := 0 }))).chan 0 0).live.length ∧
    ((copying (copyOf 64 0) []).chan 0 0).live = [] ∧ (8 : Word).toNat < ((copying (copyOf 64 0) []).chan 0 0).nextId := by decide
/-- O38: an ordered transfer behind another and alone, one that completes, and one that fails. -/
theorem witness_copy_steps :
    let x : Xfer := { id := 2, p := copyOf 64 (2 ^ 28), hart := 0 }
    let y : Xfer := { id := 1, p := copyOf 64 0, hart := 0, started := true }
    x.p.ordered = true ∧ y.started = true ∧ x.started = false ∧ y.id ≠ x.id ∧ y.id < x.id ∧ (∀ z ∈ ([] : List Xfer), x.id < z.id) ∧
    ((copying (copyOf 64 0) [y, x]).chan 0 0).live = [y, x] ∧ ([y, x].find? (fun z => z.id == y.id && z.started && !z.wait) = some y) ∧
    (y.row = 0 ∧ y.off = 0 ∧ y.p.cnt1 = 1 ∧ y.p.cnt2 = 1 ∧ y.p.srcRemote 0 = false ∧ y.p.dstRemote 0 = false ∧ y.p.len0 = 64) ∧
    (y.p.src.toNat = aliasBase + 0 ∧ y.p.dst.toNat = aliasBase + 4096 ∧ 0 + 64 ≤ 4096) ∧ ((copying (copyOf 64 0) [y, x]).tile 0).enginesOn = true ∧
    (copyOf 64 (2 ^ 27 + 2 ^ 14)).dstRemote 0 = true ∧ (255 : Nat) < 256 ∧ ((copying (copyOf 64 0) [y]).chan 0 0).cerrId = 0 := by decide

/-- O38: a layout record in the local alias that asks for 8 bytes. -/
def laidOut : State := holding (recorded 0) [(2, BitVec.ofNat 64 aliasBase)]
theorem witness_layout_record : (2 : XReg) ≠ 0 ∧ (Loc.scratch 0 0).isMemory ∧ laidOut.readBad (.scratch 0 0) 64 = false ∧ laidOut.me.cpygo = none :=
  ⟨by decide, trivial, by decide, by decide⟩
theorem witness_layout_reaches : laidOut.reaches .load (laidOut.rx 2) 64 64 (.scratch 0 0) := reaches_alias _ .load _ 64 64 0 (by decide)
/-- O38: a copy to package 1 that is refused there. -/
theorem witness_copy_remote :
    let y : Xfer := { id := 1, p := copyOf 64 (2 ^ 27 + 2 ^ 14), hart := 0, started := true }
    let s := copying (copyOf 64 0) [y]
    (s.chan 0 0).live.find? (fun z => z.id == y.id && z.started && !z.wait) = some y ∧ y.row = 0 ∧ y.off = 0 ∧ y.p.cnt1 = 1 ∧ y.p.cnt2 = 1 ∧
    y.p.srcRemote s.pkgnum = false ∧ y.p.dstRemote s.pkgnum = true ∧ y.p.src.toNat = aliasBase + 0 ∧ 0 + y.p.len0 ≤ scratchSize ∧ 0 < y.p.len0 ∧
    (s.tile 0).bad = [] ∧ (0x13 : Nat) ≠ 0 ∧ (0x10 : Nat) ≠ 0 := by decide

/-- O39: PUTQ of 64 bytes to an inbox, and from outside the local alias. -/
theorem witness_putq : (atAlias 0).reaches .load ((atAlias 0).rx 1) 64 1 (.scratch 0 0) := reaches_alias _ .load _ 64 1 0 (by decide)
theorem witness_putq_rest : (63 : Fin 64).val + 1 = 64 ∧ inAlias ((atAlias 0).rx 1).toNat ∧ inAlias (((atAlias 0).rx 1).toNat + 64 - 1) ∧
    (∀ u ∈ Target.phaseTile 0x4000000000000000 0 0, (atAlias 0).phaseBars 0 u = false) ∧ ¬ inAlias (strand.rx 1).toNat := by unfold inAlias; decide
/-- O39: a message to a bad target, to the sender's own inbox, full and not, with its result owed. -/
def posted (target : Word) (n : Nat) : State :=
  { State.reset with
    harts := [(0, { flight := [{ due := none, land := .x 3 0, wait := true, org := { order := 4 } }] })]
    putqs := [⟨target, [1, 2], 0, 0, .user, 4⟩]
    tiles := [(0, { inbox := List.replicate n (List.replicate 64 0) })] }
theorem witness_delivery : (0x8000000000000000 : Word).getLsbD 63 = true ∧ (0x4000000000000000 : Word).getLsbD 63 = false ∧
    (0x4000000000000000 : Word).getLsbD 61 = false ∧ (0x4000000000000000 : Word).getLsbD 62 = true ∧ isT 0 = true ∧ (3 : XReg) ≠ 0 ∧
    (0x4000000000000000 : Word).toNat % 512 = tileOf 0 ∧ 8 ≤ ((posted 0x4000000000000000 8).tile 0).inbox.length ∧
    ((posted 0x4000000000000000 7).tile 0).inbox.length < 8 ∧ (posted 0 0).putqs = [⟨0, [1, 2], 0, 0, .user, 4⟩] ∧ (posted 0 0).turn = 0 ∧
    (let far : Word := 0x2001000000000000
     far.getLsbD 63 = false ∧ far.getLsbD 61 = true ∧ far.toNat / 2 ^ 48 % 2 ^ 13 ≠ (posted far 0).pkgnum) ∧
    (((posted 0 0).hart 0).flight.find? (fun g => g.org.order == 4 && g.due.isNone)
      = some { due := none, land := .x 3 0, wait := true, org := { order := 4 } }) := by decide
/-- O39: two messages of one strand on their way, to two inboxes: the second may be delivered first. -/
theorem witness_delivery_order : ∃ t, exec (.putqDelivery 0) { posted 0x4000000000000000 0 with
      turn := 1
      putqs := [⟨0x4000000000000000, [1], 0, 0, .user, 4⟩, ⟨0x4000000000000001, [2], 0, 0, .user, 5⟩] } = .next t ∧
    t.putqs = [⟨0x4000000000000000, [1], 0, 0, .user, 4⟩] := ⟨_, rfl, by decide +kernel⟩
/-- O39: an arrival that no entry of the inbound context table takes, and a port whose next element is PAGE. -/
theorem witness_not_inbound : State.reset.inbound 3 5 = none := by decide +kernel
def far : State :=
  { (reading.mapMe (fun x => { x with ports := x.ports.set 5 { recordPort (recorded 0) with base := 0x100000 } })) with
    io := memWrite State.reset.io 0x08FD00000000 (leBytes 8 0x100000)
    ctxs := [(0, { valid := true, fring := 0x1000 })]
    tlb := [⟨3000, .resident, 0, true, 0, 16, 0x20000, true, true, false, false, none⟩]
    mem := memWrite [] 0x21000 (leBytes 8 0x2000 ++ leBytes 4 16)
    waybill := [(0x10, BitVec.ofNat 128 (1 + 8 * 2))] }
theorem witness_engine_page : (far.port 0 5).cfg = true ∧ (far.port 0 5).mode = .affine ∧ (far.port 0 5).done < (far.port 0 5).transfers ∧
    far.stagingRoom 0 (far.port 0 5) = true ∧ far.engineRead (.port 0 5) false 0 0x100000 1 = (.error 0x10, far) ∧
    (far.engineRecord (.port 0 5) false 0 0 [0, 0, 0, 0] 0x100000).1 = none := by decide +kernel
/-- O39: an inbound entry that maps package 3, context 5 to the local context 0; an inbox with room and without. -/
def inboundOne : State := { State.reset with io := memWrite State.reset.io 0x08F100010000 (leBytes 8 (3 + 5 * 2 ^ 13 + 2 ^ 29)) }
theorem witness_inbound : inboundOne.inbound 3 5 = some 0 ∧ State.reset.inbound 3 5 = none ∧ inboundOne.away 0 511 = false ∧ inboundOne.lost 511 = false ∧
    (inboundOne.tile 511).ctx = 0 ∧ (inboundOne.tile 511).inbox.length < 8 ∧ 8 ≤ ((posted 0 8).tile 0).inbox.length := by decide +kernel

/-! Barriers, consists, tasks. -/

/-- Tiles 0 and 1 are a fixed launch's, a group and a domain of two. -/
def domained : State :=
  let d : Word := BitVec.ofNat 64 (16 + 2 * 2 ^ 24 + 2 * 2 ^ 43)
  { strand with
    tiles := [(0, { dommem := d, launch := some 7 }), (1, { dommem := d + 2 ^ 15 + 2 ^ 34, launch := some 7 })]
    launches := [(7, { ctx := 0, queue := none, record := none, bytes := [0, 8], tiles := [0, 1], size := 2, begun := true })] }
/-- O40: a level of size 0 and not; an arrival that is free and one after two that are pending; a generation that is due and one that is not. -/
theorem witness_barrier : strand.myTile.gsize = 0 ∧ domained.myTile.gsize ≠ 0 ∧ domained.myTile.dsize ≠ 0 ∧
    (domained.myTile.gen[2] - ((domained.me.arrivals[2] + 1) - 2)).toNat < 2 ^ 31 ∧
    (let s := domained.mapMe (fun x => { x with arrivals := Vector.replicate 4 2 })
     ¬ (s.myTile.gen[2] - ((s.me.arrivals[2] + 1) - 2)).toNat < 2 ^ 31) ∧
    (domained.myTile.gen[2] - BitVec.ofNat 32 (domained.rx 1).toNat).toNat < 2 ^ 31 ∧
    ¬ (domained.myTile.gen[2] - BitVec.ofNat 32 ((holding domained [(1, 1)]).rx 1).toNat).toNat < 2 ^ 31 ∧
    (∀ i : Fin 4, domained.myTile.runs i = true ↔ i = strandOf domained.cur) := by decide
/-- O40: a generation that some member has not reached, one that all have, and a member whose part has ended. -/
theorem witness_completion : (∃ u ∈ domained.members 0 .domain, (domained.tile u).launch = (domained.tile 0).launch ∧ domained.tileArrived u 3 1 = false) ∧
    (let s := (domained.setHart 0 { domained.hart 0 with arrivals := Vector.replicate 4 1 }).setHart 4 { domained.hart 4 with arrivals := Vector.replicate 4 1 }
     (∃ u ∈ s.members 0 .domain, (s.tile u).launch = (s.tile 0).launch ∧ ∃ i < 4, ((s.hart (4 * u + i)).arrivals[(3 : Fin 4)] - 1).toNat < 2 ^ 31) ∧
     (∀ u ∈ s.members 0 .domain, (s.tile u).launch = (s.tile 0).launch ∧ s.tileArrived u 3 1 = true) ∧ s.tileArrived 0 3 2 = false) ∧
    (let s := domained.setTile 1 { domained.tile 1 with launch := none }
     1 ∈ s.members 0 .domain ∧ (s.tile 1).launch ≠ (s.tile 0).launch ∧ s.images = [] ∧ 511 ∉ s.members 0 .domain) := by decide +kernel

/-- O41: COUPLE again after its consist has formed, with each subcode, and of tiles 0 and 1; a consist that waits for nobody. -/
theorem witness_couple : (let x := (strand.mapMe (fun x => { x with coupled := true, couple := some (0x1000, 0, 0) })).me
     x.coupled = true ∧ x.couple.map (·.1) = some x.pc) ∧ strand.me.coupled = false ∧
    (arbitrated 0 0).myTile.shared = true ∧ strand.myTile.dsize = 0 ∧ domained.myTile.shared = false ∧ domained.myTile.dsize ≠ 0 ∧
    2 ^ 13 ≤ (0x2000 : Word).toNat ∧ (0 : Word).toNat / 512 % 16 + 1 = 1 ∧ 15 < (0xF : Word).toNat % 512 % 16 + 1 ∧ 0 < (0x201 : Word).toNat % 512 ∧
    strand.myTile.csize ≤ 1 ∧ 1 < chained.myTile.csize ∧ 2 ∉ domained.members 0 .domain := by decide +kernel
/-- Tile 1 of the domain waits in COUPLE with a value; tile 0 has its own in x1. -/
def coupling (v w : Option Word) : State :=
  { domained with harts := [(0, { pc := 0x1000, priv := .user, x := (Vector.replicate 32 0).set 1 (v.getD 0) }), (4, { priv := .user, coupling := w })] }
/-- O41: 0x200 fits the domain of tiles 0 and 1, of which tile 0 is in no consist, or in one. -/
theorem witness_couple_fits : (coupling (some 0x200) none).readyT ∧ ((coupling (some 0x200) none).rx 1) = 0x200 ∧
    (coupling (some 0x200) none).me.coupled = false ∧ (coupling (some 0x200) none).myTile.shared = false ∧ (coupling (some 0x200) none).myTile.dsize ≠ 0 ∧
    ¬ (2 ^ 13 ≤ (0x200 : Word).toNat ∨ (0x200 : Word).toNat / 512 % 16 + 1 = 1 ∨ 15 < (0x200 : Word).toNat % 512 % 16 + (0x200 : Word).toNat / 512 % 16 ∨
      0 < (0x200 : Word).toNat % 512 ∨ (0x200 : Word).toNat % 512 + ((0x200 : Word).toNat / 512 % 16 + 1) ≤ 0 ∨
      ∃ j < 2, 0 + j ∉ (coupling (some 0x200) none).members 0 .domain) ∧
    (coupling (some 0x200) none).myTile.csize ≤ 1 ∧ ((coupling (some 0x200) none).members 0 .domain).Nodup ∧
    ((coupling (some 0x200) none).hart 4).priv = .user ∧ ((coupling (some 0x200) none).tile 1).csize ≤ 1 ∧
    (let s := (coupling (some 0x200) none).setTile 0 { domained.tile 0 with dommem := domained.myTile.dommem + 16 }
     1 < s.myTile.csize ∧ s.myTile.dsize ≠ 0 ∧ ∀ j < 2, 0 + j ∈ s.members 0 .domain) := by decide +kernel
/-- Which tiles of the domain wait, and with what. -/
theorem coupling_only (w : Option Word) (u : Nat) (z : Word) (h : u ∈ (coupling (some 0x200) w).members 0 .domain ∧ u ≠ 0
    ∧ ((coupling (some 0x200) w).hart (4 * u)).coupling = some z) : u = 1 ∧ w = some z := by
  have hm : (coupling (some 0x200) w).members 0 .domain = [0, 1] := by
    show domained.members 0 .domain = [0, 1]
    decide +kernel
  obtain ⟨h1, h2, h3⟩ := h
  rw [hm] at h1
  have hu : u = 1 := by simpa [h2] using h1
  subst hu
  exact ⟨rfl, h3⟩
/-- O41: tile 1 waits with a value that does not name tile 0, with one that does, with none, and with the same. -/
theorem witness_couple_others :
    let s := fun (w : Option Word) => coupling (some 0x200) w
    let other := fun (q : Option Word) (u : Nat) (w : Word) => u ∈ (s q).members 0 .domain ∧ u ≠ 0 ∧ ((s q).hart (4 * u)).coupling = some w ∧ w ≠ 0x200
    let names := fun (w : Word) (u : Nat) => w.toNat % 512 ≤ u ∧ u < w.toNat % 512 + w.toNat / 512 % 16 + 1
    ((∃ u w, other (some 0x201) u w ∧ names 0x200 u) ∧ ∀ u w, other (some 0x201) u w → ¬ names w 0) ∧
    (other (some 0x400) 1 0x400 ∧ names 0x400 0 ∧ ∀ u' w', other (some 0x400) u' w' → names w' 0 → u' = 1) ∧
    ((∀ u w, other none u w → ¬ names 0x200 u ∧ ¬ names w 0) ∧ ((s none).hart (4 * (0 + 1))).coupling ≠ some 0x200) ∧
    ((∀ u w, other (some 0x200) u w → ¬ names 0x200 u ∧ ¬ names w 0) ∧ ((s (some 0x200)).hart (4 * (0 + 1))).coupling = some 0x200) := by
  refine ⟨⟨⟨1, 0x201, by decide +kernel, by decide⟩, ?_⟩, ⟨by decide +kernel, by decide, ?_⟩, ⟨?_, by decide⟩, ⟨?_, by decide⟩⟩
  · intro u w h
    obtain ⟨-, e⟩ := coupling_only _ u w ⟨h.1, h.2.1, h.2.2.1⟩
    obtain rfl := Option.some.inj e
    decide
  · intro u w h _
    exact (coupling_only _ u w ⟨h.1, h.2.1, h.2.2.1⟩).1
  · intro u w h
    exact absurd (coupling_only _ u w ⟨h.1, h.2.1, h.2.2.1⟩).2 (by simp)
  · intro u w h
    exact absurd (Option.some.inj (coupling_only _ u w ⟨h.1, h.2.1, h.2.2.1⟩).2).symm h.2.2.2
theorem witness_form :
    let s := fun (n : Nat) => ({ domained with harts := (List.range n).map (fun j => (4 * j, { coupling := some 0x200 })) } : State)
    ((s 2).hart (4 * 0)).coupling = some 0x200 ∧ (∃ j < 2, ((s 1).hart (4 * (0 + j))).coupling ≠ some 0x200) ∧
    (∀ j < 2, ((s 2).hart (4 * (0 + j))).coupling = some 0x200) := by decide
/-- O41: members of a consist of two, at their ERET and not. -/
theorem witness_resume :
    let s := fun (n : Nat) => ({ chained with harts := (List.range n).map (fun j => (4 * j, { priv := .system, ereting := true })) } : State)
    1 < ((s 2).tile 0).csize ∧ (∃ m ∈ (s 1).members 0 .consist, ((s 1).hart (4 * m)).ereting = false) ∧
    (∀ m ∈ (s 2).members 0 .consist, ((s 2).hart (4 * m)).ereting = true) ∧ (s 2).me.priv ≠ .user ∧ tsStart (s 2).me = false ∧
    0 ∈ (s 2).members 0 .consist ∧ (∃ m ∈ (s 1).members 0 .consist, m ≠ 0 ∧ ((s 1).hart (4 * m)).ereting = false) := by decide +kernel

/-- O42: INBX to the last 64 bytes of the local alias, with an entry and without; to an address that is not aligned, not in the alias, locked. -/
theorem witness_inbox : ((atAlias (scratchSize - 64)).rx 1).toNat = aliasBase + (scratchSize - 64) ∧ (scratchSize - 64) % 64 = 0 ∧
    (atAlias 0).myTile.lockBars 0 (aliasBase + (scratchSize - 64)) 64 false = false ∧ (atAlias 0).myTile.inbox = [] ∧
    strand.writeBad (.scratch 0 (scratchSize - 64)) 64 = false ∧ (List.replicate 64 (0 : Byte)).length = 64 ∧
    (1 : Word).toNat % 64 ≠ 0 ∧ ¬ inAlias (0 : Word).toNat ∧
    ({ locks := [⟨aliasBase, aliasBase + 63, true, .port 0 0, 0⟩] } : Tile).lockBars 0 aliasBase 64 false = true := by unfold inAlias; decide
/-- O42: JNEXT on a card that no coverage holds and on one that it does; a follower's pair. -/
theorem witness_jnext : (atAlias 0).reaches .atomic ((atAlias 0).rx 1) 64 64 (.scratch 0 0) := reaches_alias _ .atomic _ 64 64 0 (by decide)
def covered : State :=
  { atAlias 0 with launches := [(7, { ctx := 0, queue := none, record := none, bytes := [], begun := true, cardPa := (Loc.scratch 0 0).key, card := List.replicate 128 0xFF })] }
theorem witness_jnext_rest : (atAlias 0).issue.fwd = none ∧ (atAlias 0).coveredAt 0 (Loc.scratch 0 0).key ((atAlias 0).rx 1) = none ∧
    (covered.coveredAt 0 (Loc.scratch 0 0).key (covered.rx 1)).isSome = true ∧ (following.issue.fwd.bind (·.dealt)) = some (BitVec.ofNat 64 5, BitVec.ofNat 64 3) := by decide

/-- A context whose depot of two records, and whose call ring header, lie in a page that the hub can reach. -/
def hubPage : TlbEntry := ⟨3000, .resident, 0, true, 0, 16, 0x20000, true, true, false, false, none⟩
def depot (cnt : Nat) : State :=
  { strand with
    ctxs := [(0, { valid := true, depot := 0x1000, drecs := 2, callring := 0x2000 })]
    tlb := [hubPage]
    mem := memWrite (memWrite [] 0x21046 (leBytes 2 cnt)) 0x22000 (leBytes 8 0x3000 ++ leBytes 4 2 ++ leBytes 4 0 ++ leBytes 8 0 ++ leBytes 8 1) }
/-- O42: no context, one without the record, a record that is not IDLE, and the last record, with a count to come. -/
theorem witness_depot : State.reset.ctxOf 2048 = none ∧ (depot 1).ctxOf 0 = some 0 ∧ (strand.ctx 0).valid = false ∧ ((depot 1).ctx 0).drecs ≤ 2 ∧
    ((depot 1).ctx 0).valid = true ∧ ((holding (depot 1) [(1, 1)]).rx 1).toNat < ((depot 1).ctx 0).drecs ∧ ((depot 1).depot 0 1).st = .idle ∧
    ((depot 1).depot 0 1).early < 1 ∧ (((depot 1).setDepot 0 1 { st := .running }).depot 0 1).st ≠ .idle ∧ (depot 1).crashed = false ∧
    ({ strand with io := memWrite State.reset.io 0x08F50000000A (leBytes 1 2) } : State).crashed = true := by decide +kernel
theorem witness_depot_read : ∃ m, (depot 1).hubRead 0 (0x1000 + 64 * 1) 64 = (.ok m, depot 1) ∧ leNat ((m.drop 6).take 2) = 1 :=
  ⟨(List.replicate 6 0) ++ [1] ++ List.replicate 57 0, by decide +kernel, by decide⟩
/-- O42: GDISP of a core that the context is bound to. -/
def depotCore : State :=
  { depot 1 with cur := 2048, harts := [(2048, { priv := .system, x := (Vector.replicate 32 0).set 1 1 })], io := memWrite State.reset.io 0x08F100008000 (leBytes 8 256) }
theorem witness_gdisp : depotCore.ctxOf depotCore.cur = some 0 ∧ isT depotCore.cur = false ∧ (depotCore.rx 1).toNat < (depotCore.ctx 0).drecs ∧
    (depotCore.hubWrite 0 (0x1040 + 32) depotCore.gdispArgs).1 = none ∧ (depotCore.hubWrite 0 (0x1040 + 32) depotCore.gdispArgs).2.cur = depotCore.cur ∧
    (depotCore.hubWrite 0 (0x1040 + 32) depotCore.gdispArgs).2.depot 0 1 = depotCore.depot 0 1 := by decide +kernel
theorem witness_gdisp_read : ∃ m, depotCore.hubRead 0 (0x1000 + 64 * 1) 64 = (.ok m, depotCore) ∧ leNat ((m.drop 6).take 2) = 1 :=
  ⟨(List.replicate 6 0) ++ [1] ++ List.replicate 57 0, by decide +kernel, by decide⟩
/-- O42: GJOIN of a launch that has completed and of one that has not. -/
theorem witness_gjoin : (0 : Nat) < ({ dones := 1 } : DepotRec).dones.toNat ∧ ({} : DepotRec).dones.toNat ≤ 0 ∧ 0 % 4096 < (depotCore.ctx 0).drecs := by decide

/-- O43: a call with a ring of two slots of which one is taken, and a context without a ring. -/
def calling (count : Nat) : State := { holding (depot 1) [(1, BitVec.ofNat 64 aliasBase)] with
  mem := memWrite [] 0x22000 (leBytes 8 0x3000 ++ leBytes 4 2 ++ leBytes 4 0 ++ leBytes 8 0 ++ leBytes 8 count) }
def callHeader (count : Nat) : List Byte := leBytes 8 0x3000 ++ leBytes 4 2 ++ leBytes 4 0 ++ leBytes 8 0 ++ leBytes 8 count ++ List.replicate 32 0
theorem witness_scall : (calling 1).reaches .load ((calling 1).rx 1) 64 64 (.scratch 0 0) := reaches_alias _ .load _ 64 64 0 (by decide)
theorem witness_scall_ring : (calling 1).ctxOf 0 = some 0 ∧ ((calling 1).ctx 0).valid = true ∧ ((calling 1).ctx 0).callring ≠ 0 ∧
    (calling 1).hubRead 0 0x2000 64 = (.ok (callHeader 1), calling 1) ∧ (calling 2).hubRead 0 0x2000 64 = (.ok (callHeader 2), calling 2) := by decide +kernel
theorem witness_scall_fields : leNat ((callHeader 1).take 8) = 0x3000 ∧ leNat (((callHeader 1).drop 8).take 4) = 2 ^ 1 ∧
    leNat (((callHeader 1).drop 16).take 8) = 0 ∧ leNat (((callHeader 1).drop 24).take 8) = 1 ∧ leNat (((callHeader 2).drop 24).take 8) = 2 := by decide
/-- O44: descriptors that trap, that name another package, and that are local. -/
theorem witness_signal_descriptors : (0x4000000000000000 : Word).getLsbD 62 = true ∧ (0x8000000000000000 : Word).getLsbD 63 = true ∧
    (0x2001000000000000 : Word).getLsbD 62 = false ∧ (0x2001000000000000 : Word).getLsbD 63 = false ∧ Target.remote 0x2001000000000000 0 = true ∧
    Target.remote (BitVec.ofNat 64 aliasBase) 0 = false := by decide
theorem witness_signal_reaches (k : AccKind) : (atAlias 0).reaches k ((atAlias 0).rx 1 &&& 0x0000FFFFFFFFFFFF) 8 8 (.scratch 0 0) :=
  reaches_alias _ k _ 8 8 0 (by cases k <;> decide)
/-- O44: a registration that the value reaches, at 1, and one that it does not; waits and wakes. -/
theorem witness_signals : let l := Loc.scratch 0 0
    let r : SigReg := { pa := l.key, target := 1, hart := 4, nowait := false }
    ({ atAlias 0 with sigs := [r] } : State).sigs = [r] ∧ r.target.toNat ≤ (1 : Word).toNat ∧ (0 : Word).toNat < r.target.toNat ∧ r.hart < 2 ^ 20 ∧
    r.hart ≠ (atAlias 0).cur ∧ ({ (atAlias 0).me with wake := some (l.key, some 5) } : Hart).wake = some (l.key, some 5) ∧ (atAlias 0).me.wake = none ∧
    ((atAlias 0).rx 2).toNat ≤ (0 : Word).toNat ∧ (0 : Word).toNat < (1 : Word).toNat ∧ (atAlias 0).sigs.length < 16384 ∧
    16384 ≤ (List.replicate 16384 r).length ∧ ¬ (r.away = none ∧ r.hart = (atAlias 0).cur ∧ r.pa = l.key) ∧
    ({ (atAlias 0).me with wake := some (l.key, none) } : Hart).wake = some (l.key, none) ∧ ({ r with away := some (3, 9) } : SigReg).away = some (3, 9) := by
  refine ⟨rfl, by decide, by decide, by decide, by decide, rfl, rfl, by decide, by decide, by decide, by simp, by decide, rfl, rfl⟩

/-- O45: each kind of handle of the words: no handle, one with weight to share, one without, one that lives and one that is stale. -/
theorem witness_handles : (∀ m ∈ strand.posts, m.hart ≠ some strand.cur) ∧ 48 < (49 : Word).toNat ∧ (48 : Word).toNat ≤ 48 ∧
    2 ^ 48 ≤ (0x1000000000000 : Word).toNat ∧ (0xFFFFFFFFFFFF : Word).toNat < 2 ^ 48 ∧ 4096 ≤ (4096 : Word).toNat ∧ (4095 : Word).toNat < 4096 ∧
    (let h : Word := BitVec.ofNat 64 (1 + 3 * 2 ^ 29 + 16383 * 2 ^ 35 + 3 * 2 ^ 49)
     h ≠ 0 ∧ 0 < h.toNat / 2 ^ 29 % 64 ∧ h.toNat / 2 ^ 51 = strand.pkgnum ∧ h.toNat / 2 ^ 49 % 4 * 16384 + h.toNat / 2 ^ 35 % 16384 = 65535 ∧
     (strand.slot 65535).live = false ∧
     (let s := strand.setSlot 65535 { gen := 1, live := true, exp := 4 }
      (s.slot 65535).live = true ∧ (s.slot 65535).gen = BitVec.ofNat 29 h.toNat)) ∧
    (BitVec.ofNat 64 (1 + 2 ^ 35) : Word).toNat / 2 ^ 29 % 64 = 0 ∧ ((depot 1).ctx 0).drecs ≤ (2 : Word).toNat ∧ (1 : Word).toNat < ((depot 1).ctx 0).drecs ∧
    (BitVec.ofNat 64 (1 + 2 ^ 51) : Word).toNat / 2 ^ 51 ≠ strand.pkgnum ∧ BitVec.ofNat 29 (BitVec.ofNat 64 (2 ^ 51) : Word).toNat = 0 := by
  decide +kernel
/-- O45: the lowest slot is free, the second is, and none is. -/
theorem witness_slots : ((0 : Nat) < 16384 ∧ (strand.slot (0 * 16384 + 0)).live = false) ∧
    (let s := strand.setSlot 0 { live := true }
     (s.slot (0 * 16384 + 1)).live = false ∧ ∀ j < 1, (s.slot (0 * 16384 + j)).live = true) := by decide
theorem look_map {α : Type} (d v : α) (k : Nat) : ∀ l : List Nat, k ∈ l → look d (l.map (fun i => (i, v))) k = v
  | [], h => by cases h
  | i :: l, h => by
    by_cases e : i = k
    · simp [look, e]
    · simp only [List.map_cons, look, e, if_false]
      exact look_map d v k l (by simpa [Ne.symm e] using h)
theorem witness_slots_full : ∀ o < 16384, (({ strand with handles := (List.range 16384).map (fun i => (i, { live := true })) } : State).slot (0 * 16384 + o)).live = true := by
  intro o h
  simp only [State.slot, Nat.zero_mul, Nat.zero_add]
  rw [look_map _ _ _ _ (List.mem_range.2 h)]
/-- O45: posts that are the last of their object's weight, that are not, that hold a proxy, and that go to another package. -/
theorem witness_posts : let h : Word := BitVec.ofNat 64 (1 + 3 * 2 ^ 29)
    h.toNat / 2 ^ 51 = State.reset.pkgnum ∧ 0 + 2 ^ (h.toNat / 2 ^ 29 % 64) < 2 ^ 4 ∧ 8 + 2 ^ (h.toNat / 2 ^ 29 % 64) = 2 ^ 4 ∧
    (1 : BitVec 29) = BitVec.ofNat 29 h.toNat ∧ (h + 2 ^ 51).toNat / 2 ^ 51 ≠ State.reset.pkgnum ∧ (Post.mk h none none none).ctx = none ∧ State.reset.turn = 0 := by decide
/-- O45: a post of this package as an arrival over a link from package 3, context 5 would be counted. -/
theorem witness_post_arrival : let m := Post.mk 1 none none (some (3, 5))
    m.hart = none ∧ m.ctx = none ∧ m.away = some (3, 5) ∧
    (1 : Word).toNat / 2 ^ 51 = inboundOne.pkgnum := by decide +kernel

/-! Frames, translations, device memory. -/

/-- Core 0 (HOST) and frame 5, whose entry is this. -/
def frame (st owner peer : Nat) (rest : Nat) : BitVec 128 := BitVec.ofNat 128 (st + 8 * owner + 32 * peer + rest)
def framed (e : BitVec 128) (b : Word) : State := holding { core with waybill := [(5, e)] } [(1, 0x50000), (2, b)]
/-- The management core, of MONITOR. -/
def monitored (e : BitVec 128) (b : Word) : State :=
  { State.reset with
    cur := 2064
    harts := [(2064, { priv := .monitor, x := ((Vector.replicate 32 0).set 1 0x50000).set 2 b })]
    waybill := [(5, e)]
    io := memWrite (memWrite State.reset.io 0x08FE00010022 (leBytes 2 9)) 0x08FE00010020 (leBytes 2 3) }
/-- O46: a hub register that the core's page maps. -/
def hubMapped : State := holding { core with tlb := [⟨2000, .host, 0, true, 0, 16, 0x08F500000000, true, true, false, false, none⟩] } [(1, 8)]
theorem witness_hub (k : AccKind) (h : k = .load ∨ k = .store) : hubMapped.reaches k 8 8 8 (.phys (0x08F500000000 + 8 % 2 ^ 16)) :=
  reaches_page hubMapped k 8 8 8 ⟨2000, .host, 0, true, 0, 16, 0x08F500000000, true, true, false, false, none⟩ (by rcases h with rfl | rfl <;> decide)
theorem witness_hub_rest : physKind (0x08F500000000 + 8 % 2 ^ 16) = .io ∧ 0x08F000000000 ≤ 0x08F500000000 + 8 % 2 ^ 16 ∧
    (0x08F500000000 + 8) / 0x10000 ≠ 0x08F40001 ∧ hubMapped.readBad (.phys 0x08F500000008) 8 = false := by decide

/-- O47: each status that is decided before a transaction. -/
theorem witness_frame_status : core.readyG ∧ core.me.priv ≠ .user ∧ (0x50001 : Nat) % 0x10000 ≠ 0 ∧ core.wb 0x0C00000 = none ∧
    (core.wb 0xBFF400 = some (wbLockedTo .monitor) ∧ (wbLockedTo .monitor).getLsbD 34 = true) ∧ gcoreKn 0 = some .host ∧ gcoreKn 17 = none ∧
    wbOwner (frame 1 2 0 0) ≠ Kernel.host.code ∧ wbPeer (frame 1 2 0 0) ≠ Kernel.host.code ∧ wbOwner (frame 1 1 0 0) = Kernel.host.code ∧
    (0x30000 : Nat) / 2 ^ 16 % 4 = 3 ∧ (0x10000 : Nat) / 2 ^ 16 % 4 = Kernel.host.code ∧ (0xA0000 : Nat) / 2 ^ 19 % 2 = 1 ∧
    2 ^ 30 ≤ (0x40020000 : Nat) ∧ 2 ^ 18 ≤ (0x60000 : Nat) ∧ wbPeer (frame 2 2 1 0) = Kernel.host.code ∧ 2 ^ 26 ≤ (0x4000000 : Nat) ∧ 999 < 1000 ∧
    10000000 < 10000001 := by decide +kernel
/-- O47: offers, grants and acceptances. -/
theorem witness_offers :
    (let s := monitored (frame 0 0 0 0) (0x40000 + 0x20000 + BitVec.ofNat 64 (5 * 2 ^ 20))
     let v := (s.rx 2).toNat
     s.readyG ∧ s.me.priv ≠ .user ∧ (s.rx 1).toNat = 5 * 0x10000 ∧ s.wb 5 = some (frame 0 0 0 0) ∧ wbLocked (frame 0 0 0 0) = false ∧ gcoreKn 16 = some .monitor ∧
      wbOwner (frame 0 0 0 0) = Kernel.monitor.code ∧ v / 2 ^ 16 % 4 = 2 ∧ v / 2 ^ 19 % 2 = 0 ∧ v < 2 ^ 30 ∧ v / 2 ^ 18 % 2 = 1 ∧ wbState (frame 0 0 0 0) = 0 ∧
      v / 2 ^ 20 % 1024 = 5) ∧
    (let s := framed (frame 1 1 0 0) 0x20007
     s.wb 5 = some (frame 1 1 0 0) ∧ (s.rx 2).toNat / 2 ^ 18 % 2 ≠ 1 ∧ wbState (frame 1 1 0 0) ≤ 1 ∧ 1 < wbState (frame 2 1 0 0)) ∧
    (wbPeer (frame 2 2 1 (7 * 2 ^ 18)) = Kernel.host.code ∧ (7 : Nat) < 2 ^ 26 ∧ wbOwner (frame 2 2 1 (7 * 2 ^ 18)) ≠ 0 ∧ wbState (frame 2 2 1 (7 * 2 ^ 18)) = 2 ∧
      wbTag (frame 2 2 1 (7 * 2 ^ 18)) = 7 % 2 ^ 16 ∧ wbTag (frame 2 2 1 (7 * 2 ^ 18)) ≠ 8 % 2 ^ 16 ∧ wbState (frame 1 2 1 0) ≠ 2) := by decide +kernel
theorem witness_key_windows : (let s := monitored (frame 0 0 0 0) 0
    s.keyOk 1 3 = true ∧ s.keyOk 1 9 = true ∧ s.keyOk 1 10 = false) := by decide +kernel
/-- O47: lends, recalls with the default grace and at its bounds, and releases in each state. -/
theorem witness_lends :
    (wbOwner (frame 1 1 0 0) = Kernel.host.code ∧ (0x20000 : Nat) % 2 ^ 16 = 0 ∧ (0x20000 : Nat) < 2 ^ 18 ∧ wbState (frame 1 1 0 0) = 1 ∧ wbState (frame 3 1 2 0) ≠ 1) ∧
    (1000 ≤ 100000 ∧ 100000 ≤ 10000000 ∧ core.dtime + (3 * 10000000 + 1) / 2 < 2 ^ 64) ∧ wbState (frame 3 1 2 0) = 3 ∧ wbState (frame 4 1 2 0) = 4 ∧
    core.worn.contains 5 = false ∧ (wbOwner (frame 1 2 1 0) ≠ Kernel.host.code) ∧ wbState (frame 2 1 2 0) = 2 ∧
    (wbState (frame 3 2 1 0) = 3 ∧ wbPeer (frame 3 2 1 0) = Kernel.host.code) ∧
    (wbState (frame 4 2 1 (9 * 2 ^ 64)) = 4 ∧ core.dtime < wbDeadline (frame 4 2 1 (9 * 2 ^ 64)) ∧ wbDeadline (frame 4 2 1 0) ≤ core.dtime) ∧
    wbState (frame 5 2 1 0) = 5 ∧ Kernel.host ≠ .monitor := by decide +kernel
/-- O47: a recall that is due and one that is not; keys that may not and may be regenerated. -/
theorem witness_recalls : (let s := framed (frame 4 1 2 0) 0
    s.wb 5 = some (frame 4 1 2 0) ∧ wbState (frame 4 1 2 0) = 4 ∧ wbDeadline (frame 4 1 2 0) ≤ s.dtime ∧ wbPeer (frame 4 1 2 0) ≤ 2) ∧
    ¬ (wbState (frame 3 1 2 0) = 4) ∧ (∃ e ∈ (framed (frame 1 1 0 (7 * 2 ^ 8)) 0).waybill, wbKey e.2 = 7) ∧ 0 < 1023 ∧ 1023 < 1024 ∧
    (∀ e ∈ (framed (frame 1 1 0 0) 0).waybill, wbKey e.2 ≠ 1023) := by decide +kernel

/-- O47: after a recall's deadline, an access of a port that the peer configured before it. -/
theorem witness_revoked : let t := { reading with revoked := put [] (5 * 4 + 2) 50 }
    t.revoked = put State.reset.revoked (5 * 4 + wbPeer (frame 4 1 2 (50 * 2 ^ 64))) (wbDeadline (frame 4 1 2 (50 * 2 ^ 64))) ∧
    0 < wbDeadline (frame 4 1 2 (50 * 2 ^ 64)) ∧ (t.engineRequester (.port 0 5) false).2.kn = some .resident ∧ Kernel.resident.code = wbPeer (frame 4 1 2 0) ∧
    (t.enginePlace (.port 0 5) false 0 (BitVec.ofNat 64 aliasBase) 1 .load).1 = .ok [(.scratch 0 0, 1)] := by decide +kernel
/-- O47: an offer of MONITOR's on a frame that is worn. -/
theorem witness_worn_offer : wbState (frame 2 0 2 0) = 2 ∧ wbOwner (frame 2 0 2 0) = Kernel.monitor.code ∧
    ({ monitored (frame 2 0 2 0) 0 with worn := [5] } : State).worn.contains 5 = true ∧ (monitored (frame 2 0 2 0) 0).memoriesWf :=
  ⟨by decide, by decide, by decide, by decide, by decide +kernel, by decide, by decide⟩

/-- O48: FLUSH of a line, of none, and beyond 48 bits. -/
theorem witness_flush : (paged.reaches .load (BitVec.ofNat 64 0x1000) 1 1 (.phys (page.pa + 0x1000 % 2 ^ page.sz)) ∧
    (Loc.phys (page.pa + 0x1000 % 2 ^ page.sz)).isMemory) ∧ (0x1000 + 64 - 1) / 0x10000 - 0x1000 / 0x10000 + 1 = 1 ∧ core.rx 2 = 0 ∧ 2 ^ 48 ≤ (0x1000000000000 : Word).toNat :=
  ⟨⟨reaches_page paged .load _ 1 1 page (by decide), by unfold Loc.isMemory; decide⟩, by decide, by decide, by decide⟩
/-- O48: what another host has stored in a granule of the range. -/
theorem witness_inval : let s := ({ paged with foreign := [(0x11008, 5), (0x11009, 6)] } : State)
    0 < 64 ∧ 0x1000 / 0x10000 = (0x1000 + 64 - 1) / 0x10000 ∧ (s.foreign.map (·.1)).Nodup ∧ paged.foreign = [] := by decide
theorem witness_inval_reaches : ({ holding paged [(1, 0x1000)] with foreign := [(0x11008, 5), (0x11009, 6)] } : State).reaches .load 0x1000 1 1
    (.phys (page.pa + 0x1000 % 2 ^ page.sz)) := reaches_page _ .load _ 1 1 page (by decide)
/-- O48: three levels to a leaf of 64 KiB, and a translation that is cached. -/
def walked : State :=
  { core with
    io := memWrite State.reset.io 0x08FF00000000 (leBytes 8 0x100000)
    mem := memWrite (memWrite (memWrite [] 0x100000 (leBytes 8 (3 + 0x20 * 2 ^ 16))) 0x200000 (leBytes 8 (3 + 0x30 * 2 ^ 16))) 0x300000
      (leBytes 8 (1 + 7 * 2 ^ 4 + 0x40 * 2 ^ 16))
    waybill := [(0x10, frame 1 1 0 0), (0x20, frame 1 1 0 0), (0x30, frame 1 1 0 0), (0x40, frame 1 1 0 0)] }
theorem witness_fill : let rq := walked.requester 2048 .system
    (∀ e ∈ walked.tlb, e.hits rq.unit rq 0x1000 walked.dtime = false ∧ e.hits rq.shared rq 0x1000 walked.dtime = false) ∧ rq.kn = some .host ∧ rq.root = 0x100000 ∧
    leNat (walked.readLoc 8 (.phys 0x100000)) = 3 + 0x20 * 2 ^ 16 ∧ leNat (walked.readLoc 8 (.phys 0x200000)) = 3 + 0x30 * 2 ^ 16 ∧
    leNat (walked.readLoc 8 (.phys 0x300000)) = 1 + 7 * 2 ^ 4 + 0x40 * 2 ^ 16 ∧ (0x1000 / 2 ^ 42 % 64 = 0 ∧ 0x1000 / 2 ^ 29 % 8192 = 0 ∧ 0x1000 / 2 ^ 16 % 8192 = 0) ∧
    permits true true true .load = true ∧ physKind (0x400000 + 0x1000) ≠ .absent ∧ walked.waybillCheck 0x100000 (some .host) = none ∧
    walked.waybillCheck 0x200000 (some .host) = none ∧ walked.waybillCheck 0x300000 (some .host) = none ∧
    walked.waybillCheck (0x400000 + 0x1000) (some .host) = none ∧ walked.tlb.length < 8 := by decide +kernel
/-- O49: a device's page at port 3, and a port that is none. -/
def dmaPage : TlbEntry := ⟨3000, .host, 0, true, 0, 16, 0x20000, true, true, false, false, none⟩
theorem witness_dma : (4 : Nat) ≤ 4 ∧ (3 : Nat) < 4 ∧ (let s := ({ core with tlb := [dmaPage] } : State)
    s.tlb.find? (fun x => x.hits (s.portRequester 3).unit (s.portRequester 3) 0xFFFF s.dtime) = some dmaPage ∧ (0xFFFF : Nat) % 0x10000 + 1 ≤ 0x10000 ∧
    physKind (dmaPage.pa + 0xFFFF % 2 ^ dmaPage.sz) ≠ .io ∧ dmaPage.w = true ∧ dmaPage.r = true ∧ s.writeBad (.phys 0x2FFFF) 1 = false ∧ s.readBad (.phys 0x2FFFF) 1 = false) := by
  decide +kernel
/-- O49: a page that may be neither read nor written, and a port whose root frame its kernel does not hold. -/
theorem witness_dma_refused : (let e := { dmaPage with r := false, w := false }
      let s := ({ core with tlb := [e] } : State)
      s.tlb.find? (fun x => x.hits (s.portRequester 3).unit (s.portRequester 3) 0xFFFF s.dtime) = some e ∧ e.w = false ∧ e.r = false) ∧
    (∀ e ∈ core.tlb, e.hits (core.portRequester 3).unit (core.portRequester 3) 0xFFFF core.dtime = false) ∧
    core.waybillCheck (core.portRequester 3).root (some .host) ≠ none := by decide +kernel

/-! Results, entries, switches. -/

/-- O50: a result that is due with an older one of its register, and one that an engine owes; a shadow to land again; a part to bind. -/
theorem witness_land : isT 0 = true ∧ (let f : InFlight := { due := some 0, land := .x 3 1, org := {} }
    f.wait = false ∧ (∃ d, f.due = some d ∧ d ≤ (strand.tile 0).adv) ∧ (3 : XReg) ≠ 0 ∧ ({ f with wait := true } : InFlight).wait = true) := by
  refine ⟨by decide, rfl, ⟨0, rfl, by decide⟩, by decide, rfl⟩
theorem witness_reland : isT 0 = true ∧ (strand.tile 0).presence = .present ∧ (strand.tile 0).shared = false ∧ (strand.hart 0).priv = .user ∧ (strand.hart 0).run = .running := by
  decide
theorem witness_bind : let s := (arbitrated 0 0).mapMe (fun x => { x with vq := [⟨0, 3, false⟩] })
    (s.tile 0).shared = true ∧ (s.tile 0).dealtAt ≠ some s.clk ∧ (s.hart 0).vq = [⟨0, 3, false⟩] ∧ 3 < 4 ∧ (∀ j : Fin 4, j ≠ 0 → (s.hart (4 * 0 + j.val)).vq = []) := by decide

/-- O51: a late fault, STEP, an interrupt, nothing, and a strand that does not run. -/
theorem witness_entries : let f : LateFault := ⟨0x31, 1, 0, true, { order := 3 }⟩
    let g : LateFault := ⟨0x31, 2, 0, true, { order := 5 }⟩
    isCore 0 = true ∧ (strand.tile 0).csize ≤ 1 ∧ (strand.hart 0).run = .running ∧ (strand.hart 0).priv = .user ∧ (strand.hart 0).late = [] ∧ (strand.hart 0).step = none ∧
    (strand.hart 0).irqs = [] ∧ (∀ x ∈ [g], f.org.order < x.org.order) ∧ (∀ x ∈ ([] : List LateFault), f.org.order ≤ x.org.order) ∧
    (strand.mapMe (fun x => { x with late := [g, f] })).me.late = [g] ++ f :: [] ∧ (strand.mapMe (fun x => { x with step := some 4 })).me.step = some 4 ∧
    (strand.mapMe (fun x => { x with irqs := [(2, 7)] })).me.irqs = [(2, 7)] ∧ (State.reset.hart 1).run = .inactive := by decide
/-- O51: a record that waits for its slot, which is FREE and is not. -/
def recording (st : Nat) : State :=
  { strand with tlb := [hubPage], recs := [⟨0, List.replicate 64 2, some 0x40, none⟩], mem := memWrite [] 0x20041 (leBytes 1 st) }
theorem witness_record_write : (recording 0).recs[0]? = some ⟨0, List.replicate 64 2, some 0x40, none⟩ ∧ (List.replicate 64 (2 : Byte)).length = 64 ∧
    (recording 0).tlb.find? (fun x => x.hits ((recording 0).hubIn 0).unit ((recording 0).hubIn 0) 0x40 (recording 0).dtime) = some hubPage ∧
    hubPage.r = true ∧ hubPage.w = true ∧ hubPage.k = false ∧ physKind (hubPage.pa + 0x40 % 2 ^ hubPage.sz) ≠ .io ∧
    (recording 0).readBad (.phys (hubPage.pa + 0x40 % 2 ^ hubPage.sz)) 64 = false ∧ (recording 0).memNat (hubPage.pa + 0x40 % 2 ^ hubPage.sz + 1) 1 = 0 ∧
    (recording 1).memNat (hubPage.pa + 0x40 % 2 ^ hubPage.sz + 1) 1 ≠ 0 := by decide +kernel
/-- O51: kicks of both kinds, of strands that are frozen at a fetch and at the call ring. -/
theorem witness_kicks : (511 : Nat) < 512 ∧ (1 : Word).msb = false ∧ (0x8000000000000003 : Word).msb = true ∧ (0x8000000000000003 : Word).getLsbD 1 = true ∧
    (let s := ({ strand with harts := [(0, { run := .frozen .fetch, undelivered := some ⟨1, 2, 3, 4, 5, none, 0, none⟩ }), (1, { run := .frozen .callRing, undelivered := some ⟨1, 2, 3, 4, 5, none, 0, none⟩ })] } : State)
     (s.hart 0).run = .frozen .fetch ∧ (s.hart 1).run = .frozen .callRing ∧ (s.hart 0).undelivered = some ⟨1, 2, 3, 4, 5, none, 0, none⟩) := by decide

/-- O52: no switch, one that is armed and due and not, one that saves tile 3, and one that restores it as its last and not. -/
def switching (w : Switch) (ctx : Nat) : State :=
  { strand with
    switches := [(15, w)], clk := 100, io := memWrite (memWrite State.reset.io (0x08F10000C000 + 128 * 15) (leBytes 1 8)) (0x08F10000C040 + 128 * 15) (leBytes 2 ctx) }
theorem witness_switch :
    (strand.switch? 15 = none ∧ (15 : Nat) < 16) ∧ (2999 : Nat) < strand.dtime + 3000 ∧ strand.dtime + 3000 ≤ 3000 ∧
    (let w : Switch := { swt := 50, inctx := 2 }
     (switching w 0).switch? 15 = some w ∧ w.stage = .armed ∧ w.swt ≤ (switching w 0).dtime ∧ ((switching w 0).ioRead (0x08F10000C000 + 128 * 15) 64).testBit 3 = true ∧
     ((switching w 0).tile 3).presence = .present ∧ (switching w 0).dtime < ({ w with swt := 51 } : Switch).swt) ∧
    (let w : Switch := { swt := 50, inctx := 2, stage := .saving, todo := [3] }
     (switching w 0).switchOf 3 .saving = some (15, w) ∧ (switching w 0).switchOf 4 .saving = none ∧ (switching w 0).drained 3 = true ∧
     (∀ i < 4, ∀ q : PortNo, ((switching w 0).hart (4 * 3 + i)).ports[q].pend = [])) ∧
    (let w : Switch := { swt := 50, inctx := 2, stage := .restoring, todo := [3] }
     (switching w 0).switchOf 3 .restoring = some (15, w) ∧ (switching w 0).ioRead (0x08FA00000000 + 12) 4 = (switching w 0).ioRead (0x08FA00000000 + 16) 4 ∧
     (∀ v ∈ w.todo, v = 3) ∧ ¬ (∀ v ∈ ({ w with todo := [3, 4] } : Switch).todo, v = 3) ∧ (switching w 0).crashed = false ∧
     (switching w 0).images.find? (fun i => i.ctx == w.inctx && i.tile == 3) = none ∧ (switching w 0).switches.find? (fun x => x.1 == 15) = some (15, w)) := by decide +kernel
theorem witness_image : ∃ i, ({ strand with images := [⟨2, 3, {}, [{}, {}, {}, {}], Vector.replicate 4 {}⟩] } : State).images.find? (fun i => i.ctx == 2 && i.tile == 3) = some i :=
  ⟨_, rfl⟩
/-! The yard, launches, the hub's tables, the package. -/

/-- Queues 1 and 2 wait, the second at a higher priority; queue 3 is mapped. -/
def yard : State :=
  { strand with
    clk := 20000
    tlb := [hubPage]
    queues := [(1, { valid := true, sz := 4, prio := 1, st := .waiting }), (2, { valid := true, sz := 4, prio := 7, st := .waiting }),
      (3, { valid := true, hdr := 0x1000, sz := 4, prio := 0, st := .mapped, widx := 1, busyAt := 1 })] }
/-- 32 mapped queues, and queue 40 that waits. -/
def fullYard (prio : Nat) : State := { yard with queues := (40, { valid := true, prio := prio, st := .waiting }) :: (List.range 32).map (fun i => (i, { valid := true, prio := 3, st := .mapped, since := i })) }
def raisedOf (s : State) (q : Nat) : Nat := (s.queue q).prio + min ((s.dtime - (s.queue q).since) / 65536) (7 - (s.queue q).prio)
theorem witness_notify : (strand.queue 0).valid = false ∧ ((yard.queue 1).valid = true ∧ (yard.queue 1).st ≠ .overrun ∧ (yard.queue 1).widx.toNat < (1 : Word).toNat ∧
    2 ^ (yard.queue 1).sz < ((17 : Word) - (yard.queue 1).ridx).toNat ∧ ((16 : Word) - (yard.queue 1).ridx).toNat ≤ 2 ^ (yard.queue 1).sz) ∧
    ({ st := .idle } : UQueue).st = .idle ∧ (yard.queue 1).st ≠ .idle := by decide
theorem witness_yard_choice : (yard.queues.map (·.1)).Nodup ∧ (yard.queue 2).st = .waiting ∧ (yard.queue 3).st ≠ .waiting ∧ raisedOf yard 1 < raisedOf yard 2 ∧
    ¬ 32 ≤ (yard.queues.filter (fun x => x.2.st == .mapped)).length ∧ 32 ≤ ((fullYard 7).queues.filter (fun x => x.2.st == .mapped)).length ∧
    ((fullYard 7).queue 0).st = .mapped ∧ ((fullYard 7).queue 0).prio < raisedOf (fullYard 7) 40 ∧
    (∀ w < 32, w ≠ 0 → ((fullYard 7).queue 0).prio = ((fullYard 7).queue w).prio ∧ ((fullYard 7).queue 0).since < ((fullYard 7).queue w).since) ∧
    (∀ r < 32, raisedOf (fullYard 2) 40 < ((fullYard 2).queue r).prio) := by decide +kernel
theorem witness_idle_and_take : ((yard.queue 3).st = .mapped ∧ (yard.queue 3).ridx.toNat < (yard.queue 3).widx.toNat ∧
    yard.hubRead 0 ((yard.queue 3).hdr.toNat + 64 + (yard.queue 3).ridx.toNat % 2 ^ (yard.queue 3).sz * 64) 64 = (.ok (List.replicate 64 0), yard)) ∧
    ({ (yard.queue 3) with widx := 0 } : UQueue).ridx = ({ (yard.queue 3) with widx := 0 } : UQueue).widx ∧ (yard.queue 3).busyAt + 4096 ≤ yard.dtime := by decide +kernel
theorem witness_queue_register : (1023 : Nat) < 1024 ∧ State.reset.ioRead (0x08F000000000 + 32 * 1023 + 8) 1 < 4 ∧
    (let s := ({ State.reset with io := memWrite State.reset.io (0x08F000000000 + 8) [16, 7] } : State)
     s.ioRead 0x08F000000000 8 % 64 = 0 ∧ 4 ≤ s.ioRead (0x08F000000000 + 8) 1 ∧ s.ioRead (0x08F000000000 + 8) 1 ≤ 16 ∧ s.ioRead (0x08F000000000 + 9) 1 ≤ 7) := by decide

/-- O54: a launch packet of one fixed tile that is accepted, and one that is not. -/
def packet (kind : Byte) : List Byte := [kind, 0, 1, 1, 1] ++ List.replicate 59 0
def launching : State :=
  { State.reset with
    ctxs := [(1, { valid := true, part := 15 })]
    io := memWrite (memWrite State.reset.io (0x08F10000C000 + 128 * 15) (leBytes 1 8)) (0x08F10000C040 + 128 * 15) (leBytes 2 1)
    events := [⟨0, 0, 1, packet 1⟩]
    launches := [(7, { ctx := 1, queue := some (0, 0), record := none, bytes := packet 1, size := 1, begun := true, card := List.replicate 128 0 })] }
theorem witness_signal_box : launching.turn = 0 ∧ launching.events = [⟨0, 0, 1, packet 1⟩] ∧ launching.recCheck 1 (packet 1) true = 0 ∧ launching.recCheck 1 (packet 9) true ≠ 0 ∧ strand.events = [] := by
  decide +kernel
def launchOf (s : State) : Launch := (s.launch? 7).getD { ctx := 0, queue := none, record := none, bytes := [] }
theorem witness_place : launching.launch? 7 = some (launchOf launching) ∧ (launchOf launching).begun = true ∧ (launchOf launching).ending = false ∧ launching.crashed = false ∧
    Rec.kind (launchOf launching).bytes = 1 ∧ recClass (launchOf launching).bytes ≠ 2 ∧ (launchOf launching).handoff = none ∧ (launchOf launching).bytes.length = 64 ∧
    launching.resident 1 = true ∧ ((launching.partTiles 1).filter launching.tileFree).take (1 - 0) = [3] ∧ strand.resident 1 = false ∧ strand.launch? 7 = none ∧
    (({ launching with tiles := [(3, { launch := some 7 })] } : State).partTiles 1).filter ({ launching with tiles := [(3, { launch := some 7 })] } : State).tileFree = [] := by
  decide +kernel
/-- O54: launches that may start: a fixed one, a CONCURRENT one of one tile, and ones with HANDOFF from tile 3, which is free, and from tile 2, which is not its partition's. -/
def unplaced (class' : Byte) (more : List (Nat × Launch)) : State :=
  { launching with
    tlb := [hubPage]
    launches := (7, { ctx := 1, queue := some (0, 0), record := none, bytes := (packet 1).set 1 class', size := 1 }) :: more }
theorem witness_first_place : (∀ b ∈ [(0 : Byte), 8], let s := unplaced b []
      s.launch? 7 = some (launchOf s) ∧ (launchOf s).begun = false ∧ (launchOf s).ending = false ∧ s.crashed = false ∧ Rec.kind (launchOf s).bytes = 1 ∧
      (launchOf s).handoff = none ∧ s.mayStart 7 (launchOf s) = true ∧ s.resident 1 = true ∧
      s.hubRead 1 (Rec.card (launchOf s).bytes) 64 = (.ok (List.replicate 64 0), s) ∧ Card.on (List.replicate 64 0) = false ∧ coverBad (List.replicate 64 0) = false ∧
      (s.hubWrite 1 (Rec.card (launchOf s).bytes + 32) (leBytes 8 0 ++ leBytes 4 1)).1 = none ∧
      ((s.partTiles 1).filter s.tileFree).take 1 = [3]) ∧
    recClass (launchOf (unplaced 8 [])).bytes = 2 ∧ recClass (launchOf (unplaced 0 [])).bytes ≠ 2 ∧
    (3 ∈ (unplaced 8 []).partTiles 1 ∧ (unplaced 8 []).tileFree 3 = true ∧ 2 ∉ (unplaced 8 []).partTiles 1 ∧ 3 % 16 + 1 ≤ 16 ∧ 3 / 16 + 1 ≤ 32) ∧
    (∀ u ∈ [3, 2], let l := { launchOf (unplaced 0 []) with handoff := some (u, 0x00100000) }
     let s := ({ unplaced 0 [] with launches := [(7, l)] } : State)
     s.launch? 7 = some l ∧ s.mayStart 7 l = true ∧ l.tiles = [] ∧ ((u ∈ s.partTiles 1 ∧ s.tileFree u = true) ↔ u = 3)) ∧
    (∃ f, unplaced 0 [] = f ∧ ({ f with events := [] } : State).events = []) := by
  refine ⟨by decide +kernel, by decide, by decide, by decide +kernel, by decide +kernel, ⟨_, rfl, rfl⟩⟩

/-- O54: a tile whose part has ended, and a launch that is complete, of a packet and of a record, and one that ends. -/
def finishing (mode : Word) (record : Option Nat) (ending : Bool) : State :=
  { launching with
    tiles := [(3, { mode := mode, launch := some 7 })]
    launches := [(7, { ctx := 1, queue := none, record := record, bytes := packet 1, tiles := [3], size := 1, begun := true, ended := if ending then 0 else 1, card := List.replicate 128 0, ending := ending })]
    ctxs := [(1, { valid := true, part := 15, drecs := 1 })], depots := [(4096, { bytes := List.replicate 20 0 ++ List.replicate 12 0xFF ++ List.replicate 32 0, st := .running })] }
theorem witness_ends : ((finishing 0 none false).tile 3).launch = some 7 ∧ (launchOf (finishing 0 none false)).ending = false ∧ ((finishing 0 none false).tile 3).presence = .present ∧
    (finishing 0 none false).partDone 3 = true ∧ (finishing 2 none false).partDone 3 = false ∧ (strand.tile 3).launch = none ∧
    (let l := launchOf (finishing 0 none false)
     l.begun = true ∧ l.tiles.length = l.size ∧ l.ended = l.size ∧ Card.on l.card = false ∧ l.record = none ∧ Rec.sig l.bytes = 0) ∧
    (let s := finishing 0 (some 0) false
     (launchOf s).record = some 0 ∧ Rec.succ (s.depot 1 0).bytes = [] ∧ Rec.sig (s.depot 1 0).bytes = 0) ∧ (launchOf (finishing 2 none true)).ending = true := by decide +kernel
/-- O54: a request to end a launch that runs, and requests that name none. -/
theorem witness_end_request : let s := ({ finishing 2 (some 0) false with launches := [(7, { launchOf (finishing 2 (some 0) false) with ended := 0 })] } : State)
    2 ^ 20 ≤ (0x100000 : Word).toNat ∧ (0xFFFFF : Word).toNat < 2 ^ 20 ∧ (s.ctx 255).drecs ≤ 4095 ∧ (0x1000 : Word).toNat / 4096 = 1 ∧ (0x1000 : Word).toNat % 4096 < (s.ctx 1).drecs ∧
    (s.depot 1 0).st = .running ∧ s.launches.find? (fun m => m.2.ctx == 1 && m.2.record == some 0 && m.2.begun && !m.2.ending) = some (7, launchOf s) ∧
    3 ∈ (launchOf s).tiles ∧
    (launchOf s).ended + ((launchOf s).tiles.eraseDups.filter (fun u => (s.tile u).launch == some 7)).length ≤ (launchOf s).size ∧ (s.tile 3).launch = some 7 ∧ s.partDone 3 = false := by decide +kernel

/-- O55: entries of the context table that are right, with a depot of two records and with none, and that are wrong; depots that are busy and not. -/
def registering (depot drecs : Nat) : State := { yard with io := memWrite State.reset.io (0x08F100000000 + 128 * 0) (leBytes 8 depot ++ leBytes 2 drecs) }
theorem witness_contexts : (registering 0x1000 2).ioRead 0x08F100000000 8 = 0x1000 ∧ (registering 0x1000 2).ioRead 0x08F100000008 2 = 2 ∧
    (registering 0x1000 2).ioRead 0x08F100000010 8 % 64 = 0 ∧ (registering 0x1000 2).ioRead 0x08F100000018 1 ≤ 15 ∧ (registering 0x1000 4097).ioRead 0x08F100000008 2 = 4097 ∧
    (registering 0x1000 2).readDepot 0 0x1000 2 = (some [List.replicate 64 0, List.replicate 64 0], registering 0x1000 2) ∧ (registering 0 0).readDepot 0 0 0 = (some [], registering 0 0) ∧
    (255 : Nat) < 256 ∧ (∃ i < ((finishing 2 none true).ctx 1).drecs, ((finishing 2 none true).depot 1 i).st = .ready ∨ ((finishing 2 none true).depot 1 i).st = .running) ∧
    ¬ (∃ i < (strand.ctx 1).drecs, (strand.depot 1 i).st = .ready ∨ (strand.depot 1 i).st = .running) := by decide +kernel
theorem witness_partitions : let map := fun (s : State) (q : Nat) => s.ioRead (0x08F10000C000 + 128 * q) 64
    map launching 15 = 8 ∧ (map launching 15 &&& 8 ≠ 0) ∧ (map launching 15).testBit 3 = true ∧ ((finishing 2 none false).tile 3).launch.isSome = true ∧ map strand 15 = 0 := by decide +kernel
theorem witness_roots : State.reset.ioRead (0x08FF00000000 + 15 * 0x10000 + 10) 6 = 0 ∧ State.reset.ioRead (0x08FF00000000 + 15 * 0x10000) 2 = 0 ∧ (0x10000 : Word).toNat % 2 ^ 16 = 0 ∧
    (1 : Word).toNat % 2 ^ 16 ≠ 0 ∧ (0xFFFF : Word).toNat < 2 ^ 16 ∧ 2 ^ 16 ≤ (0x10000 : Word).toNat := by decide
theorem witness_hub_tables : State.reset.bootok = false ∧ ({ State.reset with io := memWrite State.reset.io 0x08F400000001 [8] } : State).bootok = true ∧
    ((switching { swt := 50, inctx := 2 } 0).switch? 15).isSome = true ∧ strand.switch? 15 = none ∧ (0xFFF7 : Nat) < 0xFFF8 ∧ Kernel.host ≠ .monitor ∧ Config.gcoreKernel 11 = .host := by
  decide +kernel

/-- O56: a unit below its threshold and at it, with a spare left and none; repairs that are under way; a pending retirement of a tile that no launch holds. -/
theorem witness_errors : strand.errCount (.sramRow 3 1) 0 + 1 < 4 ∧ ({ strand with buckets := [(.sramRow 3 1, 0, 3)] } : State).errCount (.sramRow 3 1) 0 + 1 = 4 ∧ look 0 strand.spares 3 < 512 ∧
    ¬ look 0 ({ strand with spares := [(3, 512)] } : State).spares 3 < 512 ∧ (strand.link 0).lanes = 8 ∧ ({ strand with links := [(0, { lanes := 7 })] } : State).link 0 = { lanes := 7 } ∧
    ((17 * (3 / 16) + 3, 1) ∈ ({ strand with sparing := [(3, 1)] } : State).sparing ∧ (3, 1) ∉ strand.sparing ∧ (3 < 512 ∧ 7 < 8 ∧ 31 < 32 ∧ 15 < 16 ∧ ¬ 8 < 8)) ∧ ((0, 1, 2) ∈ ({ strand with repairing := [(0, 1, 2)] } : State).repairing ∧ (0, 1, 2) ∉ strand.repairing) ∧
    (({ strand with links := [(0, { retrain := true })] } : State).link 0).retrain = true ∧ (strand.link 0).retrain = false := by decide
theorem witness_uncorrectable : 1024 * 5 < 2 ^ 54 ∧ physKind (64 * (1024 * 5)) ≠ .io ∧ 1024 * 5 ∈ ({ framed (frame 1 1 0 0) 0 with bad := [1024 * 5] } : State).bad ∧ 1024 * 5 ∉ core.bad ∧
    (framed (frame 1 1 0 0) 0).wb (1024 * 5 / 1024) = some (frame 1 1 0 0) ∧ wbState (frame 1 1 0 0) ≠ 5 ∧ 64 * (1024 * 5) < 0x00C000000000 ∧ 0x00C000000000 ≤ 64 * (0x00C000000000 / 64) ∧
    0x2FFF < 0x3000 ∧ 0x2FFF ∈ (({ strand with tiles := [(3, { bad := [0x2FFF] })] } : State).tile 3).bad ∧ 0x2FFF ∉ (strand.tile 3).bad ∧ (strand.tile 3).presence ≠ .retired := by decide +kernel
theorem witness_remap : let s := ({ strand with pendingRet := [511] } : State)
    511 ∈ s.pendingRet ∧ s.holdsTile 511 = false ∧ look [] s.retired 31 = [] ∧ ((List.range 17).filter (fun p => !([] : List Nat).contains p))[15]? = some 15 ∧
    (∀ c < 16, s.holdsTile (16 * 31 + c) = false) ∧ (∀ u ∈ s.pendingRet, u / 16 = 31 → u = 511) ∧ 3 ∉ s.pendingRet ∧ (finishing 2 none true).holdsTile 3 = true := by decide +kernel

/-- O57: the states of the resident kernel, a beat that is missed and one that is not, a frozen core, and the bounds of the period. -/
def resident (state : Nat) : State := { strand with io := memWrite State.reset.io 0x08F50000000A (leBytes 1 state) }
theorem witness_resident : let rstate := fun (s : State) => s.ioRead 0x08F50000000A 1 % 4
    rstate strand = 0 ∧ rstate (resident 2) = 2 ∧ rstate (resident 3) = 3 ∧ (resident 8).ioRead 0x08F50000000A 1 / 4 % 4 = 2 ∧
    (let s := ({ strand with clk := 3000000000 } : State)
     s.beatAt + s.ioRead 0x08F500000008 2 * 1500000 ≤ s.dtime) ∧ ¬ (strand.beatAt + strand.ioRead 0x08F500000008 2 * 1500000 ≤ strand.dtime) ∧
    (∃ c < 16, 12 ≤ c ∧ (({ strand with harts := [(2063, { run := .frozen .fetch })] } : State).hart (2048 + c)).run = .frozen .fetch) ∧
    (10 ≤ (10 : Word).toNat ∧ (10000 : Word).toNat ≤ 10000) ∧ ¬ (10 ≤ (9 : Word).toNat) := by decide +kernel

/-- O58: the package on, with BOOTOK and without, in safelight mode, and off, with a reason and without; the states of SPDM. -/
theorem witness_package : (strand.power = .on ∧ strand.bootok = false ∧ strand.ioRead 0x08F400000001 1 % 4 = 0) ∧
    ({ State.reset with io := memWrite State.reset.io 0x08F400000001 [8 + 2] } : State).bootok = true ∧ ({ State.reset with io := memWrite State.reset.io 0x08F400000001 [8 + 2] } : State).ioRead 0x08F400000001 1 % 4 = 2 ∧
    ({ strand with power := .safelight } : State).power = .safelight ∧ (({ strand with power := .off } : State).power = .off ∧ strand.trips = []) ∧ ({ strand with trips := [3] } : State).trips ≠ [] ∧
    (strand.dtime < 180000000000 ∧ 180000000000 ≤ ({ strand with clk := 360000000000 } : State).dtime) ∧ strand.spdm ≠ 3 ∧ ({ strand with spdm := 3 } : State).spdm = 3 ∧ ({ strand with spdm := 1 } : State).spdm = 1 ∧ ({ strand with spdm := 2 } : State).spdm = 2 ∧
    ({ State.reset with power := .safelight, io := memWrite State.reset.io 0x08F400000001 [4] } : State).ioRead 0x08F400000001 1 / 4 % 2 = 1 ∧ (8 : Nat) ≠ 4 ∧ (2 : Fin 16) ≠ 4 ∧ (2 : Fin 16) ≠ 7 ∧ (255 : Nat) < 256 ∧ ¬ (256 : Nat) < 256 := by
  decide +kernel
/-- O59: a clock that heat slows and not; a link that is due, dead, and down; an extent of CXL frames, and requests that are none. -/
theorem witness_monitoring : (look {} ({ strand with clocks := [(1, { warm := [5] })] } : State).clocks 1).warm ≠ [] ∧ (look {} strand.clocks 1).warm = [] ∧ (15 : Nat) < 16 ∧
    ((strand.link 15).up = true ∧ (strand.link 15).sent + 150000 ≤ ({ strand with clk := 300000 } : State).dtime ∧ (strand.link 15).heard + 75000000 ≤ ({ strand with clk := 150000000 } : State).dtime ∧
      strand.dtime < (strand.link 15).heard + 75000000 ∧ ({ up := false } : Link).up = false) ∧
    (3 < 4 ∧ 0x10000 % 0x10000 = 0 ∧ 0x10000 ≠ 0 ∧ (∀ f < 2, physKind ((0x10000000 + f) * 0x10000) = .cxl) ∧ physKind 0 ≠ .cxl ∧ 0x10000000 + 3 * 0x1000000 ≤ 0x13000000 ∧ ¬ 0x10000000 + 3 * 0x1000000 ≤ 0x12FFFFFF) ∧
    (3 < 4 ∧ 7 < 8 ∧ ¬ 8 < 8 ∧ 15 < 16 ∧ ¬ 4 < 4) ∧
    (0x10000000 ∈ ({ strand with extents := [(0x10000000, false)] } : State).extents.map (·.1) ∧ 0x10000000 ∉ strand.extents.map (·.1)) := by decide +kernel
/-! Boundary states: numbers, deliveries, walks, ports, copies. -/

/-- A number on the grid is what it rounds to. -/
theorem roundsTo_self {mode : Rm} {p : Nat} {g : Option ℤ} {x : ℚ} (h : OnGrid p g x) : RoundsTo mode p g x x where
  grid := h
  rne _ u _ := ⟨by simp, fun e n => by
    have z : x - u = 0 := abs_eq_zero.1 (by simpa using e.symm)
    exact absurd (by linarith) n⟩
  rtz _ := ⟨le_refl _, mul_self_nonneg x, fun _ _ h => h⟩
  rup _ := ⟨le_refl _, fun _ _ h => h⟩
  rdn _ := ⟨le_refl _, fun _ _ h => h⟩
/-- O5: in E4M3 the largest finite value, which is delivered, and 2^20, which overflows. -/
theorem witness_overflow (mode : Rm) : RoundsTo mode 3 (some (-9)) 448 448 ∧ |(448 : ℚ)| ≤ 448 ∧
    RoundsTo mode 3 (some (-9)) (2 ^ 20) (2 ^ 20) ∧ (448 : ℚ) < |2 ^ 20| := by
  refine ⟨roundsTo_self ⟨14, 5, by norm_num, by norm_num, by simp⟩, by norm_num, roundsTo_self ⟨1, 20, by norm_num, by norm_num, by simp⟩, by norm_num⟩

/-- O13, O51: a trap of a core at USER, whose handler frame lies below x2. -/
theorem witness_delivers_core : trapping.Delivers 2048 0x1FC0 (.phys 0x11FC0) 0 0 0 where
  memories := ⟨by decide, by decide, by decide, by decide⟩
  user := by decide
  still := by decide
  vector := by decide
  place := ⟨by decide, by decide, .inr ⟨fun h => absurd h (by decide), 0x11FC0, ⟨by decide, by unfold Loc.isMemory; decide, by decide,
    page, by decide, by decide, by decide, by decide⟩, rfl, by decide, by decide⟩⟩
  core := by decide
  strand h := absurd h (by decide)
/-- O13, O51: one of a strand, whose context has a ring of 16 free slots, and whose frame is at the base of its scratchpad. -/
def slotted : State :=
  { strand with
    ctxs := [(0, { valid := true, tvec := 0x8000, fring := 0x1000 })]
    tlb := [⟨0, .resident, 0, true, 0, 16, 0x20000, true, true, false, false, none⟩]
    mem := memWrite [] 0x21000 (leBytes 8 0x2000 ++ leBytes 4 16 ++ leBytes 4 0 ++ leBytes 8 0 ++ leBytes 8 aliasBase ++ leBytes 4 64) }
theorem witness_delivers_strand : slotted.Delivers 0 (BitVec.ofNat 64 aliasBase) (.scratch 0 0) 0x2000 0x21000 0x22000 where
  memories := ⟨by decide, by decide, by decide, by decide⟩
  user := by decide
  still := by decide
  vector := by decide
  place := ⟨by decide, by decide, .inl ⟨by decide, 0, by decide, by decide, rfl⟩⟩
  core := by decide
  strand _ := ⟨by decide,
    ⟨by decide, by unfold Loc.isMemory; decide, by decide, ⟨0, .resident, 0, true, 0, 16, 0x20000, true, true, false, false, none⟩, by decide, by decide, by decide, by decide⟩,
    ⟨by decide, by unfold Loc.isMemory; decide, by decide, ⟨0, .resident, 0, true, 0, 16, 0x20000, true, true, false, false, none⟩, by decide, by decide, by decide, by decide⟩,
    ⟨4, by decide⟩, by decide, by decide,
    ⟨by decide, by unfold Loc.isMemory; decide, by decide, ⟨0, .resident, 0, true, 0, 16, 0x20000, true, true, false, false, none⟩, by decide, by decide, by decide, by decide⟩,
    by decide, by decide⟩
theorem witness_delivers_rest : trapping.ready ∧ slotted.ready ∧ slotted.cur = 0 ∧ slotted.myTile.csize ≤ 1 ∧ slotted.myTile.presence = .present := by decide

/-- O17, O18: numbers that no table lists, and flags of a core that have landed in the cycle at hand. -/
theorem witness_unlisted : (0x004 : BitVec 12).toNat = 4 ∧ (0xFFF : BitVec 12).toNat = 4095 ∧ (core.mapMe (fun x => { x with landed := 1 })).me.landed ≠ 0 ∧
    (core.mapMe (fun x => { x with landedNow := 1 })).me.landedNow ≠ 0 ∧ (core.mapMe (fun x => { x with landed := 1 })).readyG := by decide

/-- O21: a root whose frame its kernel does not hold; an entry that is not valid, below a node that is; a leaf whose frame has been recalled. -/
theorem witness_walk_waybill : core.WalkFails (core.requester 2048 .system) .host 0x1000 .load 0x12 :=
  ⟨0, _, .root, .inl ⟨0, by decide, .inr (.inr ⟨rfl, by unfold framePasses; decide, by unfold frameRecalled framePasses; decide⟩)⟩⟩
/-- The frames of the tables of O48's walk pass. -/
theorem walked_passes : ∀ f ∈ [0x10, 0x20, 0x30], walked.frameGives (f * 0x10000) .host none := by
  intro f h
  simp only [List.mem_cons, List.not_mem_nil, or_false] at h
  rcases h with rfl | rfl | rfl <;> exact ⟨frame 1 1 0 0, by decide, .inl ⟨rfl, by unfold framePasses; decide⟩⟩
theorem witness_walk_page : walked.WalkFails (walked.requester 2048 .system) .host (5 * 2 ^ 29) .load 0x10 := by
  have p : walked.pteAt 0x100000 (5 * 2 ^ 29) 0 = 3 + 0x20 * 2 ^ 16 := by decide +kernel
  have n : pteNext (3 + 0x20 * 2 ^ 16) = 0x20 * 0x10000 := by decide
  refine ⟨1, 0x20 * 0x10000, ?_, .inr ⟨walked_passes 0x20 (by simp), .inl ⟨rfl, by decide +kernel⟩⟩⟩
  rw [← n, ← p]
  exact .down .root (walked_passes 0x10 (by simp)) (by decide +kernel) (by rw [p]; unfold PteBad; decide)
theorem witness_walk_misses (v : Nat) : ∀ e ∈ walked.tlb, e.hits (walked.requester 2048 .system).unit (walked.requester 2048 .system) v walked.dtime = false ∧
    e.hits (walked.requester 2048 .system).shared (walked.requester 2048 .system) v walked.dtime = false := fun _ h => nomatch h
def recalled : State := { walked with waybill := [(0x10, frame 4 2 1 0)] }
theorem witness_walk_recalled : recalled.WalkFails (recalled.requester 2048 .system) .host 0x1000 .load 0x13 :=
  ⟨0, _, .root, .inl ⟨frame 4 2 1 0, by decide, .inr (.inl ⟨rfl, by unfold frameRecalled framePasses; decide⟩)⟩⟩
/-- O21: an entry with bit 9 set. -/
def malformed : State := { walked with mem := memWrite walked.mem 0x100000 (leBytes 8 (3 + 2 ^ 9 + 0x20 * 2 ^ 16)) }
theorem witness_walk_perm : malformed.WalkFails (malformed.requester 2048 .system) .host 0x1000 .load 0x11 :=
  ⟨0, _, .root, .inr ⟨⟨frame 1 1 0 0, by decide, .inl ⟨rfl, by unfold framePasses; decide⟩⟩, .inr (.inl ⟨rfl, by decide +kernel, by unfold PteBad; decide +kernel⟩)⟩⟩
theorem witness_walk_ready : core.ready ∧ walked.ready ∧ recalled.ready ∧ walked.pathBusy = false ∧ (walked.requester 2048 .system).kn = some .host ∧
    (5 * 2 ^ 29 : Nat) % 8 = 0 ∧ 5 * 2 ^ 29 < 2 ^ 48 := by decide +kernel

/-- O26: the smallest and the largest NaN, a negative number, and quotients of each row. -/
theorem witness_special : (0x7F800000 < 0x7F800001 % 2 ^ 31 ∧ 0x7F800000 < 0xFFFFFFFF % 2 ^ 31 ∧ 0xFFFFFFFF < 2 ^ 32) ∧ (2 ^ 31 < 0x80000001 ∧ 0xFF7FFFFF < 0xFF800000) ∧
    (0 < 1 % 2 ^ 31 ∧ 0x7F7FFFFF < 0x7F800000 ∧ 0x80000000 % 2 ^ 31 = 0) := by decide

/-- O35: a relay at the end of the chain, with its message. -/
def relayed : Command := { started (.mchainRelay 0 0 false 0) 0 100 with place := some ⟨1, 2, none⟩ }
def relaying : State :=
  { chained with
    clk := 200
    tiles := [(0, chained.tile 0), (1, { chained.tile 1 with cmds := [relayed], chain := some ⟨1, false, 0, none, 1, []⟩ })] }
theorem witness_relay : relaying.chainPos 1 = (1, 2, none) ∧ (relaying.tile 1).DueFirst relaying.dtime relayed [] ∧ relayed.place = some ⟨1, 2, none⟩ ∧
    (relaying.tile 1).chain = some ⟨1, false, 0, none, 1, []⟩ := by
  refine ⟨by decide, dueFirst_of (by decide), rfl, rfl⟩

/-- O36, O37: a write port with an element put by, in an even and an odd turn; a port that closes with it. -/
def putBy (turn : Nat) : State :=
  { (recorded 0).mapMe (fun x => { x with ports := x.ports.set 5 { recordPort (recorded 0) with
      write := true, later := [⟨7, 7, [(.scratch 0 135, 1)], [9], [true]⟩], done := 8, pos := 8 } }) with turn := turn }
theorem witness_put_by : let q := (putBy 0).port 0 5
    q.later = [] ++ ⟨7, 7, [(.scratch 0 135, 1)], [9], [true]⟩ :: [] ∧ ([] : List Deferred).length = 0 / 2 % q.later.length ∧ (putBy 0).turn % 2 = 0 ∧
    q.cfg = true ∧ q.write = true ∧ q.fault = false ∧ q.pend = [] ∧ q.later ≠ [] ∧ ((putBy 0).tile 0).enginesOn = true ∧ ((putBy 0).tile 0).bad = [] ∧
    ({ writing with turn := 1 } : State).turn % 2 = 1 ∧ (writing.port 0 5).later = [] ∧ writing.turn % 2 = 0 ∧ (∀ z ∈ q.later, z.t ≠ 6) := by decide

/-- O38: a CPYGO whose two locks have no room, a transfer that is not handed over, and the same with room again. -/
def lockFull (n : Nat) : State :=
  let s := copying (copyOf 64 0) []
  s.setMyTile { s.myTile with locks := (List.range n).map (fun i => ⟨i, i, false, .port 3 0, i⟩) }
def unhanded : State :=
  let p := copyOf 64 0
  (copying p [{ id := 8, p := p, hart := 0, handed := false }]).mapMe (fun x => { x with cpygo := some p })
theorem witness_lock_room : (lockFull 15).myTile.locks.length + 2 > 16 ∧ (lockFull 14).myTile.locks.length + 2 ≤ 16 ∧ (lockFull 15).copyBarred (copyOf 64 0) = false ∧
    (copyOf 64 0).srcRemote (lockFull 15).pkgnum = false ∧ (copyOf 64 0).dstRemote (lockFull 15).pkgnum = false := by decide
theorem witness_unhanded : let y : Xfer := { id := 8, p := copyOf 64 0, hart := 0, handed := false }
    (unhanded.chan 0 0).live = [] ++ y :: [] ∧ y.hart = unhanded.cur ∧ y.handed = false ∧ unhanded.me.cpygo = some (copyOf 64 0) ∧ y.started = false ∧
    unhanded.myTile.locks.length + 2 ≤ 16 ∧ unhanded.myTile.dbgctl.getLsbD 0 = false ∧ (copyOf 64 0).empty = false := by decide

/-- O39: a message that waits for its strand's context, and one that goes to an inbox with room; the ways of one inbox. -/
def sidedMsg (target : Word) : PutqMsg := ⟨target, [1], 0, 0, .user, 4⟩
theorem witness_sided :
    (let s := ({ posted 0x4000000000000000 0 with tiles := [(0, { presence := .stopped })] } : State)
     (s.sided (sidedMsg 0x0000000000001000) = true)) ∧ (posted 0x4000000000000000 0).sided (sidedMsg 0x4000000000000000) = false ∧
    (posted 0 0).goal (sidedMsg 0x4000000000000003) = (posted 0 0).goal (sidedMsg 0x4001000000000003) ∧
    (posted 0 0).goal (sidedMsg 0x4000000000000003) ≠ (posted 0 0).goal (sidedMsg 0x4000000000000004) := by decide +kernel
/-! Boundary states: barriers, consists, records, signals, recalls, launches, the package. -/

/-- An image of tile 1 with launch 7. -/
def imageOf1 : Image := ⟨0, 1, { domained.tile 1 with gen := Vector.replicate 4 0 }, [{}, {}, {}, {}], Vector.replicate 4 {}⟩
/-- O40: a member that is stopped, one in an image, one whose part has ended, and one that is here. -/
theorem witness_members : let here := fun (s : State) (u : Nat) => (s.tile u).launch = some 7 ∧ ¬ (∃ i ∈ s.images, i.tile = u ∧ i.st.launch = some 7) ∧ (s.tile u).presence = .present
    here domained 1 ∧ (domained.tile 0).launch = some 7 ∧
    (let s := domained.setTile 1 { domained.tile 1 with presence := .stopped }
     1 ∈ s.members 0 .domain ∧ (s.tile 1).launch = some 7 ∧ (s.tile 1).presence = .stopped) ∧
    (let s := ({ domained with images := [imageOf1] } : State)
     1 ∈ s.members 0 .domain ∧ ∃ i ∈ s.images, i.tile = 1 ∧ i.st.launch = some 7) ∧
    (let s := domained.setTile 1 { domained.tile 1 with launch := none }
     1 ∈ s.members 0 .domain ∧ (s.tile 1).launch ≠ some 7 ∧ s.images = []) := by decide +kernel
/-- O41: members at their ERET, one in a HALT, and one that is stopped. -/
theorem witness_waiting : let s := ({ chained with harts := [(0, { priv := .system, ereting := true }), (4, { run := .halting })] } : State)
    (s.hart 0).ereting = true ∧ (s.hart 4).run = .halting ∧ s.members 0 .consist = [0, 1] ∧ s.images = [] ∧ (s.tile 0).presence = .present ∧ (s.tile 1).presence = .present ∧
    (s.tile 1).launch = (s.tile 0).launch ∧ ((s.setTile 1 { s.tile 1 with presence := .stopped }).tile 1).presence = .stopped := by decide +kernel

/-- O42: a record whose predecessors have all completed early, and one more. -/
def earlyDepot (n : Nat) : State := (depot 1).setDepot 0 1 { bytes := packet 1, early := n }
theorem witness_early : ∀ n ∈ [1, 2], let s := earlyDepot n
    let r' : DepotRec := { (s.depot 0 1) with bytes := (packet 1).take 6 ++ leBytes 2 1 ++ ((packet 1).drop 8).take 24 ++ List.replicate 32 0, st := .armed, early := 0, arms := 1 }
    let s1 := s.setDepot 0 1 r'
    let s2 := if 1 < n then s1.ctxEvent 0 0x0C 0 1 0 0 else s1
    (s.depot 0 1).st = .idle ∧ 1 ≤ (s.depot 0 1).early ∧ s2.depot 0 1 = r' ∧ s2.cur = s.cur ∧ s2.recCheck 0 r'.bytes false = 0 := by decide +kernel
/-- O42: a card with ON set that no started launch covers. -/
theorem witness_card_on : Card.on (List.replicate 58 0 ++ [1] ++ List.replicate 5 0) = true ∧ Card.expo (List.replicate 58 0 ++ [1] ++ List.replicate 5 0) = 0 ∧
    (atAlias 0).coveredAt 0 (Loc.scratch 0 0).key ((atAlias 0).rx 1) = none := by decide

/-- O44: two registrations that one value reaches. -/
theorem witness_two_hit : let l := Loc.scratch 0 0
    let r : SigReg := { pa := l.key, target := 1, hart := 4, nowait := false }
    ∀ q ∈ [r, { r with hart := 8 }], q.pa = l.key ∧ q.target.toNat ≤ (1 : Word).toNat ∧ q.away = none ∧ q.hart < 2 ^ 20 ∧ q.hart ≠ (atAlias 0).cur := by decide

/-- O47: at the deadline a port and a copy stand at a frame that HOST has lent to RESIDENT and recalled. -/
def recalledFrom : State :=
  let e := frame 4 1 2 0
  { far with
    waybill := [(0x10, e)], tlb := []
    chans := [(0, #v[{ live := [{ id := 1, p := (copyOf 64 0).set 0 0x100000, hart := 0 }] }, {}, {}, {}])]
    revoked := put [] (0x10 * 4 + 2) 0 }
theorem witness_recall_port : (recalledFrom.enginePlace (.port 0 5) (recalledFrom.port 0 5).sys (recalledFrom.port 0 5).since ((recalledFrom.port 0 5).addr 0) (recalledFrom.port 0 5).w .load).1
      = .error 0x13 ∧ (recalledFrom.port 0 5).cfg = true ∧ (recalledFrom.port 0 5).mode = .affine ∧ (recalledFrom.port 0 5).done = 0 ∧ 0 < (recalledFrom.port 0 5).elems ∧
    (recalledFrom.tile 0).presence = .present := by decide +kernel
theorem witness_recall_copy : let x : Xfer := { id := 1, p := (copyOf 64 0).set 0 0x100000, hart := 0 }
    x ∈ (recalledFrom.chan 0 0).live ∧ x.row < x.p.rows ∧ x.p.srcRemote recalledFrom.pkgnum = false ∧
    (recalledFrom.enginePlace (.chan 0 0) x.sys x.since x.srcAt x.pieceLen .load).1 = .error 0x13 := by decide +kernel

/-- O50: of two results that are due the one of the earlier cycle lands first, though it was issued later. -/
theorem witness_land_order : let f : InFlight := { due := some 5, land := .x 3 1, org := {} }
    let g : InFlight := { due := some 4, land := .x 3 2, org := {} }
    f.wait = false ∧ g.wait = false ∧ g.lands f ∧ ¬ f.lands g := by simp [InFlight.lands]

/-- O54: the mark of a PHASE that a part leaves behind, and a launch without an image. -/
theorem witness_marks : let x : Tile := { domained.tile 0 with marks := (Vector.replicate 4 []).set 3 [1] }
    (1 : BitVec 32) ∈ x.marks[Level.domain.idx] ∧ domained.images = [] ∧ 1 ∈ domained.members 0 .domain ∧ (domained.tile 1).launch = some 7 := by decide +kernel

/-- O56: a row of 17 columns that has lost two: its last number has none. -/
theorem witness_lost : ((List.range 17).filter (fun p => !([3, 5] : List Nat).contains p))[15]? = none ∧
    ((List.range 17).filter (fun p => !([3, 5] : List Nat).contains p))[3]? = some 4 := by decide
/-- O57: the third crash, with a frame that RESIDENT owns. -/
theorem witness_third_crash : let s := ({ resident 8 with waybill := [(5, frame 1 2 2 0)], clk := 3000000000 } : State)
    min 3 (s.ioRead 0x08F50000000A 1 / 4 % 4 + 1) = 3 ∧ s.ioRead 0x08F50000000A 1 % 4 = 0 ∧ s.beatAt + s.ioRead 0x08F500000008 2 * 1500000 ≤ s.dtime ∧ s.launches = [] ∧ s.worn = [] ∧
    s.wb 5 = some (frame 1 2 2 0) ∧ wbOwner (frame 1 2 2 0) = Kernel.resident.code ∧ wbLocked (frame 1 2 2 0) = false ∧ wbState (frame 1 2 2 0) = 1 ∧ ¬ min 3 (0 + 1) = 3 := by decide +kernel
/-- O59: the last partition's flit and the last sensor. -/
theorem witness_flit : (15 : Nat) < 16 ∧ (131 : Nat) < 132 ∧ (∃ l ∈ List.range 16, (strand.link l).up = true) := by decide

/-- R388: SHA-384 of 96 zero bytes, as another implementation of it gives it. -/
theorem test_sha384 : sha384 0 0 = 0xf57bb7ed82c6ae4a29e6c9879338c592c7d42a39135583e8ccbe3940f2344b0eb6eb8503db0ffd6a39ddd00cd07d8317 := by decide +kernel
/-! Deliveries to queues, indexed fetches, completions with successors, posts, calls that are claimed, consists after a call. -/

/-- O39: a message for a queue in its sender's scratchpad, whose header has these SLOTS, HEAD and TAIL. -/
def queued (slots head tail : Nat) : State :=
  { posted (BitVec.ofNat 64 (aliasBase + 0x100)) 0 with
    tiles := [(0, { scratch := memWrite [] 0x100 (leBytes 8 (aliasBase + 0x1000) ++ leBytes 4 slots ++ leBytes 4 0 ++ leBytes 8 head ++ leBytes 8 tail) })] }
theorem witness_queue_delivery : let v : Word := BitVec.ofNat 64 (aliasBase + 0x100)
    v.getLsbD 63 = false ∧ v.getLsbD 61 = false ∧ v.getLsbD 62 = false ∧ v.toNat % 2 ^ 48 / 64 * 64 = aliasBase + 0x100 ∧ 0x100 + 64 ≤ scratchSize ∧
    (∀ x ∈ [(2, 0, 1), (2, 0, 2), (2, 5, 4), (3, 0, 0)], let s := queued x.1 x.2.1 x.2.2
      (∀ m ∈ s.putqs, m.payload.length ≤ 64 ∧ s.sided m = false ∧ s.behindChain m = false) ∧ s.readBad (.scratch 0 0x100) 64 = false ∧ s.turn = 0 ∧
      (let b := s.bytesAt (.scratch 0 0x100) 64
       leNat (b.take 8) = aliasBase + 0x1000 ∧ leNat ((b.drop 8).take 4) = x.1 ∧ leNat ((b.drop 16).take 8) = x.2.1 ∧ leNat ((b.drop 24).take 8) = x.2.2)) ∧
    (2 = 2 ^ 1 ∧ 1 < 2 + 0 ∧ 2 + 0 ≤ 2 ∧ 4 < 2 + 5) ∧ 0x1000 + 1 % 2 * 64 + 64 ≤ scratchSize ∧ (aliasBase + 0x1000) % 64 = 0 ∧
    Loc.scratch 0 (0x1000 + 1 % 2 * 64) ≠ Loc.scratch 0 0x100 := by decide +kernel
theorem witness_slots_odd : ¬ ∃ k, 1 ≤ k ∧ k ≤ 20 ∧ 3 = 2 ^ k := fun ⟨k, h1, _, h⟩ => by
  obtain ⟨j, rfl⟩ : ∃ j, k = j + 1 := ⟨k - 1, by omega⟩
  rw [Nat.pow_succ] at h
  omega
theorem witness_queued_wf : (queued 2 0 1).memoriesWf := ⟨by decide, by decide +kernel, by decide +kernel, by decide⟩
/-- O39: an arrival for a tile of its context that is there. -/
theorem witness_not_absent : inboundOne.absent 0 511 = false := by decide +kernel

/-- O37: port 5 takes its index from port 4, which has one staged. -/
def indexed (n : Nat) : State :=
  let i : PortCtx := { recordPort reading with stage := [leBytes 1 n] }
  let q : PortCtx := { recordPort reading with mode := .indexed, aux := 4, stride := #v[2, 0, -1, 3] }
  reading.mapMe (fun x => { x with ports := (x.ports.set 4 i).set 5 q })
theorem witness_indexed : (indexed 3).port 0 5 = { recordPort reading with mode := .indexed, aux := 4, stride := #v[2, 0, -1, 3] } ∧ ((indexed 3).tile 0).enginesOn = true ∧
    ((indexed 3).port 0 5).cfg = true ∧ ((indexed 3).port 0 5).stage.length < 2 ∧ ((indexed 3).port 0 5).done < ((indexed 3).port 0 5).transfers ∧
    ((indexed 3).port 0 4).cfg = true ∧ ((indexed 3).port 0 4).mode = .affine ∧ ((indexed 3).port 0 4).stage.head? = some [3] ∧ ((indexed 3).port 0 4).w = 1 ∧
    (-1 : Word).toInt ≤ (BitVec.ofNat 8 255).toInt ∧ (BitVec.ofNat 8 3).toInt ≤ (3 : Word).toInt ∧
    (∀ n ∈ [3, 255], let s := indexed n
     let v := s.setHart 0 { s.hart 0 with ports := (s.hart 0).ports.set 4 (s.port 0 4).popped }
     v.engineRead (.port 0 5) (s.port 0 5).sys (s.port 0 5).since ((s.port 0 5).base + BitVec.ofInt 64 ((BitVec.ofNat 8 n).toInt * 2)) 1 = (.ok [0], v)) := by decide +kernel

/-- O43: in the calling order, the tail is written first and then the slot; a claim of another SCALL, and of this one. -/
theorem witness_scall_claims :
    let rec1 := leBytes 8 1 ++ leBytes 2 0 ++ List.replicate 54 0 ++ (calling 1).bytesAt (.scratch 0 0) 64
    let s1 := ((calling 1).hubWrite 0 (0x2000 + 24) (leBytes 8 2)).2
    let s2 := (s1.hubWrite 0 (0x3000 + 1 % 2 * 128) rec1).2
    (calling 1).me.claim = none ∧ ((calling 1).hubWrite 0 (0x2000 + 24) (leBytes 8 2)).1 = none ∧ (s1.hubWrite 0 (0x3000 + 1 % 2 * 128) rec1).1 = none ∧
    s1.cur = (calling 1).cur ∧ s2.cur = (calling 1).cur ∧ 1 < 2 + 0 ∧ 2 + 0 ≤ 2 ∧
    (let s := (calling 1).mapMe (fun x => { x with claim := some (x.pc, 0x3080) })
     s.me.claim = some (s.me.pc + 0, 0x3080) ∧ s.issue.w1 = false ∧ (s.hubWrite 0 0x3080 rec1).1 = none ∧ (s.hubWrite 0 0x3080 rec1).2.cur = s.cur) ∧
    (∀ m, some ((0x9000 : Word), (0x3080 : Word)) = some m → m.1 ≠ (calling 1).me.pc) := by
  refine ⟨by decide, by decide +kernel, by decide +kernel, by decide +kernel, by decide +kernel, by decide, by decide, by decide +kernel, ?_⟩
  intro m h
  cases h
  decide

/-- O45: an object of exponent 4 whose whole weight but this has come back, with these frames, finaliser and proxy. -/
def posting (x : HandleSlot) (m : Post) : State :=
  { depot 1 with handles := [(0, x)], posts := [m] }
theorem witness_post_cases : let h : Word := BitVec.ofNat 64 (1 + 3 * 2 ^ 29)
    let m := Post.mk h (some 0) (some 0) none
    let x : HandleSlot := { live := true, gen := 1, exp := 4, returned := 8, ctx := some 0, frames := 2, fin := some 1, proxy := some 5 }
    (posting {} m).posts = [m] ∧ m.away = none ∧ ((posting {} m).slot 0).live = false ∧ h.toNat / 2 ^ 51 = (posting {} m).pkgnum ∧
    (Post.mk h none none (some (3, 5))).away = some (3, 5) ∧ ((posting x m).slot 0).live = true ∧
    ({ x with gen := 2 } : HandleSlot).gen ≠ BitVec.ofNat 29 h.toNat ∧ x.gen = BitVec.ofNat 29 h.toNat ∧
    2 ^ x.exp < 9 + 2 ^ (h.toNat / 2 ^ 29 % 64) ∧ x.returned + 2 ^ (h.toNat / 2 ^ 29 % 64) = 2 ^ x.exp ∧ x.fin = some 1 ∧ (posting x m).turn = 0 := by decide +kernel
/-- O45: the finaliser of that object: in a crash, of no record, of one that is busy, and of one that is armed. -/
theorem witness_finaliser : let x : HandleSlot := { live := true, gen := 1, exp := 4, returned := 8, ctx := some 0, frames := 2, fin := some 1 }
    let s := posting x (Post.mk 1 none none none)
    let told := ({ s with posts := [] }.setSlot 0 { gen := 2 }).ctxEvent 0 0x51 0 0 0 2
    told.crashed = false ∧ (told.ctx 0).valid = true ∧ 1 < (told.ctx 0).drecs ∧ ¬ 2 < (told.ctx 0).drecs ∧ (told.depot 0 1).st = .idle ∧
    ((told.setDepot 0 1 { st := .running }).depot 0 1).st ≠ .idle ∧
    told.hubRead 0 ((told.ctx 0).depot.toNat + 64 * 1) 64 = (.ok (List.replicate 6 0 ++ [1] ++ List.replicate 57 0), told) ∧
    (told.depot 0 1).early < leNat (((List.replicate 6 (0 : Byte) ++ [1] ++ List.replicate 57 0).drop 6).take 2) := by decide +kernel

/-- O41, O51: a member that waits at its ERET beside one whose call is to be issued again; a member frozen at the call ring. -/
def calledAgain (h1 : Hart) : State :=
  { chained with harts := [(0, { run := .frozen .callRing, priv := .user, undelivered := some ⟨1, 2, 3, 4, 5, none, 0, none⟩ }), (4, h1)] }
theorem witness_called_again : let s := calledAgain { priv := .system, ereting := true }
    1 < (s.tile 0).csize ∧ (s.hart 0).run = .frozen .callRing ∧ (s.hart 0).priv = .user ∧ (s.hart 0).ereting = false ∧ s.members 0 .consist = [0, 1] ∧
    s.partHere (s.tile 0).launch 0 = true ∧ s.partHere (s.tile 0).launch 1 = true ∧ (s.hart 4).ereting = true ∧
    (0x8000000000000001 : Word).msb = true ∧ (0x8000000000000001 : Word).toNat % 16 = 1 ∧
    (let r := calledAgain { priv := .user }
     (r.hart 4).ereting = false ∧ (r.hart 4).run ≠ .halting ∧ (r.hart 4).restarted = false) ∧
    (let w := ({ s with harts := [(0, { restarted := true }), (4, { priv := .system, ereting := true })] } : State)
     (w.hart 0).restarted = true ∧ (w.hart 0).ereting = false ∧ (w.hart 4).ereting = true) := by decide +kernel

/-- O54: a launch of record 0 that has ended, whose successors are record 1 and whose signal is at 0x4000; record 1 as given. -/
def succeeding (x : DepotRec) : State :=
  let b := packet 1 ++ []
  let b := (b.take 14) ++ leBytes 6 0x4000 ++ leBytes 12 (2 ^ 96 - 2 ^ 12 + 1) ++ b.drop 32
  { finishing 0 (some 0) false with
    tlb := [{ hubPage with asn := 1 }], nextLaunch := 8
    ctxs := [(1, { valid := true, part := 15, drecs := 2 })]
    depots := [(4096, { bytes := b, st := .running }), (4097, x)] }
theorem witness_successors : ∀ x ∈ [({} : DepotRec), { st := .armed, cnt := 2 }, { bytes := packet 1, st := .armed, cnt := 1 }, { bytes := (packet 1).set 1 16, st := .armed, cnt := 1 }],
    let s := succeeding x
    let l := launchOf s
    s.launch? 7 = some l ∧ l.ending = false ∧ l.begun = true ∧ l.tiles.length = l.size ∧ l.ended = l.size ∧ Card.on l.card = false ∧ 7 < s.nextLaunch ∧ l.record = some 0 ∧
    Rec.succ (s.depot 1 0).bytes = [1] ∧ Rec.sig (s.depot 1 0).bytes = 0x4000 ∧ 0x4000 % 8 = 0 ∧ 1 < (s.ctx 1).drecs ∧ s.depot 1 1 = x ∧
    (x.st = .idle ∨ (x.st = .armed ∧ (x.cnt ≤ 1 → s.recCheck 1 x.bytes false = 0))) := by decide +kernel
theorem witness_completion_signal : (succeeding {}).deviceAt ((succeeding {}).hubIn 1) (BitVec.ofNat 64 0x4000) .atomic 8 0x24000 ∧ 0x24000 % 8 = 0 :=
  ⟨⟨by decide, by unfold Loc.isMemory; decide, by decide +kernel, { hubPage with asn := 1 }, by decide +kernel, by decide, by decide, by decide⟩, by decide⟩
/-- O54: a packet's launch with that signal and with none. -/
theorem witness_packet_signal : Rec.sig (packet 1) = 0 ∧ Rec.sig ((packet 1).take 14 ++ leBytes 6 0x4000 ++ (packet 1).drop 20) = 0x4000 ∧
    (launchOf (finishing 0 none false)).record = none := by decide +kernel
/-- O54: a part of a tile that is retired, which has ended. -/
theorem witness_retired_part : let s := (finishing 0 none false).setTile 3 { (finishing 0 none false).tile 3 with presence := .retired }
    (s.tile 3).launch = some 7 ∧ s.launch? 7 = some (launchOf s) ∧ (launchOf s).ending = false ∧ (s.tile 3).presence = .retired ∧ s.partDone 3 = true := by decide +kernel
/-- O54: the region of a handoff that is where it was, and one that was put by. -/
theorem witness_region : let l : Launch := { ctx := 1, queue := none, record := some 0, bytes := packet 1, handoff := some (3, 0x00100040) }
    l.region = none ∧ ({ l with region := some (List.replicate 256 7) } : Launch).region = some (List.replicate 256 7) ∧
    (List.replicate 256 (7 : Byte)).length = (0x00100040 : BitVec 32).toNat / 2 ^ 20 * 256 ∧ (0x00100040 : BitVec 32).toNat % 2 ^ 20 + 256 ≤ scratchSize := by decide +kernel

/-- O47, O48, O57, O59: no element of a write stream waits, and one does. -/
theorem witness_elements_wait : core.elemsWait = false ∧ (framed (frame 1 1 0 0) 0).elemsWait = false ∧ (monitored 0 0).elemsWait = false ∧ recalledFrom.elemsWait = false ∧
    (resident 8).elemsWait = false ∧
    (withPort { cfg := true, write := true, later := [⟨0, 0, [(.scratch 0 0, 1)], [5], [true]⟩] }).elemsWait = true := by decide +kernel

/-- O17: in shared mode a floating result without flags is on its way, and none is. -/
def owingFlags (float : Bool) : State :=
  (arbitrated 0 0).mapMe (fun x => { x with flight := [{ due := some 9, land := .x 3 1, float := float, org := {} }] })
theorem witness_owing_float : (owingFlags true).myTile.shared = true ∧ (∃ f ∈ (owingFlags true).me.flight, f.float = true) ∧
    ¬ (∃ f ∈ (owingFlags false).me.flight, f.float = true) ∧ (owingFlags false).myTile.cmds = [] := by decide
/-- R101: the MFC of FFLAGS waits for the first and not for the second. -/
theorem test_mfc_waits : (match exec (.mfc 5 0x300) (owingFlags true) with | .next t => t.issue.ctl == .holds | _ => false) = true ∧
    (match exec (.mfc 5 0x300) (owingFlags false) with | .next t => t.issue.ctl == .holds | _ => true) = false := by decide
/-- R213, R49: HEAD 5 and TAIL 4 leave a queue of two slots with room; HEAD 0 and TAIL 2 fill it. -/
theorem test_queue_counts : (match exec (.putqDelivery 0) (queued 2 5 4) with
      | .next t => t.bytesAt (.scratch 0 0x1000) 2 == [1, 2] && (t.hart 0).x[3] == 0 && t.bytesAt (.scratch 0 0x118) 8 == leBytes 8 5
      | _ => false) = true ∧
    (match exec (.putqDelivery 0) (queued 2 0 2) with
      | .next t => t.bytesAt (.scratch 0 0x1000) 2 == [0, 0] && (t.hart 0).x[3] == 1
      | _ => false) = true := by decide +kernel
/-- R284: a region that was put by stands on the tile again when its launch is placed. -/
theorem test_region_back : (match exec (.launchPlace 7) { unplaced 0 [] with
      launches := [(7, { launchOf (unplaced 0 []) with handoff := some (3, 0x00100040), region := some (List.replicate 256 7) })] } with
    | .next t => memGet (t.tile 3).scratch 0x40 == 7 && memGet (t.tile 3).scratch 0x13F == 7 && memGet (t.tile 3).scratch 0x140 == 0
        && (launchOf t).region.isNone && (t.tile 3).launch == some 7
    | _ => false) = true := by decide +kernel

end Sys2Proof.Tests
end

section
namespace Sys2Proof.Machine

/-! ## What reports and memory leave alone

An entry reads a fault ring and writes a record and a frame. The errors it finds there are reported to kernels (R379, R380), which
makes interrupts pending on cores and touches no strand or core in any other way. -/

/-- y is x but for the interrupts pending on it and its event latch. -/
def Hart.Rung (x y : Hart) : Prop := ∃ i l, y = { x with irqs := i, latch := l }

theorem Hart.Rung.refl (x : Hart) : x.Rung x := ⟨x.irqs, x.latch, rfl⟩
theorem Hart.Rung.trans {x y z : Hart} (a : x.Rung y) (b : y.Rung z) : x.Rung z := by
  obtain ⟨_, _, rfl⟩ := a
  obtain ⟨i, l, rfl⟩ := b
  exact ⟨i, l, rfl⟩

/-- t has the strands, the cores and the word at hand of s. -/
structure KeepsHarts (s t : State) : Prop where
  harts : t.harts = s.harts
  issue : t.issue = s.issue

/-- t has them too, but interrupts may have been made pending. -/
structure Rings (s t : State) : Prop where
  issue : t.issue = s.issue
  harts : ∀ k, (s.hart k).Rung (t.hart k)

theorem KeepsHarts.refl (s : State) : KeepsHarts s s := ⟨rfl, rfl⟩
theorem KeepsHarts.trans {s t u : State} (a : KeepsHarts s t) (b : KeepsHarts t u) : KeepsHarts s u :=
  ⟨b.harts.trans a.harts, b.issue.trans a.issue⟩
theorem KeepsHarts.hart {s t : State} (a : KeepsHarts s t) (k : Nat) : t.hart k = s.hart k := by
  rw [State.hart, a.harts]; rfl
theorem KeepsHarts.rings {s t : State} (a : KeepsHarts s t) : Rings s t :=
  ⟨a.issue, fun k => a.hart k ▸ Hart.Rung.refl _⟩

theorem Rings.refl (s : State) : Rings s s := (KeepsHarts.refl s).rings
theorem Rings.trans {s t u : State} (a : Rings s t) (b : Rings t u) : Rings s u :=
  ⟨b.issue.trans a.issue, fun k => (a.harts k).trans (b.harts k)⟩

/-- A relation that every step of a fold keeps. -/
theorem foldl_rel {α β : Type} {R : β → β → Prop} (refl : ∀ b, R b b) (trans : ∀ {a b c}, R a b → R b c → R a c) {f : β → α → β}
    {l : List α} (hf : ∀ b, ∀ a ∈ l, R b (f b a)) (b : β) : R b (l.foldl f b) := by
  induction l generalizing b with
  | nil => exact refl b
  | cons a l ih => exact trans (hf b a List.mem_cons_self) (ih (fun b a ha => hf b a (List.mem_cons_of_mem _ ha)) (f b a))

theorem rings_foldl {α : Type} {f : State → α → State} (hf : ∀ s a, Rings s (f s a)) (l : List α) (s : State) :
    Rings s (l.foldl f s) :=
  foldl_rel Rings.refl Rings.trans (fun s a _ => hf s a) s

/-! ### Events of the hub -/

theorem keepsHarts_ioWrite (s : State) (pa n v : Nat) : KeepsHarts s (s.ioWrite pa n v) := ⟨rfl, rfl⟩
theorem keepsHarts_memWr (s : State) (pa : Nat) (bs : List Byte) : KeepsHarts s (s.memWr pa bs) := by
  rw [memWr_rest]; exact ⟨rfl, rfl⟩

theorem rings_interrupt (s : State) (k : Kernel) (code : BitVec 8) (v : Nat) : Rings s (s.interrupt k code v) := by
  refine ⟨rfl, fun j => ?_⟩
  by_cases hj : j = s.icore k
  · subst hj
    simp only [State.interrupt, mapHart_eq, hart_setHart_self]
    exact ⟨_, _, rfl⟩
  · simp only [State.interrupt, mapHart_eq, hart_setHart_other _ _ hj]
    exact Hart.Rung.refl _

theorem rings_ringPut (s : State) (frame : Nat) (k : Kernel) (code : BitVec 8) (rec : List Byte) :
    Rings s (s.ringPut frame k code rec) := by
  unfold State.ringPut
  simp only
  split
  · exact (keepsHarts_ioWrite s _ _ _).rings
  · exact ((keepsHarts_memWr s _ _).trans (keepsHarts_ioWrite _ _ _ _)).rings.trans (rings_interrupt _ _ _ _)

theorem rings_wbEvent (s : State) (k : Kernel) (kind frame other : Nat) (e : BitVec 128) :
    Rings s (s.wbEvent k kind frame other e) := rings_ringPut s _ _ _ _

theorem rings_mgmtEvent (s : State) (k : Kernel) (kind sub unit addr detail : Nat) :
    Rings s (s.mgmtEvent k kind sub unit addr detail) := rings_ringPut s _ _ _ _

theorem rings_mgmtEvents (s : State) (ks : List Kernel) (kind sub unit addr detail : Nat) :
    Rings s (s.mgmtEvents ks kind sub unit addr detail) :=
  rings_foldl (fun s k => rings_mgmtEvent s k kind sub unit addr detail) _ s

theorem keepsHarts_setWb_shootDown (s : State) (kn : Option Kernel) (f : Nat) (e : BitVec 128) :
    KeepsHarts s ((s.shootDown kn f).setWb f e) := ⟨rfl, rfl⟩

theorem rings_quarantine (s : State) (f : Nat) : Rings s (s.quarantine f) := by
  unfold State.quarantine
  split
  · exact Rings.refl s
  · split
    · exact Rings.refl s
    · extract_lets v
      exact (keepsHarts_setWb_shootDown s none f _).rings.trans (rings_foldl (fun s k => rings_wbEvent s k 5 f _ _) _ v)

theorem rings_foundPhys (s : State) (pa : Nat) : Rings s (s.foundPhys pa) := by
  unfold State.foundPhys
  extract_lets f
  split
  · exact Rings.refl s
  · exact (rings_quarantine s _).trans (rings_mgmtEvents _ _ _ _ _ _ _)

theorem rings_retireTile (s : State) (t : Nat) : Rings s (s.retireTile t) := by
  unfold State.retireTile
  split
  · exact Rings.refl s
  · refine Rings.trans ?_ (rings_mgmtEvents _ _ _ _ _ _ _)
    exact KeepsHarts.rings ⟨rfl, rfl⟩

theorem rings_report (s : State) (ls : List Loc) : Rings s (s.report ls) := by
  refine rings_foldl (fun s l => ?_) _ s
  cases l with
  | scratch t off => exact rings_retireTile s t
  | phys pa => exact rings_foundPhys s _

/-! ### Translation and places -/

theorem keepsHarts_install (s : State) (e : TlbEntry) : KeepsHarts s (s.install e) := by
  unfold State.install
  split <;> exact ⟨rfl, rfl⟩

theorem keepsHarts_translate (s : State) (rq : Requester) (va : Word) (k : AccKind) :
    KeepsHarts s (s.translate rq va k).2 := by
  unfold State.translate
  extract_lets a
  split
  · exact KeepsHarts.refl s
  · split
    · exact KeepsHarts.refl s
    · split
      · exact keepsHarts_install s _
      · split
        · exact KeepsHarts.refl s
        · split
          · exact keepsHarts_install s _
          · exact (keepsHarts_install s _).trans (keepsHarts_install _ _)

theorem keepsHarts_placePart (s : State) (rq : Requester) (t : Option Nat) (k : AccKind) (io : Bool) (p : Nat × Nat) :
    KeepsHarts s (s.placePart rq t k io p).2 := by
  have q := keepsHarts_translate s rq (BitVec.ofNat 64 p.1) k
  unfold State.placePart
  split
  · exact KeepsHarts.refl s
  · exact KeepsHarts.refl s
  · generalize s.translate rq (BitVec.ofNat 64 p.1) k = r at q
    obtain ⟨c | pa, u⟩ := r
    · exact q
    · simp only; split <;> exact q

theorem keepsHarts_placeParts (s : State) (rq : Requester) (t : Option Nat) (k : AccKind) (io : Bool) (ps : List (Nat × Nat)) :
    KeepsHarts s (s.placeParts rq t k io ps).2 := by
  induction ps generalizing s with
  | nil => exact KeepsHarts.refl s
  | cons p ps ih =>
    have q := keepsHarts_placePart s rq t k io p
    unfold State.placeParts
    generalize s.placePart rq t k io p = r at q
    obtain ⟨c | l, u⟩ := r
    · exact q
    · have q' := q.trans (ih u)
      simp only
      generalize u.placeParts rq t k io ps = r at q'
      obtain ⟨c | ls, v⟩ := r <;> exact q'

/-- The places of parts have the parts' sizes. -/
theorem sizes_placeParts {rq : Requester} {t : Option Nat} {k : AccKind} {io : Bool} {ps : List (Nat × Nat)} {s u : State}
    {ls : List (Loc × Nat)} (e : s.placeParts rq t k io ps = (.ok ls, u)) : ls.map (·.2) = ps.map (·.2) := by
  induction ps generalizing s u ls with
  | nil =>
    simp only [State.placeParts, Prod.mk.injEq, Except.ok.injEq] at e
    obtain ⟨rfl, -⟩ := e
    rfl
  | cons p ps ih =>
    unfold State.placeParts at e
    generalize s.placePart rq t k io p = r at e
    obtain ⟨c | l, v⟩ := r
    · simp at e
    · rcases e' : v.placeParts rq t k io ps with ⟨c | ms, w⟩
      · simp [e'] at e
      · simp only [e', Prod.mk.injEq, Except.ok.injEq] at e
        obtain ⟨rfl, -⟩ := e
        simp [ih e']

theorem sum_splitPages_le (va fuel n : Nat) : ((splitPages va fuel n).map (·.2)).sum ≤ n := by
  induction fuel generalizing va n with
  | zero => simp [splitPages]
  | succ fuel ih =>
    unfold splitPages
    simp only
    split
    · simp
    · split
      · simp
      · have := ih (va + (0x10000 - va % 0x10000)) (n - (0x10000 - va % 0x10000))
        simp only [List.map_cons, List.sum_cons]
        omega

/-- A place of the device itself comes without a report, and a cause may come with one. -/
theorem devicePlace_cases {s t : State} {rq : Requester} {va : Word} {k : AccKind} {n : Nat} {r : Except Cause Nat}
    (e : s.devicePlace rq va k n = (r, t)) : (∃ pa, r = .ok pa ∧ KeepsHarts s t) ∨ (∃ c, r = .error c ∧ Rings s t) := by
  have q := keepsHarts_translate s rq va k
  unfold State.devicePlace at e
  generalize s.translate rq va k = a at q e
  obtain ⟨c | pa, u⟩ := a
  · cases e; exact .inr ⟨_, rfl, q.rings⟩
  · simp only at e
    split at e
    · cases e; exact .inr ⟨_, rfl, q.rings⟩
    · split at e
      · cases e; exact .inr ⟨_, rfl, q.rings.trans (rings_report _ _)⟩
      · cases e; exact .inl ⟨_, rfl, q⟩

/-- A slot of a fault ring is claimed, or a cause comes. -/
theorem claimSlot_cases {s t : State} {rq : Requester} {fring : Word} {r : Claim} (e : s.claimSlot rq fring = (r, t)) :
    (∃ v, r = .ok v ∧ KeepsHarts s t) ∨ (∃ c, r = .fail c ∧ Rings s t) := by
  unfold State.claimSlot at e
  split at e
  · next h =>
    cases e
    obtain ⟨_, ⟨⟩, -⟩ | ⟨_, -, q⟩ := devicePlace_cases h
    exact .inr ⟨_, rfl, q⟩
  · next h =>
    obtain ⟨_, -, q⟩ | ⟨_, ⟨⟩, -⟩ := devicePlace_cases h
    simp only at e
    split at e
    · cases e; exact .inr ⟨_, rfl, q.rings⟩
    · cases e; exact .inl ⟨_, rfl, q.trans (keepsHarts_memWr _ _ _)⟩

/-- A record is written, waits for its slot, or cannot be written. -/
theorem writeRecord_cases {s t : State} {rq : Requester} {slot : Word} {rec : List Byte} {r : Claim}
    (e : s.writeRecord rq slot rec = (r, t)) :
    (∃ v, r = .ok v ∧ KeepsHarts s t) ∨ (r = .wait ∧ KeepsHarts s t) ∨ (∃ c, r = .fail c ∧ Rings s t) := by
  unfold State.writeRecord at e
  split at e
  · next h =>
    cases e
    obtain ⟨_, ⟨⟩, -⟩ | ⟨_, -, q⟩ := devicePlace_cases h
    exact .inr (.inr ⟨_, rfl, q⟩)
  · next h =>
    obtain ⟨_, -, q⟩ | ⟨_, ⟨⟩, -⟩ := devicePlace_cases h
    split at e
    · cases e; exact .inr (.inl ⟨rfl, q⟩)
    · cases e; exact .inl ⟨_, rfl, q.trans (keepsHarts_memWr _ _ _)⟩

/-- The address of the handler's frame comes without a report. -/
theorem frameAddr_cases {s t : State} {h : Nat} {u : Undelivered} {r : Except Cause Word} (e : s.frameAddr h u = (r, t)) :
    (∃ f, r = .ok f ∧ KeepsHarts s t) ∨ (∃ c, r = .error c ∧ Rings s t) := by
  unfold State.frameAddr at e
  simp only at e
  split at e
  · cases e; exact .inl ⟨_, rfl, KeepsHarts.refl s⟩
  · split at e
    · next h =>
      cases e
      obtain ⟨_, ⟨⟩, -⟩ | ⟨_, -, q⟩ := devicePlace_cases h
      exact .inr ⟨_, rfl, q⟩
    · next h =>
      cases e
      obtain ⟨_, -, q⟩ | ⟨_, ⟨⟩, -⟩ := devicePlace_cases h
      exact .inl ⟨_, rfl, q⟩

/-! ### Stores -/

theorem keepsHarts_heal (s : State) (l : Loc) (n : Nat) : KeepsHarts s (s.heal l n) := by
  cases l <;> simp only [State.heal] <;> split <;> exact ⟨rfl, rfl⟩

theorem keepsHarts_writeLoc (s : State) (bs : List Byte) (l : Loc) : KeepsHarts s (s.writeLoc bs l) := by
  cases l with
  | scratch t off => exact ⟨rfl, rfl⟩
  | phys pa => simp only [State.writeLoc]; rw [memWr_rest]; exact ⟨rfl, rfl⟩

/-- Healing makes no granule bad, and a write neither makes nor heals one. -/
theorem badAt_of_heal {s : State} {l m : Loc} {n g : Nat} (h : (s.heal l n).badAt m g = true) : s.badAt m g = true := by
  cases l with
  | scratch t off =>
    simp only [State.heal] at h
    split at h
    · exact h
    · cases m with
      | phys pa => exact h
      | scratch u off' =>
        by_cases hu : u = t
        · subst hu
          simp only [State.badAt, mapTile_eq, tile_setTile_self, List.contains_eq_mem, decide_eq_true_eq] at h ⊢
          exact (List.mem_filter.1 h).1
        · simpa only [State.badAt, mapTile_eq, tile_setTile_other _ _ hu] using h
  | phys pa =>
    simp only [State.heal] at h
    split at h
    · exact h
    · cases m with
      | scratch t off => exact h
      | phys pa' =>
        simp only [State.badAt, List.contains_eq_mem, decide_eq_true_eq] at h ⊢
        exact (List.mem_filter.1 h).1

theorem badAt_writeLoc (s : State) (bs : List Byte) (l m : Loc) (g : Nat) : (s.writeLoc bs l).badAt m g = s.badAt m g := by
  cases l with
  | scratch t off =>
    cases m with
    | phys pa => rfl
    | scratch u off' =>
      by_cases hu : u = t
      · subst hu
        simp only [State.badAt, State.writeLoc, mapTile_eq, tile_setTile_self]; rfl
      · simp only [State.badAt, State.writeLoc, mapTile_eq, tile_setTile_other _ _ hu]
  | phys pa =>
    simp only [State.writeLoc]
    rw [memWr_rest]
    cases m <;> rfl

/-- A store that merges into no bad granule is performed, and makes no granule bad. -/
theorem storeLoc_of_not_bad {s : State} {bs : List Byte} {l : Loc} (h : s.writeBad l bs.length = false) :
    KeepsHarts s (s.storeLoc bs l) ∧ ∀ m g, (s.storeLoc bs l).badAt m g = true → s.badAt m g = true := by
  have hn : s.mergeBad l bs.length = none := by simpa [State.writeBad] using h
  have e : s.storeLoc bs l = (s.heal l bs.length).writeLoc bs l := by rw [State.storeLoc, hn]
  rw [e]
  refine ⟨(keepsHarts_heal _ _ _).trans (keepsHarts_writeLoc _ _ _), fun m g hb => ?_⟩
  rw [badAt_writeLoc] at hb
  exact badAt_of_heal hb

theorem writeBad_mono {s t : State} (h : ∀ m g, t.badAt m g = true → s.badAt m g = true) {l : Loc} {n : Nat}
    (hs : s.writeBad l n = false) : t.writeBad l n = false := by
  simp only [State.writeBad, State.mergeBad, Option.isSome_eq_false_iff, Option.isNone_iff_eq_none, List.find?_eq_none] at hs ⊢
  intro g hg hb
  simp only [Bool.and_eq_true] at hb
  exact hs g hg (by simp only [Bool.and_eq_true]; exact ⟨h l g hb.1, hb.2⟩)

/-- A write to places none of which merges into a bad granule reports nothing. -/
theorem keepsHarts_writeParts {ls : List (Loc × Nat)} {bs : List Byte} {s : State}
    (hb : ∀ p ∈ ls, s.writeBad p.1 p.2 = false) (hn : (ls.map (·.2)).sum ≤ bs.length) : KeepsHarts s (s.writeParts bs ls) := by
  induction ls generalizing s bs with
  | nil => exact KeepsHarts.refl s
  | cons p ls ih =>
    obtain ⟨l, n⟩ := p
    simp only [List.map_cons, List.sum_cons] at hn
    have hl : (bs.take n).length = n := by rw [List.length_take]; omega
    obtain ⟨keep, mono⟩ := storeLoc_of_not_bad (s := s) (bs := bs.take n) (l := l) (by rw [hl]; exact hb _ List.mem_cons_self)
    have rest {t : State} (q : KeepsHarts s t) (m : ∀ l g, t.badAt l g = true → s.badAt l g = true) :
        KeepsHarts s (t.writeParts (bs.drop n) ls) :=
      q.trans (ih (fun p hp => writeBad_mono m (hb p (List.mem_cons_of_mem _ hp))) (by rw [List.length_drop]; omega))
    unfold State.writeParts
    cases l with
    | scratch t off => exact rest keep mono
    | phys pa =>
      simp only
      split
      · unfold State.ioStore
        split
        · exact rest (KeepsHarts.refl s) fun _ _ h => h
        · exact rest ⟨rfl, rfl⟩ fun l g h => by cases l <;> exact h
      · exact rest keep mono

/-- The handler's frame is written, or a cause comes. -/
theorem writeFrame_cases {s t : State} {h : Nat} {frame : Word} {r : Option Cause} (e : s.writeFrame h frame = (r, t)) :
    (r = none ∧ KeepsHarts s t) ∨ (∃ c, r = some c ∧ Rings s t) := by
  have q := keepsHarts_placeParts s (s.requester h .system) (if isT h then some (tileOf h) else none) .store false
    (splitPages frame.toNat 2 16)
  unfold State.writeFrame at e
  simp only at e
  split at e
  · next hp => cases e; rw [hp] at q; exact .inr ⟨_, rfl, q.rings⟩
  · next ls u hp =>
    rw [hp] at q
    split at e
    · cases e; exact .inr ⟨_, rfl, q.rings.trans (rings_report _ _)⟩
    · next hb =>
      cases e
      refine .inl ⟨rfl, q.trans (keepsHarts_writeParts (fun p hp => ?_) ?_)⟩
      · simpa using fun hw => hb (List.any_eq_true.2 ⟨p, hp, hw⟩)
      · rw [sizes_placeParts hp]
        simpa using sum_splitPages_le frame.toNat 2 16

/-! ## Taking an exception (R320, R321, R324, R330)

One law per stage of an entry, down to what a precise trap of the word at hand does. -/

/-- y is frozen with DOUBLE, which names the cause that could not be delivered and the one that stopped it (R330). -/
structure Hart.Doubled (y : Hart) (d : Delivery) (cause stop : Cause) : Prop where
  run : y.run = .frozen d
  tcause : y.tcause = 0x50
  tval : y.tval = cause.zeroExtend 64 ||| (stop.zeroExtend 64 <<< 8)

/-- y is x, which runs at the vector base or waits for its delivery. -/
def Hart.AtVector (x y : Hart) (base : Word) : Prop :=
  ((y.run = .running ∧ y.pc = base ∧ y.w1 = false ∧ base ≠ 0) ∨ y.run = .delivering)
  ∧ y.tcause = x.tcause ∧ y.tval = x.tval ∧ y.tpc = x.tpc ∧ y.tseq = x.tseq ∧ y.tstatus = x.tstatus ∧ y.priv = x.priv
  ∧ y.loopsH = x.loopsH

theorem Hart.Doubled.rung {x y : Hart} {d : Delivery} {cause stop : Cause} (h : x.Doubled d cause stop) (r : x.Rung y) :
    y.Doubled d cause stop := by
  obtain ⟨_, _, rfl⟩ := r
  exact ⟨h.run, h.tcause, h.tval⟩

/-- The strand or core h of s is frozen in t, and all others are but for interrupts as they were. -/
structure Freezes (s t : State) (h : Nat) (d : Delivery) (cause stop : Cause) : Prop where
  issue : t.issue = s.issue
  others : ∀ k, k ≠ h → (s.hart k).Rung (t.hart k)
  mine : (t.hart h).Doubled d cause stop

theorem Freezes.of_rings {s t u : State} {h : Nat} {d : Delivery} {cause stop : Cause} (r : Rings s t)
    (f : Freezes t u h d cause stop) : Freezes s u h d cause stop :=
  ⟨f.issue.trans r.issue, fun k hk => (r.harts k).trans (f.others k hk), f.mine⟩

theorem freezes_freeze (s : State) (h : Nat) (d : Delivery) (cause stop : Cause) (u : Undelivered) :
    Freezes s (s.freeze h d cause stop u) h d cause stop := by
  unfold State.freeze
  simp only [mapHart_eq]
  set v := s.setHart h _ with hv
  have f : Freezes s v h d cause stop := by
    refine ⟨rfl, fun k hk => ?_, ?_⟩
    · rw [hv, hart_setHart_other _ _ hk]; exact Hart.Rung.refl _
    · rw [hv, hart_setHart_self]; exact ⟨rfl, rfl, rfl⟩
  split
  · have r := rings_mgmtEvent v .resident 1 0 (tileOf h + 512 * (strandOf h).val) 0
      (cDOUBLE.toNat + 2 ^ 32 * ((cause.zeroExtend 64 ||| (stop.zeroExtend 64 <<< 8)).toNat % 2 ^ 32))
    exact ⟨r.issue.trans f.issue, fun k hk => (f.others k hk).trans (r.harts k), f.mine.rung (r.harts h)⟩
  · exact f

/-- Steps 4 and 5 of R321: the strand or core freezes, or it alone goes on, at the vector or waiting. -/
def Delivers (s t : State) (h : Nat) (cause : Cause) : Prop :=
  (∃ d stop, Freezes s t h d cause stop) ∨
  (t.issue = s.issue ∧ (∀ k, k ≠ h → t.hart k = s.hart k)
    ∧ (s.hart h).AtVector (t.hart h) (s.tvecOf h &&& 0x0000FFFFFFFFFFF8))

theorem delivers_of_fails {s t : State} {h : Nat} (r : Rings s t) (d : Delivery) (cause stop : Cause) (u : Undelivered) :
    Delivers s (t.freeze h d cause stop u) h cause :=
  .inl ⟨d, stop, (freezes_freeze t h d cause stop u).of_rings r⟩

theorem delivers_of_keeps {s t : State} {h : Nat} {y : Hart} {cause : Cause} (q : KeepsHarts s t)
    (hy : (s.hart h).AtVector y (s.tvecOf h &&& 0x0000FFFFFFFFFFF8)) : Delivers s (t.setHart h y) h cause := by
  refine .inr ⟨q.issue, fun k hk => ?_, ?_⟩
  · rw [hart_setHart_other _ _ hk, q.hart]
  · rw [hart_setHart_self]; exact hy

theorem atVector_waits (x : Hart) (u : Undelivered) (base : Word) :
    x.AtVector { x with run := .delivering, undelivered := some u } base :=
  ⟨.inr rfl, rfl, rfl, rfl, rfl, rfl, rfl, rfl⟩

theorem atVector_runs (x : Hart) (rec frame : Word) (u : Undelivered) {base : Word} (h : base ≠ 0) :
    x.AtVector { ((x.wx 1 rec).wx 2 frame).goto base 0 with run := .running, undelivered := some u } base :=
  ⟨.inl ⟨rfl, rfl, rfl, h⟩, rfl, rfl, rfl, rfl, rfl, rfl, rfl⟩

theorem delivers_deliver (s : State) (h : Nat) (u : Undelivered) : Delivers s (s.deliver h u) h (u.tcause.setWidth 8) := by
  unfold State.deliver
  extract_lets cause base
  split
  · exact delivers_of_keeps (KeepsHarts.refl s) (atVector_waits _ _ _)
  split
  · exact delivers_of_fails (Rings.refl s) _ _ _ _
  next hbase =>
  split
  · next c s1 e =>
    obtain ⟨_, ⟨⟩, -⟩ | ⟨_, -, r1⟩ := frameAddr_cases e
    exact delivers_of_fails r1 _ _ _ _
  next frame s1 e =>
  obtain ⟨_, -, q1⟩ | ⟨_, ⟨⟩, -⟩ := frameAddr_cases e
  split
  next cl s2 e2 =>
  -- the slot of the record: a core has none, and an entry that has waited has claimed its own
  have claim : (∃ v, cl = .ok v ∧ KeepsHarts s1 s2) ∨ (∃ c, cl = .fail c ∧ Rings s1 s2) := by
    split at e2
    · cases e2; exact .inl ⟨_, rfl, KeepsHarts.refl s1⟩
    · split at e2
      · cases e2; exact .inl ⟨_, rfl, KeepsHarts.refl s1⟩
      · exact claimSlot_cases e2
  clear e2
  split
  · obtain ⟨_, ⟨⟩, -⟩ | ⟨_, -, r2⟩ := claim
    exact delivers_of_fails (q1.rings.trans r2) _ _ _ _
  · obtain ⟨_, ⟨⟩, -⟩ | ⟨_, ⟨⟩, -⟩ := claim
  next slot =>
  obtain ⟨_, -, q2⟩ | ⟨_, ⟨⟩, -⟩ := claim
  have q12 := q1.trans q2
  extract_lets u'
  split
  next w s3 e3 =>
  have written : (∃ v, w = .ok v ∧ KeepsHarts s2 s3) ∨ (w = .wait ∧ KeepsHarts s2 s3) ∨ (∃ c, w = .fail c ∧ Rings s2 s3) := by
    split at e3
    · cases e3; exact .inl ⟨_, rfl, KeepsHarts.refl s2⟩
    · exact writeRecord_cases e3
  clear e3
  split
  · obtain ⟨_, ⟨⟩, -⟩ | ⟨⟨⟩, -⟩ | ⟨_, -, r3⟩ := written
    exact delivers_of_fails (q12.rings.trans r3) _ _ _ _
  · obtain ⟨_, ⟨⟩, -⟩ | ⟨-, q3⟩ | ⟨_, ⟨⟩, -⟩ := written
    have q := q12.trans q3
    rw [mapHart_eq, q.hart]
    exact delivers_of_keeps q (atVector_waits _ _ _)
  · obtain ⟨_, -, q3⟩ | ⟨⟨⟩, -⟩ | ⟨_, ⟨⟩, -⟩ := written
    have q123 := q12.trans q3
    split
    · next c s4 e4 =>
      obtain ⟨⟨⟩, -⟩ | ⟨_, -, r4⟩ := writeFrame_cases e4
      exact delivers_of_fails (q123.rings.trans r4) _ _ _ _
    · next s4 e4 =>
      obtain ⟨-, q4⟩ | ⟨_, ⟨⟩, -⟩ := writeFrame_cases e4
      have q := q123.trans q4
      rw [mapHart_eq, q.hart]
      exact delivers_of_keeps q (atVector_runs _ _ _ _ hbase)

/-! ### Before the entry: results land -/

/-- y has the place, the privilege and the trap registers of x. -/
def Hart.Stands (x y : Hart) : Prop :=
  y.pc = x.pc ∧ y.w1 = x.w1 ∧ y.priv = x.priv ∧ y.tstatus = x.tstatus ∧ y.seq = x.seq ∧ y.tvec = x.tvec

theorem Hart.Stands.refl (x : Hart) : x.Stands x := ⟨rfl, rfl, rfl, rfl, rfl, rfl⟩
theorem Hart.Stands.trans {x y z : Hart} (a : x.Stands y) (b : y.Stands z) : x.Stands z := by
  obtain ⟨a1, a2, a3, a4, a5, a6⟩ := a
  obtain ⟨b1, b2, b3, b4, b5, b6⟩ := b
  exact ⟨b1.trans a1, b2.trans a2, b3.trans a3, b4.trans a4, b5.trans a5, b6.trans a6⟩

theorem stands_put (x : Hart) (l : Landing) : x.Stands (x.put l) := by
  cases l with
  | none => exact Hart.Stands.refl x
  | x r v => simp only [Hart.put, Hart.wx]; split <;> exact Hart.Stands.refl x
  | v r v m => simp only [Hart.put, Hart.wv]; split <;> exact Hart.Stands.refl x
  | k r v => simp only [Hart.put, Hart.wk]; split <;> exact Hart.Stands.refl x

theorem stands_land (x : Hart) (wait : Bool) (l : Landing) (fl en : BitVec 5) (org : Origin) :
    x.Stands (x.land wait l fl en org) := by
  unfold Hart.land
  simp only
  split <;> exact stands_put x l

theorem stands_foldl_land (l : List InFlight) (x : Hart) :
    x.Stands (l.foldl (fun x f => x.land f.wait f.land f.fl f.en f.org) x) :=
  foldl_rel Hart.Stands.refl Hart.Stands.trans (fun x _ _ => stands_land x _ _ _ _ _) x

/-- What comes before an entry of h in t: its place, its privilege and its vector are as in s. -/
structure Prepares (s t : State) (h : Nat) : Prop where
  issue : t.issue = s.issue
  ctxs : t.ctxs = s.ctxs
  ctx : ∀ u, (t.tile u).ctx = (s.tile u).ctx
  mine : (s.hart h).Stands (t.hart h)

theorem Prepares.refl (s : State) (h : Nat) : Prepares s s h := ⟨rfl, rfl, fun _ => rfl, Hart.Stands.refl _⟩
theorem Prepares.trans {s t u : State} {h : Nat} (a : Prepares s t h) (b : Prepares t u h) : Prepares s u h :=
  ⟨b.issue.trans a.issue, b.ctxs.trans a.ctxs, fun v => (b.ctx v).trans (a.ctx v), a.mine.trans b.mine⟩

theorem Prepares.tvecOf {s t : State} {h : Nat} (a : Prepares s t h) : t.tvecOf h = s.tvecOf h := by
  obtain ⟨-, -, -, -, -, hv⟩ := a.mine
  simp only [State.tvecOf, State.ctx, a.ctxs, a.ctx, hv]

theorem prepares_setHart (s : State) {h : Nat} {x : Hart} (hx : (s.hart h).Stands x) : Prepares s (s.setHart h x) h :=
  ⟨rfl, rfl, fun _ => rfl, by rw [hart_setHart_self]; exact hx⟩

theorem prepares_stickTern (s : State) (h t : Nat) : Prepares s (s.mapTile t (·.stickTern)) h := by
  refine ⟨rfl, rfl, fun u => ?_, Hart.Stands.refl _⟩
  by_cases hu : u = t
  · subst hu; simp only [mapTile_eq, tile_setTile_self]; rfl
  · rw [mapTile_eq, tile_setTile_other _ _ hu]

theorem prepares_landDue (s : State) (h : Nat) (due : InFlight → Bool) :
    Prepares s (s.landDue h due) h ∧ ∀ k, k ≠ h → (s.landDue h due).hart k = s.hart k := by
  unfold State.landDue
  simp only
  split
  · exact ⟨Prepares.refl s h, fun _ _ => rfl⟩
  · set y := List.foldl _ _ _ with hy
    have stands : (s.hart h).Stands y := by
      rw [hy]
      exact Hart.Stands.trans (y := { s.hart h with flight := _ }) (Hart.Stands.refl _) (stands_foldl_land _ _)
    have p := prepares_setHart s stands
    have o (k : Nat) (hk : k ≠ h) : (s.setHart h y).hart k = s.hart k := hart_setHart_other _ _ hk
    split
    · exact ⟨p.trans (prepares_stickTern _ _ _), o⟩
    · exact ⟨p, o⟩

theorem prepares_drainFlight (s : State) (h : Nat) :
    Prepares s (s.drainFlight h) h ∧ ∀ k, k ≠ h → (s.drainFlight h).hart k = s.hart k := by
  unfold State.drainFlight
  simp only [mapHart_eq]
  split
  all_goals
    refine ⟨(prepares_landDue s h _).1.trans (prepares_setHart _ (Hart.Stands.refl _)), fun k hk => ?_⟩
    rw [hart_setHart_other _ _ hk, (prepares_landDue s h _).2 k hk]

theorem prepares_dropUnhanded (s : State) (h : Nat) :
    Prepares s (s.dropUnhanded h) h ∧ ∀ k, k ≠ h → (s.dropUnhanded h).hart k = s.hart k := by
  unfold State.dropUnhanded
  split <;> exact ⟨⟨rfl, rfl, fun _ => rfl, Hart.Stands.refl _⟩, fun _ _ => rfl⟩

/-! ### The entry -/

/-- y is x after it has taken an entry: its trap registers are those of the entry at its place. -/
def Hart.Enters (x y : Hart) (base : Word) (e : Entry) : Prop :=
  ((y.run = .running ∧ y.pc = base ∧ y.w1 = false ∧ base ≠ 0) ∨ y.run = .delivering)
  ∧ (∃ z now, x.Stands z ∧ y.tcause = (entryRegs z e now).tcause ∧ y.tval = (entryRegs z e now).tval ∧ y.tpc = (entryRegs z e now).tpc
      ∧ y.tseq = (entryRegs z e now).tseq ∧ y.tstatus = (entryRegs z e now).tstatus)
  ∧ y.priv = (if x.priv = .user then .system else x.priv) ∧ y.loopsH = []

theorem Hart.Enters.rung {x y z : Hart} {base : Word} {e : Entry} (h : x.Enters y base e) (r : y.Rung z) : x.Enters z base e := by
  obtain ⟨_, _, rfl⟩ := r
  exact h

/-- What an entry of h comes to: above USER with TSTATUS.RE = 0 it freezes as nested (R324); else it freezes where its delivery fails, or
it alone goes on. -/
structure EntersAt (s t : State) (h : Nat) (e : Entry) : Prop where
  issue : t.issue = s.issue
  others : ∀ k, k ≠ h → (s.hart k).Rung (t.hart k)
  nested : (s.hart h).priv ≠ .user → tsRE (s.hart h) = false → (t.hart h).Doubled .nested e.code cDOUBLE
  entered : ((s.hart h).priv = .user ∨ tsRE (s.hart h) = true) →
    (∃ d stop, (t.hart h).Doubled d e.code stop) ∨
      ((s.hart h).Enters (t.hart h) (s.tvecOf h &&& 0x0000FFFFFFFFFFF8) e ∧ ∀ k, k ≠ h → t.hart k = s.hart k)

theorem setWidth_entryRegs_tcause (x : Hart) (e : Entry) (now : Nat) : (entryRegs x e now).tcause.setWidth 8 = e.code := by
  simp only [entryRegs]
  ext i hi
  cases e.int <;> simp

theorem tvecOf_setHart (s : State) (h : Nat) {x : Hart} (hx : x.tvec = (s.hart h).tvec) : (s.setHart h x).tvecOf h = s.tvecOf h := by
  simp only [State.tvecOf, hart_setHart_self, hx]
  rfl

/-- x when an entry has ended every wait of its word. -/
def Hart.unwaiting (x : Hart) : Hart :=
  { x with
    since := none, wake := none, wfe := none, wfeOver := false, qcfg := none, cpygo := none
    coupling := none, ereting := false, couple := if x.coupled then x.couple else none
    mtcPend := none, bubble := 0 }

theorem enter_eq (s : State) (h : Nat) (e : Entry) :
    let v := (s.dropUnhanded h).drainFlight h
    let x := v.hart h
    let u := entryRegs x e v.dtime
    s.enter h e = if x.priv ≠ .user ∧ tsRE x = false then (v.setHart h x.unwaiting).freeze h .nested e.code cDOUBLE u
      else (v.setHart h (x.unwaiting.writeEntry u)).deliver h u := by
  intro v x u
  have hw : (v.setHart h x.unwaiting).mapHart h (·.writeEntry u) = v.setHart h (x.unwaiting.writeEntry u) := by
    rw [mapHart_eq, setHart_setHart, hart_setHart_self]
  rw [← hw]
  rfl

theorem entersAt_enter (s : State) (h : Nat) (e : Entry) : EntersAt s (s.enter h e) h e := by
  obtain ⟨p1, o1⟩ := prepares_dropUnhanded s h
  obtain ⟨p2, o2⟩ := prepares_drainFlight (s.dropUnhanded h) h
  rw [enter_eq]
  set v := (s.dropUnhanded h).drainFlight h
  have p : Prepares s v h := p1.trans p2
  have o (y : Hart) (k : Nat) (hk : k ≠ h) : (v.setHart h y).hart k = s.hart k := by
    rw [hart_setHart_other _ _ hk, o2 k hk, o1 k hk]
  obtain ⟨-, -, hpriv, hst, -, -⟩ := p.mine
  have hre : tsRE (v.hart h) = tsRE (s.hart h) := by simp only [tsRE, hst]
  rw [hpriv, hre]
  split
  · next hn =>
    obtain ⟨hup, hre0⟩ := hn
    have f := freezes_freeze (v.setHart h (v.hart h).unwaiting) h .nested e.code cDOUBLE (entryRegs (v.hart h) e v.dtime)
    refine ⟨f.issue.trans p.issue, fun k hk => o _ k hk ▸ f.others k hk, fun _ _ => f.mine, ?_⟩
    rintro (hc | hc)
    · exact absurd hc hup
    · rw [hre0] at hc; cases hc
  · next hn =>
    set u := entryRegs (v.hart h) e v.dtime with hu
    have hd := delivers_deliver (v.setHart h ((v.hart h).unwaiting.writeEntry u)) h u
    rw [hu, setWidth_entryRegs_tcause, ← hu] at hd
    rcases hd with ⟨d, stop, f⟩ | ⟨hi, ho, hm⟩
    · exact ⟨f.issue.trans p.issue, fun k hk => o _ k hk ▸ f.others k hk, fun a b => absurd ⟨a, b⟩ hn, fun _ => .inl ⟨d, stop, f.mine⟩⟩
    · have ho' (k : Nat) (hk : k ≠ h) := (ho k hk).trans (o _ k hk)
      refine ⟨hi.trans p.issue, fun k hk => ho' k hk ▸ Hart.Rung.refl _, fun a b => absurd ⟨a, b⟩ hn, fun _ => .inr ⟨?_, ho'⟩⟩
      rw [tvecOf_setHart v h (x := (v.hart h).unwaiting.writeEntry u) rfl, p.tvecOf, hart_setHart_self] at hm
      obtain ⟨hrun, h1, h2, h3, h4, h5, h6, h7⟩ := hm
      exact ⟨hrun, ⟨v.hart h, v.dtime, p.mine, h1, h2, h3, h4, h5⟩, by rw [h6, ← hpriv]; rfl, h7⟩

/-! ### The entry of a strand in a consist (R266) -/

theorem prepares_setHart_any (s : State) (h : Nat) {k : Nat} {x : Hart} (hx : (s.hart k).Stands x) : Prepares s (s.setHart k x) h := by
  by_cases hk : h = k
  · subst hk; exact prepares_setHart s hx
  · exact ⟨rfl, rfl, fun _ => rfl, by rw [hart_setHart_other _ _ hk]; exact Hart.Stands.refl _⟩

theorem prepares_markRest (s : State) (t h : Nat) : Prepares s (s.markRest t) h := by
  unfold State.markRest
  extract_lets ms low wait
  split
  · exact Prepares.refl s h
  · refine foldl_rel (R := fun v w => Prepares v w h) (fun v => Prepares.refl v h) Prepares.trans (fun v m _ => ?_) s
    exact prepares_setHart_any v h (Hart.Stands.refl (v.hart (4 * m)))

/-- The entries of the other members leave a strand of tile t as it is, but for interrupts. -/
theorem stopMates_rung (s : State) {t h : Nat} (ht : tileOf h = t) :
    (s.stopMates t).issue = s.issue ∧ (s.hart h).Rung ((s.stopMates t).hart h) := by
  unfold State.stopMates
  refine foldl_rel (R := fun v w => w.issue = v.issue ∧ (v.hart h).Rung (w.hart h)) (fun v => ⟨rfl, Hart.Rung.refl _⟩)
    (fun ⟨i, r⟩ ⟨j, q⟩ => ⟨j.trans i, r.trans q⟩) (fun v u hu => ?_) s
  have hne : h ≠ 4 * u := by
    have hut : u ≠ t := by simpa using (List.mem_filter.1 hu).2
    unfold tileOf at ht
    omega
  split
  · have a := entersAt_enter v (4 * u) { code := cCOUPLE, tval := BitVec.ofNat 64 (8 + 256 * (v.tile t).cpos) }
    exact ⟨a.issue, a.others h hne⟩
  · exact ⟨rfl, Hart.Rung.refl _⟩

/-- What taking an entry comes to for h, in a consist or outside one. -/
structure TakesEntry (s t : State) (h : Nat) (e : Entry) : Prop where
  issue : t.issue = s.issue
  nested : (s.hart h).priv ≠ .user → tsRE (s.hart h) = false → (t.hart h).Doubled .nested e.code cDOUBLE
  entered : ((s.hart h).priv = .user ∨ tsRE (s.hart h) = true) →
    (∃ d stop, (t.hart h).Doubled d e.code stop) ∨ (s.hart h).Enters (t.hart h) (s.tvecOf h &&& 0x0000FFFFFFFFFFF8) e
  alone : (isT h = false ∨ (s.tile (tileOf h)).csize ≤ 1) → (∀ d, (t.hart h).run ≠ .frozen d) → ∀ k, k ≠ h → t.hart k = s.hart k

theorem EntersAt.takes {s t : State} {h : Nat} {e : Entry} (a : EntersAt s t h e) : TakesEntry s t h e where
  issue := a.issue
  nested := a.nested
  entered := fun hc => (a.entered hc).imp id And.left
  alone := fun _ hf => by
    by_cases hc : (s.hart h).priv = .user ∨ tsRE (s.hart h) = true
    · rcases a.entered hc with ⟨d, stop, hd⟩ | ⟨-, ho⟩
      · exact absurd hd.run (hf d)
      · exact ho
    · obtain ⟨hp, hr⟩ := not_or.1 hc
      exact absurd (a.nested hp (by simpa using hr)).run (hf _)

theorem Hart.Enters.of_stands {x x' y : Hart} {base : Word} {e : Entry} (a : x.Stands x') (b : x'.Enters y base e) : x.Enters y base e := by
  obtain ⟨hrun, ⟨z, now, hz, hregs⟩, hpriv, hloops⟩ := b
  obtain ⟨-, -, hp, -⟩ := id a
  exact ⟨hrun, ⟨z, now, a.trans hz, hregs⟩, by rw [hpriv, hp], hloops⟩

/-- Outside a replay an entry marks and stops the consist of its strand, and that strand enters as it would alone. -/
theorem takesEntry_takeEntry (s : State) (h : Nat) {e : Entry} (he : e.replay = false) : TakesEntry s (s.takeEntry h e) h e := by
  unfold State.takeEntry
  simp only [he, Bool.and_false, Bool.false_eq_true, if_false]
  split
  · next hc =>
    obtain ⟨hT, hsize, huser⟩ := hc
    have p := prepares_markRest s (tileOf h) h
    have a := entersAt_enter (s.markRest (tileOf h)) h e
    obtain ⟨i, r⟩ := stopMates_rung ((s.markRest (tileOf h)).enter h e) (rfl : tileOf h = tileOf h)
    refine ⟨i.trans (a.issue.trans p.issue), fun hp => absurd huser hp, fun hcond => ?_, fun hn => ?_⟩
    · obtain ⟨-, -, hpriv, -⟩ := p.mine
      rcases a.entered (.inl (hpriv.trans huser)) with ⟨d, stop, hd⟩ | ⟨hm, -⟩
      · exact .inl ⟨d, stop, hd.rung r⟩
      · rw [p.tvecOf] at hm
        exact .inr ((hm.of_stands p.mine).rung r)
    · rcases hn with hn | hn
      · rw [hT] at hn; cases hn
      · omega
  · exact (entersAt_enter s h e).takes

/-! ### The trap registers (R319, R321) -/

/-- The low field of a word with another above it. -/
theorem toNat_zeroExtend_or_shiftLeft {n : Nat} (hn : n ≤ 64) (a : BitVec n) (b : Word) :
    (a.zeroExtend 64 ||| (b <<< n)).toNat % 2 ^ n = a.toNat := by
  have hb : (b <<< n).toNat % 2 ^ n = 0 := by
    rw [BitVec.toNat_shiftLeft, Nat.shiftLeft_eq, Nat.mod_mod_of_dvd _ (Nat.pow_dvd_pow 2 hn), Nat.mul_mod_left]
  rw [BitVec.toNat_or, Nat.or_mod_two_pow, hb, Nat.or_zero, BitVec.toNat_setWidth_of_le hn, Nat.mod_eq_of_lt a.isLt]

theorem entryRegs_tseq (x : Hart) (e : Entry) (now : Nat) : (entryRegs x e now).tseq.toNat % 2 ^ 16 = e.seq.toNat :=
  toNat_zeroExtend_or_shiftLeft (by decide) e.seq _

theorem ite_eq_mul_toNat (b : Bool) (n : Nat) : (if b = true then n else 0) = n * b.toNat := by cases b <;> simp

/-- TSTATUS of an entry: the fields of R319, from the privilege upward. -/
theorem entryRegs_tstatus (x : Hart) (e : Entry) (now : Nat) :
    ∃ shadow < 64, (entryRegs x e now).tstatus.toNat = x.priv.code + 4 * x.w1.toNat + 8 * e.late.toNat + 16 * e.replay.toNat
      + 64 * shadow + 4096 * e.bpskip.toNat + 65536 * e.faddr.toNat := by
  have hshadow : ∃ n < 64, (if x.shadow.length = 0 then 0 else 64 + 128 * (x.shadow.length % 32)) = 64 * n := by
    split
    · exact ⟨0, by omega, rfl⟩
    · exact ⟨1 + 2 * (x.shadow.length % 32), by omega, by omega⟩
  obtain ⟨n, hn, e1⟩ := hshadow
  have hp : x.priv.code < 4 := by cases x.priv <;> decide
  have hf := e.faddr.isLt
  have h1 := Bool.toNat_lt x.w1
  have h2 := Bool.toNat_lt e.late
  have h3 := Bool.toNat_lt e.replay
  have h4 := Bool.toNat_lt e.bpskip
  refine ⟨n, hn, ?_⟩
  simp only [entryRegs, BitVec.toNat_ofNat, ite_eq_mul_toNat, e1]
  omega

theorem getLsbD_eq_decide {n : Nat} (v : BitVec n) (i : Nat) : v.getLsbD i = decide (v.toNat / 2 ^ i % 2 = 1) := by
  rw [BitVec.getLsbD, Nat.testBit_eq_decide_div_mod_eq]

/-- The trap registers of a precise trap are those of R321. -/
theorem tookTrap_of_enters {x y : Hart} {base : Word} {w : Bool} {cause : Cause} {tval : Word} {port : Option PortNo}
    (h : Hart.Enters { x with w1 := w } y (base &&& 0x0000FFFFFFFFFFF8) { code := cause, tval := tval, port := port }) :
    TookTrap x y base w cause tval := by
  obtain ⟨hrun, ⟨z, now, ⟨zpc, zw1, zpriv, -, -, -⟩, hcause, htval, htpc, htseq, hts⟩, hpriv, hloops⟩ := h
  obtain ⟨shadow, hs, hn⟩ := entryRegs_tstatus z { code := cause, tval := tval, port := port } now
  replace hn : y.tstatus.toNat = x.priv.code + 4 * w.toNat + 64 * shadow := by
    rw [← hts, zw1, zpriv] at hn
    simpa using hn
  have hp : x.priv.code < 4 := by cases x.priv <;> decide
  have hw : w.toNat < 2 := Bool.toNat_lt w
  have zero (i : Nat) (hi : y.tstatus.toNat / 2 ^ i % 2 = 0) : y.tstatus.getLsbD i = false := by
    simp [getLsbD_eq_decide, hi]
  refine .inr ⟨hrun.imp And.left id, fun hr => ?_, ?_, htval, ?_, ?_, by omega, ?_, zero 3 (by omega), zero 4 (by omega),
    zero 5 (by omega), zero 12 (by omega), zero 13 (by omega), by omega, hpriv, hloops⟩
  · rcases hrun with ⟨-, hpc, hw1, hb⟩ | hd
    · exact ⟨hpc, hw1, hpc ▸ hb⟩
    · rw [hr] at hd; cases hd
  · rw [hcause]; simp [entryRegs]
  · rw [htpc]; simp only [entryRegs, zpc]
  · rw [htseq, entryRegs_tseq]; rfl
  · have hbit : y.tstatus.toNat / 2 ^ 2 % 2 = w.toNat := by omega
    rw [getLsbD_eq_decide, hbit]
    cases w <;> rfl

/-- The state in which the precise trap of the word at hand is taken: its place is its bundle and its index. -/
def State.trapping (s : State) (cause : Cause) (tval : Word) (port : Option PortNo) : State :=
  { s.setHart s.cur { s.hart s.cur with w1 := s.issue.w1 && !s.issue.paired } with
    issue := { s.issue with ctl := .trapped cause tval port } }

theorem trapPort_eq (s : State) (cause : Cause) (tval : Word) (port : Option PortNo) :
    s.trapPort cause tval port
      = (s.trapping cause tval port).takeEntry s.cur { code := cause, tval := tval, port := port } := rfl

theorem hart_trapping_self (s : State) (cause : Cause) (tval : Word) (port : Option PortNo) :
    (s.trapping cause tval port).hart s.cur = { s.hart s.cur with w1 := s.issue.w1 && !s.issue.paired } :=
  hart_setHart_self s s.cur _

theorem hart_trapping_other (s : State) (cause : Cause) (tval : Word) (port : Option PortNo) {k : Nat} (hk : k ≠ s.cur) :
    (s.trapping cause tval port).hart k = s.hart k :=
  hart_setHart_other s _ hk

theorem tvecOf_trapping (s : State) (cause : Cause) (tval : Word) (port : Option PortNo) :
    (s.trapping cause tval port).tvecOf s.cur = s.tvecOf s.cur :=
  tvecOf_setHart s s.cur (x := { s.hart s.cur with w1 := s.issue.w1 && !s.issue.paired }) rfl

/-- A precise trap of the word at hand does what R320, R321, R324 and R330 say. -/
theorem trapsAt_trapPort (s : State) (cause : Cause) (tval : Word) (port : Option PortNo) :
    TrapsAt (.next (s.trapPort cause tval port)) s cause tval port := by
  rw [trapPort_eq]
  have a := takesEntry_takeEntry (s.trapping cause tval port) s.cur (e := { code := cause, tval := tval, port := port }) rfl
  have hme := hart_trapping_self s cause tval port
  refine ⟨_, rfl, a.issue, fun hc => ?_, fun ⟨hp, hr⟩ => ?_, fun hn hf k hk => ?_⟩
  · rcases a.entered (by rw [hme]; exact hc) with ⟨d, stop, hd⟩ | he
    · exact .inl ⟨d, hd.run, hd.tcause, by rw [hd.tval]; exact toNat_zeroExtend_or_shiftLeft (by decide) cause _⟩
    · rw [hme, tvecOf_trapping] at he
      exact tookTrap_of_enters he
  · have hd := a.nested (by rw [hme]; exact hp) (by rw [hme]; exact hr)
    exact ⟨hd.run, hd.tcause, hd.tval⟩
  · rw [a.alone hn hf k hk, hart_trapping_other _ _ _ _ hk]

theorem traps_illegal (s : State) : Traps (.next s.illegal) s 0x01 s.wordTval := trapsAt_trapPort s _ _ none
theorem traps_privTrap (s : State) : Traps (.next s.privTrap) s 0x05 s.wordTval := trapsAt_trapPort s _ _ none

/-! ## MFC (R52, R53, R132) -/

theorem ready_of_readyT {s : State} (h : s.readyT) : s.ready := by
  refine ⟨h.1, ?_⟩
  have ht := h.2
  simp only [isT, isCore, decide_eq_true_eq] at ht ⊢
  omega

theorem waits_hold (s : State) : Waits (.next s.hold) s s.me := by
  refine ⟨_, rfl, ⟨rfl, fun k hk => ?_⟩, rfl, ?_⟩
  · exact hart_setHart_other _ _ hk
  · exact hart_setHart_self _ _ _

section
variable {s : State} (hs : s.ready) (d : XReg)
include hs

theorem exec_mfc_ready (r : BitVec 12) : exec (.mfc d r) s =
    if cregListed (!isT s.cur) r.toNat = false then .next s.illegal
    else if cregReadH r.toNat ∧ s.me.priv = .user then .next s.privTrap
    else if r.toNat = 0x300 ∧ s.flagsPending then .next s.hold
    else scalar s d (s.readCreg s.cur r.toNat) 1 := by
  rw [exec_mfc, execMfc, onCore_ready hs]

/-- A number that the profile does not list. -/
theorem mfc_unlisted {r : BitVec 12} (hl : cregListed (!isT s.cur) r.toNat = false) :
    Traps (exec (.mfc d r) s) s 0x01 s.wordTval := by
  rw [exec_mfc_ready hs, if_pos hl]
  exact traps_illegal s

variable {r : Nat} (hr : r < 2 ^ 12) (hl : cregListed (!isT s.cur) r = true)
include hr hl

/-- A register of HANDLER or KERNEL at USER. -/
theorem mfc_below (hH : cregReadH r = true) (hu : s.me.priv = .user) :
    Traps (exec (.mfc d (BitVec.ofNat 12 r)) s) s 0x05 s.wordTval := by
  rw [exec_mfc_ready hs, BitVec.toNat_ofNat, Nat.mod_eq_of_lt hr, hl, if_neg (by decide), if_pos ⟨hH, hu⟩]
  exact traps_privTrap s

/-- A register that may be read gives its value; FFLAGS where no flags are owing. -/
theorem mfc_gives (hp : cregReadH r = false ∨ s.me.priv ≠ .user) (hf : r = 0x300 → s.flagsPending = false) {v : Word}
    (hv : s.readCreg s.cur r = v) : Gives s (.x d v) 1 (exec (.mfc d (BitVec.ofNat 12 r)) s) := by
  have h1 : ¬ (cregReadH r = true ∧ s.me.priv = .user) := by
    rintro ⟨a, b⟩
    rcases hp with hp | hp
    · rw [hp] at a; cases a
    · exact hp b
  have h2 : ¬ (r = 0x300 ∧ s.flagsPending = true) := by
    rintro ⟨a, b⟩
    rw [hf a] at b; cases b
  rw [exec_mfc_ready hs, BitVec.toNat_ofNat, Nat.mod_eq_of_lt hr, hl, if_neg (by decide), if_neg h1, if_neg h2, hv]
  exact gives_scalar s d v 1

end

theorem cregListed_fflags (g : Bool) : cregListed g 0x300 = true := by cases g <;> decide

/-- FFLAGS while flags are owing, and where none are. -/
theorem mfc_fflags_waits {s : State} (hs : s.ready) (d : XReg) (hf : s.flagsPending = true) :
    Waits (exec (.mfc d 0x300) s) s s.me := by
  rw [exec_mfc_ready hs, show (0x300 : BitVec 12).toNat = 0x300 from rfl, cregListed_fflags, if_neg (by decide),
    if_neg (fun h => absurd h.1 (by decide)), if_pos ⟨rfl, hf⟩]
  exact waits_hold s

theorem mfc_fflags_gives {s : State} (hs : s.ready) (d : XReg) (hf : s.flagsPending = false) :
    Gives s (.x d (BitVec.ofNat 64 s.me.fflags.toNat)) 1 (exec (.mfc d (BitVec.ofNat 12 0x300)) s) :=
  mfc_gives hs d (by decide) (cregListed_fflags _) (.inl (by decide)) (fun _ => hf) (BitVec.ofNat_toNat 64 s.me.fflags).symm

section
variable {s : State} (hs : s.ready) (d : XReg) {g : Bool} (hg : (!isT s.cur) = g) {r : Nat} {v : Word}
include hs hg

/-- Any other register, at any privilege or above USER. -/
theorem mfc_reads (hv : s.readCreg s.cur r = v) (hr : r < 2 ^ 12 ∧ r ≠ 0x300 ∧ cregListed g r = true ∧ cregReadH r = false := by decide) :
    Gives s (.x d v) 1 (exec (.mfc d (BitVec.ofNat 12 r)) s) := by
  obtain ⟨h1, h2, h3, h4⟩ := hr
  exact mfc_gives hs d h1 (hg ▸ h3) (.inl h4) (fun h => absurd h h2) hv

theorem mfc_reads_above (hp : s.me.priv ≠ .user) (hv : s.readCreg s.cur r = v)
    (hr : r < 2 ^ 12 ∧ r ≠ 0x300 ∧ cregListed g r = true := by decide) : Gives s (.x d v) 1 (exec (.mfc d (BitVec.ofNat 12 r)) s) := by
  obtain ⟨h1, h2, h3⟩ := hr
  exact mfc_gives hs d h1 (hg ▸ h3) (.inr hp) (fun h => absurd h h2) hv

theorem mfc_loopc {ls : List LoopLevel} {n : Nat} (hl : s.me.loops = ls) (hn : loopWord ls = n) :
    Gives s (.x d (BitVec.ofNat 64 n)) 1 (exec (.mfc d (BitVec.ofNat 12 0x601)) s) := by
  refine mfc_reads hs d hg ?_ ⟨by decide, by decide, by cases g <;> decide, by decide⟩
  rw [← hn, ← hl]
  rfl

end

/-! ### What the registers hold -/

/-- For which floating results an MFC of FFLAGS waits on a strand (R62, R63, R101). -/
theorem flagsPending_strand {s : State} (h : isT s.cur = true) : s.flagsPending = true ↔
    (s.myTile.shared = true ∨ s.me.priv ≠ .user) ∧ ((∃ f ∈ s.me.flight, f.float = true)
      ∨ ∃ c ∈ s.myTile.cmds, c.strand = strandOf s.cur ∧ isDrain c.instr = true) := by
  simp [State.flagsPending, h]

/-- And on a profile G core (R403). -/
theorem flagsPending_core {s : State} (h : isT s.cur = false) : s.flagsPending = true ↔ ∃ f ∈ s.me.flight, f.float = true := by
  simp [State.flagsPending, h]

theorem active_eq_card (s : State) (t : Nat) :
    s.active t = ((Finset.range 128).filter (fun i => s.lost (128 * (t / 128) + i) = false)).card := by
  have e : (fun i => !s.lost (128 * (t / 128) + i)) = fun i => decide (s.lost (128 * (t / 128) + i) = false) := by
    funext i
    cases s.lost (128 * (t / 128) + i) <;> rfl
  unfold State.active dieOf
  rw [e]
  rfl

theorem busy_toNat (x : Tile) : 4 * x.busy.toNat = if x.cmds = [] then 0 else 4 := by
  unfold Tile.busy
  cases x.cmds <;> rfl

/-! BARGENL (R257) -/

theorem tileArrived_iff (s : State) (t : Nat) (l : Fin 4) (m : BitVec 32) : s.tileArrived t l m = true ↔
    (s.tile t).allHalted = true ∨ ((∃ i, (s.tile t).runs i = true)
      ∧ ∀ i : Fin 4, (s.tile t).runs i = true → ((s.hart (4 * t + i.val)).arrivals[l] - m).toNat < 2 ^ 31) := by
  have hruns : ((s.tile t).runs 0 || (s.tile t).runs 1 || (s.tile t).runs 2 || (s.tile t).runs 3) = true
      ↔ ∃ i, (s.tile t).runs i = true := by
    simp [Fin.exists_fin_succ, or_assoc]
  have hall : ([0, 1, 2, 3].all (fun i : Fin 4 => !(s.tile t).runs i || reached (s.hart (4 * t + i.val)).arrivals[l] m)) = true
      ↔ ∀ i : Fin 4, (s.tile t).runs i = true → ((s.hart (4 * t + i.val)).arrivals[l] - m).toNat < 2 ^ 31 := by
    simp [Fin.forall_fin_succ, reached, imp_iff_not_or]
  unfold State.tileArrived
  simp only
  split
  · next h => simp [h]
  · next h =>
    split
    · next hr => rw [hall]; simp [h, hruns.1 hr]
    · next hr =>
      rw [hruns] at hr
      simp only [h, hr, false_and, or_self, Bool.false_eq_true]

theorem arrivalMade_iff (s : State) (t : Nat) (l : Fin 4) (m : BitVec 32) : s.arrivalMade t l m = true ↔
    (∃ i : Fin 4, ((s.hart (4 * t + i.val)).arrivals[l] - m).toNat < 2 ^ 31) ∧ s.tileArrived t l m = true := by
  simp [State.arrivalMade, reached, Fin.exists_fin_succ, and_comm]

/-- Digits of w bits put together are read back one by one. -/
theorem digit_of_sum (w n : Nat) (f : Nat → Nat) (hf : ∀ i < n, f i < 2 ^ w) :
    ((List.range n).map (fun i => f i * 2 ^ (w * i))).sum < 2 ^ (w * n)
    ∧ ∀ k < n, ((List.range n).map (fun i => f i * 2 ^ (w * i))).sum / 2 ^ (w * k) % 2 ^ w = f k := by
  induction n generalizing f with
  | zero => exact ⟨by simp, fun k hk => absurd hk (Nat.not_lt_zero k)⟩
  | succ n ih =>
    obtain ⟨hlt, hdigit⟩ := ih (fun i => f (i + 1)) (fun i hi => hf (i + 1) (by omega))
    have h0 := hf 0 (by omega)
    have e : ((List.range (n + 1)).map (fun i => f i * 2 ^ (w * i))).sum
        = f 0 + 2 ^ w * ((List.range n).map (fun i => f (i + 1) * 2 ^ (w * i))).sum := by
      rw [List.range_succ_eq_map, List.map_cons, List.sum_cons, List.map_map, ← List.sum_map_mul_left]
      congr 3
      · simp
      · funext i
        simp only [Function.comp, Nat.succ_eq_add_one, Nat.mul_add, Nat.mul_one, Nat.pow_add]
        ac_rfl
    rw [e]
    generalize ((List.range n).map (fun i => f (i + 1) * 2 ^ (w * i))).sum = r at hlt hdigit
    constructor
    · calc f 0 + 2 ^ w * r < 2 ^ w * (r + 1) := by rw [Nat.mul_add]; omega
        _ ≤ 2 ^ w * 2 ^ (w * n) := Nat.mul_le_mul_left _ hlt
        _ = 2 ^ (w * (n + 1)) := by rw [← Nat.pow_add, Nat.mul_add, Nat.mul_one, Nat.add_comm]
    · rintro (_ | k) hk
      · simp [Nat.mod_eq_of_lt h0]
      · rw [Nat.mul_add, Nat.mul_one, Nat.add_comm (w * k), Nat.pow_add, ← Nat.div_div_eq_div_mul,
          Nat.add_mul_div_left _ _ (Nat.two_pow_pos w), Nat.div_eq_of_lt h0, Nat.zero_add]
        exact hdigit k (by omega)

/-- The fields of BARGENL. -/
theorem bargen_fields (s : State) (t : Nat) (l : Fin 4) :
    let g := (s.tile t).gen[l]
    let past := fun i : Fin 4 => ((s.hart (4 * t + i.val)).arrivals[l] - g).toNat
    s.bargen t l % 2 ^ 32 = g.toNat
    ∧ s.bargen t l / 2 ^ 32 % 4 = (if s.arrivalMade t l (g + 2) then 2 else if s.arrivalMade t l (g + 1) then 1 else 0)
    ∧ s.bargen t l / 2 ^ 38 = 0
    ∧ ∀ i : Fin 4, s.bargen t l / 2 ^ (34 + i.val) % 2 = 1 ↔ 0 < past i ∧ past i < 2 ^ 31 := by
  intro g past
  have hg := g.isLt
  set pend := if s.arrivalMade t l (g + 2) then 2 else if s.arrivalMade t l (g + 1) then 1 else 0 with hpend
  have hp : pend < 4 := by rw [hpend]; split <;> [decide; (split <;> decide)]
  set one : Nat → Nat := fun i => if 0 < past (Fin.ofNat 4 i) ∧ past (Fin.ofNat 4 i) < 2 ^ 31 then 1 else 0 with hone
  obtain ⟨hlt, hdigit⟩ := digit_of_sum 1 4 one (fun i _ => by rw [hone]; simp only; split <;> decide)
  have e : s.bargen t l = g.toNat + pend * 2 ^ 32 + 2 ^ 34 * ((List.range 4).map (fun i => one i * 2 ^ (1 * i))).sum := by
    rw [← List.sum_map_mul_left]
    unfold State.bargen
    simp only
    congr 2
    refine List.map_congr_left fun i hi => ?_
    rw [List.mem_range] at hi
    have hpast : ([0, 1, 2, 3].map (fun i => ((s.hart (4 * t + i)).arrivals[l] - g).toNat)).getD i 0 = past (Fin.ofNat 4 i) := by
      interval_cases i <;> rfl
    simp only [g] at hpast
    rw [hpast, hone]
    simp only [Nat.one_mul]
    split <;> simp [Nat.pow_add]
  generalize ((List.range 4).map (fun i => one i * 2 ^ (1 * i))).sum = r at hlt hdigit e
  rw [e]
  refine ⟨by omega, by omega, by omega, fun i => ?_⟩
  have hi : (g.toNat + pend * 2 ^ 32 + 2 ^ 34 * r) / 2 ^ 34 = r := by omega
  rw [Nat.pow_add, ← Nat.div_div_eq_div_mul, hi]
  have := hdigit i.val i.isLt
  simp only [Nat.one_mul, Nat.pow_one] at this
  rw [this, hone]
  simp

theorem bargen_lt (s : State) (t : Nat) (l : Fin 4) : s.bargen t l < 2 ^ 64 := by
  obtain ⟨-, -, h, -⟩ := bargen_fields s t l
  omega

/-! QSTATE (R85) -/

theorem status_lt (q : PortCtx) : q.status < 2 ^ 8 := by
  have hb (b : Bool) : b.toNat < 2 := Bool.toNat_lt b
  have h1 := hb q.cfg; have h2 := hb q.write; have h3 := hb q.eos
  have h4 := hb q.fault; have h5 := hb q.wait; have h6 := hb q.close
  unfold PortCtx.status
  cases q.mode <;> simp only <;> omega

/-- The bits of a port's byte in QSTATE. -/
theorem readCreg_qstate_bit (s : State) (h : Nat) (p : PortNo) {i : Nat} (hi : i < 8) :
    (s.readCreg h 0x600).getLsbD (8 * p.val + i) = (BitVec.ofNat 8 (s.hart h).ports[p].status).getLsbD i := by
  have byte := (digit_of_sum 8 8 (fun p => (s.hart h).ports[Fin.ofNat 8 p].status) (fun p _ => status_lt _)).2 p.val p.isLt
  have hp : Fin.ofNat 8 p.val = p := by simp
  simp only [hp] at byte
  have hlt : 8 * p.val + i < 64 := by omega
  simp only [State.readCreg]
  rw [BitVec.getLsbD_ofNat, BitVec.getLsbD_ofNat, ← byte, Nat.testBit_mod_two_pow, Nat.testBit_div_two_pow, Nat.add_comm i,
    decide_eq_true hi, decide_eq_true hlt, Bool.true_and, Bool.true_and]

/-! ### The reads of a strand and of a core -/

theorem readCreg_bargen (s : State) (h : Nat) (l : Fin 4) :
    s.readCreg h (0x500 + l.val) = BitVec.ofNat 64 (s.bargen (tileOf h) l) := by
  fin_cases l <;> rfl

/-- BARGEN reads the generation, the pending generations for which the tile has arrived, and the strands that have arrived (R257). -/
theorem bargen_reads (s : State) (t : Nat) (l : Fin 4) :
    let x := s.tile t
    let g := x.gen[l]
    let past := fun (i : Fin 4) (m : BitVec 32) => (s.hart (4 * t + i.val)).arrivals[l] - m
    let arrived := fun (m : BitVec 32) => (∃ i, (past i m).toNat < 2 ^ 31)
      ∧ (x.allHalted = true ∨ ((∃ i, x.runs i = true) ∧ ∀ i, x.runs i = true → (past i m).toNat < 2 ^ 31))
    let v := BitVec.ofNat 64 (s.bargen t l)
    v.toNat % 2 ^ 32 = g.toNat ∧ v.toNat / 2 ^ 38 = 0
      ∧ (∀ i : Fin 4, v.getLsbD (34 + i.val) = true ↔ 0 < (past i g).toNat ∧ (past i g).toNat < 2 ^ 31)
      ∧ (arrived (g + 2) → v.toNat / 2 ^ 32 % 4 = 2) ∧ (¬ arrived (g + 2) → arrived (g + 1) → v.toNat / 2 ^ 32 % 4 = 1)
      ∧ (¬ arrived (g + 2) → ¬ arrived (g + 1) → v.toNat / 2 ^ 32 % 4 = 0) := by
  intro x g past arrived v
  have made (m : BitVec 32) : s.arrivalMade t l m = true ↔ arrived m := by rw [arrivalMade_iff, tileArrived_iff]
  obtain ⟨hgen, hpend, htop, hbit⟩ := bargen_fields s t l
  have hv : v.toNat = s.bargen t l := by
    rw [BitVec.toNat_ofNat, Nat.mod_eq_of_lt (bargen_lt s t l)]
  rw [hv]
  refine ⟨hgen, htop, fun i => ?_, fun h2 => ?_, fun h2 h1 => ?_, fun h2 h1 => ?_⟩
  · rw [getLsbD_eq_decide, hv, decide_eq_true_iff]
    exact hbit i
  · rw [hpend, if_pos ((made _).2 h2)]
  · rw [hpend, if_neg (fun h => h2 ((made _).1 h)), if_pos ((made _).2 h1)]
  · rw [hpend, if_neg (fun h => h2 ((made _).1 h)), if_neg (fun h => h1 ((made _).1 h))]

/-- The reads of a strand, in the order of the register numbers; named are those that are no field as it stands. -/
theorem tileRegisterReads : Claims.TileRegisterReads := by
  intro s hT d x t n reads
  have hs : s.ready := ready_of_readyT hT
  have hg : (!isT s.cur) = false := by rw [hT.2]; rfl
  have read {r : Nat} {v : Word} := @mfc_reads s hs d _ hg r v
  have readH (hp : x.priv ≠ .user) {r : Nat} {v : Word} := @mfc_reads_above s hs d _ hg r v hp
  have loopc {ls : List LoopLevel} {n : Nat} := @mfc_loopc s hs d _ hg ls n
  refine ⟨read ?strand, read rfl, read rfl, read rfl, read rfl, read rfl, read rfl, read ?mowner, read ?time, read rfl, read rfl,
    read ?frm, read ?ftrap, ⟨fun ho => ?fflags, fun ho => ?waits⟩, fun l => ?bargen, ?qstate,
    fun l hl => loopc hl rfl, fun l m hl => loopc hl rfl, fun hl => loopc hl rfl,
    read rfl, read rfl, read rfl, read rfl, read rfl, read ?tilecap, read rfl, read rfl,
    fun hp => ?handler, fun hu r hr => ?user, fun r hr => ?unlisted⟩
  case strand => simp [State.readCreg, hT.2, strandOf]
  case mowner => rw [← busy_toNat]; rfl
  case time => simp only [State.readCreg, hT.2]; rfl
  case frm => exact (BitVec.ofNat_toNat 64 _).symm
  case ftrap => exact (BitVec.ofNat_toNat 64 _).symm
  case fflags =>
    have hf : s.flagsPending = false := by simpa using fun h => ho ((flagsPending_strand hT.2).1 h)
    exact mfc_fflags_gives hs d hf
  case waits => exact mfc_fflags_waits hs d ((flagsPending_strand hT.2).2 ho)
  case bargen =>
    obtain ⟨h1, h2, h3, h4, h5, h6⟩ := bargen_reads s n l
    exact ⟨_, h1, h2, h3, h4, h5, h6, read (readCreg_bargen s s.cur l) (by fin_cases l <;> decide)⟩
  case qstate => exact ⟨s.readCreg s.cur 0x600, fun p i hi => readCreg_qstate_bit s s.cur p hi, read rfl⟩
  case tilecap => rw [← active_eq_card]; rfl
  case handler =>
    exact ⟨readH hp (by simp only [State.readCreg, State.tvecOf, hT.2]; rfl), readH hp rfl, readH hp rfl,
      readH hp rfl, readH hp rfl, readH hp rfl, readH hp rfl, readH hp rfl⟩
  case user =>
    have known : ∀ r ∈ [0x400, 0x401, 0x402, 0x403, 0x404, 0x405, 0x406, 0xF00],
      r < 2 ^ 12 ∧ cregListed false r = true ∧ cregReadH r = true := by decide
    obtain ⟨h1, h2, h3⟩ := known r hr
    exact mfc_below hs d h1 (hg ▸ h2) h3 hu
  case unlisted =>
    refine mfc_unlisted hs d ?_
    rw [hg, Bool.eq_false_iff]
    refine fun hl => hr ?_
    simp only [cregListed, Bool.not_false, Bool.true_and, Bool.or_eq_true, List.contains_eq_mem, decide_eq_true_eq] at hl
    rcases hl with hl | hl <;> exact (by decide : ∀ k ∈ _, k ∈ _) _ hl

/-- The reads of a profile G core, in the same order. -/
theorem coreRegisterReads : Claims.CoreRegisterReads := by
  intro s hG d x reads
  have hT : isT s.cur = false := hG.2.2
  have hs : s.ready := ⟨hG.1, hG.2.1⟩
  have hg : (!isT s.cur) = true := by rw [hT]; rfl
  have read {r : Nat} {v : Word} := @mfc_reads s hs d _ hg r v
  have readH (hp : x.priv ≠ .user) {r : Nat} {v : Word} := @mfc_reads_above s hs d _ hg r v hp
  have loopc {ls : List LoopLevel} {n : Nat} := @mfc_loopc s hs d _ hg ls n
  refine ⟨read ?core, read rfl, read ?time, read rfl, read rfl, fun hn => ?fflags, fun ho => ?waits, read ?frm, read ?ftrap,
    fun hl => loopc hl rfl, fun l hl => loopc hl rfl, fun l m hl => loopc hl rfl,
    read rfl, read rfl, read rfl, read rfl, read rfl,
    fun hp => ?kernel, fun hu r hr => ?user, fun r hr => ?unlisted⟩
  case core => simp only [State.readCreg, hT]; rfl
  case time => simp only [State.readCreg, hT]; rfl
  case fflags =>
    have hf : s.flagsPending = false := by
      rw [Bool.eq_false_iff]
      intro h
      obtain ⟨f, hm, hf⟩ := (flagsPending_core hT).1 h
      rw [hn f hm] at hf; cases hf
    exact mfc_fflags_gives hs d hf
  case waits => exact mfc_fflags_waits hs d ((flagsPending_core hT).2 ho)
  case frm => exact (BitVec.ofNat_toNat 64 _).symm
  case ftrap => exact (BitVec.ofNat_toNat 64 _).symm
  case kernel =>
    exact ⟨readH hp (by simp only [State.readCreg, State.tvecOf, hT]; rfl), readH hp rfl, readH hp rfl, readH hp rfl, readH hp rfl⟩
  case user =>
    have known : ∀ r ∈ [0x400, 0x401, 0x402, 0x403, 0x405], r < 2 ^ 12 ∧ cregListed true r = true ∧ cregReadH r = true := by decide
    obtain ⟨h1, h2, h3⟩ := known r hr
    exact mfc_below hs d h1 (hg ▸ h2) h3 hu
  case unlisted =>
    refine mfc_unlisted hs d ?_
    rw [hg, Bool.eq_false_iff]
    refine fun hl => hr ?_
    simpa only [cregListed, Bool.not_true, Bool.false_and, Bool.or_false, List.contains_eq_mem, decide_eq_true_eq] using hl

/-- Settles O17: one law for each outcome of MFC (a value, a wait, a trap), with what State.readCreg holds for each register; the outcomes
that trap rest on what a precise trap of the word at hand does (trapsAt_trapPort). -/
theorem controlRegisterReads : Obligations.ControlRegisterReads := ⟨tileRegisterReads, coreRegisterReads⟩

end Sys2Proof.Machine
end

section
namespace Sys2Proof.Table
open Sys2Proof.Laws.Encoding

/-! ## The table of the instruction words (R35 to R37, R41 to R44)

One row for each instruction: its class, its op6, and what stands in bits [22:0] of its word, from bit 0 up. The encoder and the decoder are
each compared with this table, so that each of them is read once. -/

/-- The value of an operand field, with the width of the field. -/
structure Operand where
  width : Nat
  value : Nat
  fits : value < 2 ^ width

@[simp] def Operand.u2 (r : Fin 4) : Operand := ⟨2, r.val, r.isLt⟩
@[simp] def Operand.u3 (r : Fin 8) : Operand := ⟨3, r.val, r.isLt⟩
@[simp] def Operand.u5 (r : Fin 32) : Operand := ⟨5, r.val, r.isLt⟩
@[simp] def Operand.u6 (r : Fin 64) : Operand := ⟨6, r.val, r.isLt⟩
@[simp] def Operand.imm {n : Nat} (v : BitVec n) : Operand := ⟨n, v.toNat, v.isLt⟩
@[simp] def Operand.bit (b : Bool) : Operand := ⟨1, b.toNat, bool_lt b⟩
@[simp] def Operand.ew (e : Ew) : Operand := ⟨2, e.code, ew_code_lt e⟩
@[simp] def Operand.fw (e : Fw) : Operand := ⟨2, e.code, fw_code_lt e⟩
@[simp] def Operand.rm (e : Rm) : Operand := ⟨2, e.code, rm_code_lt e⟩
@[simp] def Operand.ord (e : Ord) : Operand := ⟨3, e.code, ord_code_lt e⟩
@[simp] def Operand.scope (e : Scope) : Operand := ⟨4, e.code, scope_code_lt e⟩
@[simp] def Operand.fmt (e : Fmt) : Operand := ⟨4, e.code, fmt_code_lt e⟩
@[simp] def Operand.level (e : Level) : Operand := ⟨2, e.code, level_code_lt e⟩
@[simp] def Operand.tlbiKind (e : TlbiKind) : Operand := ⟨2, e.code, tlbiKind_code_lt e⟩
@[simp] def Operand.tlbiScope (e : TlbiScope) : Operand := ⟨5, e.code, (tlbiScope_code_lt e).trans (by decide)⟩
@[simp] def Operand.cpyField (e : CpyField) : Operand := ⟨4, e.code, cpyField_code_lt e⟩
@[simp] def Operand.cpySel (e : CpySel) : Operand := ⟨3, e.code, cpySel_code_lt e⟩

/-- A piece of a word: n bits that always hold v (a selector, or a must-be-zero field), or an operand field of n bits. -/
inductive Slot where
  | fix (n v : Nat)
  | opd (n : Nat)

/-- The fixed side of a row. -/
structure Layout where
  cls : Nat
  op : Nat
  low : List Slot

/-- S.R and M.R with a whole fn8 (R35). -/
@[simp] def formatR (fn : Nat) : List Slot := [.fix 8 fn, .opd 5, .opd 5, .opd 5]
/-- S.I, S.B and M.L (R35). -/
@[simp] def formatI : List Slot := [.opd 13, .opd 5, .opd 5]
/-- M.A (R35). -/
@[simp] def formatA : List Slot := [.opd 1, .opd 4, .opd 3, .opd 5, .opd 5, .opd 5]
/-- V.R and V.X (R35). -/
@[simp] def formatV (fn : Nat) : List Slot := [.fix 2 fn, .opd 1, .opd 2, .opd 3, .opd 5, .opd 5, .opd 5]

/-- The row of an instruction; a step of the package has none. -/
def layout : Instr → Option (Layout × List Operand)
  | .add d a b => some (⟨0, 0, formatR 0⟩, [.u5 b, .u5 a, .u5 d])
  | .sub d a b => some (⟨0, 0, formatR 1⟩, [.u5 b, .u5 a, .u5 d])
  | .and d a b => some (⟨0, 0, formatR 2⟩, [.u5 b, .u5 a, .u5 d])
  | .or d a b => some (⟨0, 0, formatR 3⟩, [.u5 b, .u5 a, .u5 d])
  | .xor d a b => some (⟨0, 0, formatR 4⟩, [.u5 b, .u5 a, .u5 d])
  | .andn d a b => some (⟨0, 0, formatR 5⟩, [.u5 b, .u5 a, .u5 d])
  | .sll d a b => some (⟨0, 0, formatR 6⟩, [.u5 b, .u5 a, .u5 d])
  | .srl d a b => some (⟨0, 0, formatR 7⟩, [.u5 b, .u5 a, .u5 d])
  | .sra d a b => some (⟨0, 0, formatR 8⟩, [.u5 b, .u5 a, .u5 d])
  | .rol d a b => some (⟨0, 0, formatR 9⟩, [.u5 b, .u5 a, .u5 d])
  | .slt d a b => some (⟨0, 0, formatR 10⟩, [.u5 b, .u5 a, .u5 d])
  | .sltu d a b => some (⟨0, 0, formatR 11⟩, [.u5 b, .u5 a, .u5 d])
  | .min d a b => some (⟨0, 0, formatR 12⟩, [.u5 b, .u5 a, .u5 d])
  | .max d a b => some (⟨0, 0, formatR 13⟩, [.u5 b, .u5 a, .u5 d])
  | .minu d a b => some (⟨0, 0, formatR 14⟩, [.u5 b, .u5 a, .u5 d])
  | .maxu d a b => some (⟨0, 0, formatR 15⟩, [.u5 b, .u5 a, .u5 d])
  | .clz d a => some (⟨0, 0, [.fix 8 16, .fix 5 0, .opd 5, .opd 5]⟩, [.u5 a, .u5 d])
  | .ctz d a => some (⟨0, 0, [.fix 8 17, .fix 5 0, .opd 5, .opd 5]⟩, [.u5 a, .u5 d])
  | .popc d a => some (⟨0, 0, [.fix 8 18, .fix 5 0, .opd 5, .opd 5]⟩, [.u5 a, .u5 d])
  | .sel d a b => some (⟨0, 0, formatR 19⟩, [.u5 b, .u5 a, .u5 d])
  | .mul d a b => some (⟨0, 1, formatR 0⟩, [.u5 b, .u5 a, .u5 d])
  | .mulh d a b => some (⟨0, 1, formatR 1⟩, [.u5 b, .u5 a, .u5 d])
  | .mulhu d a b => some (⟨0, 1, formatR 2⟩, [.u5 b, .u5 a, .u5 d])
  | .div d a b => some (⟨0, 1, formatR 3⟩, [.u5 b, .u5 a, .u5 d])
  | .divu d a b => some (⟨0, 1, formatR 4⟩, [.u5 b, .u5 a, .u5 d])
  | .rem d a b => some (⟨0, 1, formatR 5⟩, [.u5 b, .u5 a, .u5 d])
  | .remu d a b => some (⟨0, 1, formatR 6⟩, [.u5 b, .u5 a, .u5 d])
  | .lea d a b s => some (⟨0, 2, [.opd 3, .fix 5 0, .opd 5, .opd 5, .opd 5]⟩, [.u3 s, .u5 b, .u5 a, .u5 d])
  | .bfx d a n p => some (⟨0, 3, [.opd 6, .opd 6, .fix 1 0, .opd 5, .opd 5]⟩, [.u6 p, .u6 n, .u5 a, .u5 d])
  | .bfi d a n p => some (⟨0, 4, [.opd 6, .opd 6, .fix 1 0, .opd 5, .opd 5]⟩, [.u6 p, .u6 n, .u5 a, .u5 d])
  | .faddS d a b => some (⟨0, 5, formatR 0⟩, [.u5 b, .u5 a, .u5 d])
  | .fsubS d a b => some (⟨0, 5, formatR 1⟩, [.u5 b, .u5 a, .u5 d])
  | .fmulS d a b => some (⟨0, 5, formatR 2⟩, [.u5 b, .u5 a, .u5 d])
  | .fminS d a b => some (⟨0, 5, formatR 3⟩, [.u5 b, .u5 a, .u5 d])
  | .fmaxS d a b => some (⟨0, 5, formatR 4⟩, [.u5 b, .u5 a, .u5 d])
  | .fcvtSW d a => some (⟨0, 5, [.fix 8 5, .fix 5 0, .opd 5, .opd 5]⟩, [.u5 a, .u5 d])
  | .fcvtWS d a => some (⟨0, 5, [.fix 8 6, .fix 5 0, .opd 5, .opd 5]⟩, [.u5 a, .u5 d])
  | .feqS d a b => some (⟨0, 5, formatR 7⟩, [.u5 b, .u5 a, .u5 d])
  | .fltS d a b => some (⟨0, 5, formatR 8⟩, [.u5 b, .u5 a, .u5 d])
  | .fleS d a b => some (⟨0, 5, formatR 9⟩, [.u5 b, .u5 a, .u5 d])
  | .fmaS d a b => some (⟨0, 5, formatR 10⟩, [.u5 b, .u5 a, .u5 d])
  | .fcvtSBf d a => some (⟨0, 5, [.fix 8 11, .fix 5 0, .opd 5, .opd 5]⟩, [.u5 a, .u5 d])
  | .fcvtBfS d a => some (⟨0, 5, [.fix 8 12, .fix 5 0, .opd 5, .opd 5]⟩, [.u5 a, .u5 d])
  | .addi d a i => some (⟨0, 8, formatI⟩, [.imm i, .u5 a, .u5 d])
  | .andi d a i => some (⟨0, 9, formatI⟩, [.imm i, .u5 a, .u5 d])
  | .ori d a i => some (⟨0, 10, formatI⟩, [.imm i, .u5 a, .u5 d])
  | .xori d a i => some (⟨0, 11, formatI⟩, [.imm i, .u5 a, .u5 d])
  | .slli d a s => some (⟨0, 12, [.opd 6, .fix 7 0, .opd 5, .opd 5]⟩, [.u6 s, .u5 a, .u5 d])
  | .srli d a s => some (⟨0, 13, [.opd 6, .fix 7 0, .opd 5, .opd 5]⟩, [.u6 s, .u5 a, .u5 d])
  | .srai d a s => some (⟨0, 14, [.opd 6, .fix 7 0, .opd 5, .opd 5]⟩, [.u6 s, .u5 a, .u5 d])
  | .slti d a i => some (⟨0, 15, formatI⟩, [.imm i, .u5 a, .u5 d])
  | .lui d i => some (⟨0, 16, [.opd 18, .opd 5]⟩, [.imm i, .u5 d])
  | .luih d i => some (⟨0, 17, [.opd 18, .opd 5]⟩, [.imm i, .u5 d])
  | .beq a b o => some (⟨0, 20, formatI⟩, [.imm o, .u5 b, .u5 a])
  | .bne a b o => some (⟨0, 21, formatI⟩, [.imm o, .u5 b, .u5 a])
  | .blt a b o => some (⟨0, 22, formatI⟩, [.imm o, .u5 b, .u5 a])
  | .bge a b o => some (⟨0, 23, formatI⟩, [.imm o, .u5 b, .u5 a])
  | .bltu a b o => some (⟨0, 24, formatI⟩, [.imm o, .u5 b, .u5 a])
  | .bgeu a b o => some (⟨0, 25, formatI⟩, [.imm o, .u5 b, .u5 a])
  | .jal d o => some (⟨0, 26, [.opd 18, .opd 5]⟩, [.imm o, .u5 d])
  | .jalr d a i => some (⟨0, 27, formatI⟩, [.imm i, .u5 a, .u5 d])
  | .loop a o => some (⟨0, 28, [.opd 13, .fix 5 0, .opd 5]⟩, [.imm o, .u5 a])
  | .beos p o => some (⟨0, 29, [.opd 13, .fix 5 0, .opd 3, .fix 2 0]⟩, [.imm o, .u3 p])
  | .trap a => some (⟨0, 32, [.fix 8 0, .fix 5 0, .opd 5, .fix 5 0]⟩, [.u5 a])
  | .eret => some (⟨0, 32, [.fix 8 1, .fix 15 0]⟩, [])
  | .wfe a => some (⟨0, 32, [.fix 8 2, .fix 5 0, .opd 5, .fix 5 0]⟩, [.u5 a])
  | .yield => some (⟨0, 32, [.fix 8 3, .fix 15 0]⟩, [])
  | .halt => some (⟨0, 32, [.fix 8 4, .fix 15 0]⟩, [])
  | .brk => some (⟨0, 32, [.fix 8 5, .fix 15 0]⟩, [])
  | .scall d a b => some (⟨0, 32, formatR 7⟩, [.u5 b, .u5 a, .u5 d])
  | .mfc d r => some (⟨0, 33, [.opd 12, .fix 6 0, .opd 5]⟩, [.imm r, .u5 d])
  | .mtc a r => some (⟨0, 34, [.opd 12, .fix 1 0, .opd 5, .fix 5 0]⟩, [.imm r, .u5 a])
  | .lb d a o => some (⟨1, 0, formatI⟩, [.imm o, .u5 a, .u5 d])
  | .lbu d a o => some (⟨1, 1, formatI⟩, [.imm o, .u5 a, .u5 d])
  | .lh d a o => some (⟨1, 2, formatI⟩, [.imm o, .u5 a, .u5 d])
  | .lhu d a o => some (⟨1, 3, formatI⟩, [.imm o, .u5 a, .u5 d])
  | .lw d a o => some (⟨1, 4, formatI⟩, [.imm o, .u5 a, .u5 d])
  | .lwu d a o => some (⟨1, 5, formatI⟩, [.imm o, .u5 a, .u5 d])
  | .ld d a o => some (⟨1, 6, formatI⟩, [.imm o, .u5 a, .u5 d])
  | .sb s a o => some (⟨1, 8, formatI⟩, [.imm o, .u5 a, .u5 s])
  | .sh s a o => some (⟨1, 9, formatI⟩, [.imm o, .u5 a, .u5 s])
  | .sw s a o => some (⟨1, 10, formatI⟩, [.imm o, .u5 a, .u5 s])
  | .sd s a o => some (⟨1, 11, formatI⟩, [.imm o, .u5 a, .u5 s])
  | .vld v a o => some (⟨1, 12, formatI⟩, [.imm o, .u5 a, .u5 v])
  | .vst v a o => some (⟨1, 13, formatI⟩, [.imm o, .u5 a, .u5 v])
  | .vlds v a b k d64 => some (⟨1, 14, [.fix 3 0, .opd 1, .fix 1 1, .opd 3, .opd 5, .opd 5, .opd 5]⟩, [.bit d64, .u3 k, .u5 b, .u5 a, .u5 v])
  | .vsts v a b k d64 => some (⟨1, 15, [.fix 3 0, .opd 1, .fix 1 1, .opd 3, .opd 5, .opd 5, .opd 5]⟩, [.bit d64, .u3 k, .u5 b, .u5 a, .u5 v])
  | .vgth v a i k d64 => some (⟨1, 16, [.fix 3 0, .opd 1, .fix 1 1, .opd 3, .opd 5, .opd 5, .opd 5]⟩, [.bit d64, .u3 k, .u5 i, .u5 a, .u5 v])
  | .vsct v a i k d64 => some (⟨1, 17, [.fix 3 0, .opd 1, .fix 1 1, .opd 3, .opd 5, .opd 5, .opd 5]⟩, [.bit d64, .u3 k, .u5 i, .u5 a, .u5 v])
  | .lda d a ord scope dbl => some (⟨1, 18, [.opd 1, .opd 4, .opd 3, .fix 5 0, .opd 5, .opd 5]⟩, [.bit dbl, .scope scope, .ord ord, .u5 a, .u5 d])
  | .stl a b ord scope dbl => some (⟨1, 19, [.opd 1, .opd 4, .opd 3, .opd 5, .opd 5, .fix 5 0]⟩, [.bit dbl, .scope scope, .ord ord, .u5 b, .u5 a])
  | .amoadd d a b ord scope dbl => some (⟨1, 20, formatA⟩, [.bit dbl, .scope scope, .ord ord, .u5 b, .u5 a, .u5 d])
  | .amoand d a b ord scope dbl => some (⟨1, 21, formatA⟩, [.bit dbl, .scope scope, .ord ord, .u5 b, .u5 a, .u5 d])
  | .amoor d a b ord scope dbl => some (⟨1, 22, formatA⟩, [.bit dbl, .scope scope, .ord ord, .u5 b, .u5 a, .u5 d])
  | .amoxor d a b ord scope dbl => some (⟨1, 23, formatA⟩, [.bit dbl, .scope scope, .ord ord, .u5 b, .u5 a, .u5 d])
  | .amomin d a b ord scope dbl => some (⟨1, 24, formatA⟩, [.bit dbl, .scope scope, .ord ord, .u5 b, .u5 a, .u5 d])
  | .amomax d a b ord scope dbl => some (⟨1, 25, formatA⟩, [.bit dbl, .scope scope, .ord ord, .u5 b, .u5 a, .u5 d])
  | .amominu d a b ord scope dbl => some (⟨1, 26, formatA⟩, [.bit dbl, .scope scope, .ord ord, .u5 b, .u5 a, .u5 d])
  | .amomaxu d a b ord scope dbl => some (⟨1, 27, formatA⟩, [.bit dbl, .scope scope, .ord ord, .u5 b, .u5 a, .u5 d])
  | .amoswap d a b ord scope dbl => some (⟨1, 28, formatA⟩, [.bit dbl, .scope scope, .ord ord, .u5 b, .u5 a, .u5 d])
  | .amocas d a b ord scope dbl => some (⟨1, 29, formatA⟩, [.bit dbl, .scope scope, .ord ord, .u5 b, .u5 a, .u5 d])
  | .fence ord scope => some (⟨1, 30, [.fix 1 0, .opd 4, .opd 3, .fix 15 0]⟩, [.scope scope, .ord ord])
  | .putq d a b len => some (⟨1, 31, [.opd 6, .fix 2 0, .opd 5, .opd 5, .opd 5]⟩, [.u6 len, .u5 b, .u5 a, .u5 d])
  | .qcfg p a => some (⟨1, 32, [.fix 13 0, .opd 5, .opd 3, .fix 2 0]⟩, [.u5 a, .u3 p])
  | .qget d p => some (⟨1, 33, [.fix 13 0, .opd 3, .fix 2 0, .opd 5]⟩, [.u3 p, .u5 d])
  | .qput p a => some (⟨1, 34, [.fix 13 0, .opd 5, .opd 3, .fix 2 0]⟩, [.u5 a, .u3 p])
  | .qclose p => some (⟨1, 35, [.fix 18 0, .opd 3, .fix 2 0]⟩, [.u3 p])
  | .qstat d p sel => some (⟨1, 36, [.opd 3, .fix 10 0, .opd 3, .fix 2 0, .opd 5]⟩, [.u3 sel, .u3 p, .u5 d])
  | .cpysetClrerr c => some (⟨1, 37, [.fix 18 10, .opd 2, .fix 3 0]⟩, [.u2 c])
  | .cpyset c a f => some (⟨1, 37, [.opd 4, .fix 9 0, .opd 5, .opd 2, .fix 3 0]⟩, [.cpyField f, .u5 a, .u2 c])
  | .cpygo d a c => some (⟨1, 38, [.fix 8 0, .opd 2, .fix 3 0, .opd 5, .opd 5]⟩, [.u2 c, .u5 a, .u5 d])
  | .cpywait c a => some (⟨1, 39, [.fix 13 0, .opd 5, .opd 2, .fix 3 0]⟩, [.u5 a, .u2 c])
  | .cpystat d c sel => some (⟨1, 40, [.opd 3, .fix 5 0, .opd 2, .fix 8 0, .opd 5]⟩, [.cpySel sel, .u2 c, .u5 d])
  | .bar d lv => some (⟨1, 41, [.fix 4 0, .opd 2, .fix 12 0, .opd 5]⟩, [.level lv, .u5 d])
  | .barw a lv => some (⟨1, 41, [.fix 4 1, .opd 2, .fix 7 0, .opd 5, .fix 5 0]⟩, [.level lv, .u5 a])
  | .phase d lv => some (⟨1, 41, [.fix 4 2, .opd 2, .fix 12 0, .opd 5]⟩, [.level lv, .u5 d])
  | .couple a => some (⟨1, 41, [.fix 4 3, .fix 9 0, .opd 5, .fix 5 0]⟩, [.u5 a])
  | .uncouple => some (⟨1, 41, [.fix 4 4, .fix 19 0]⟩, [])
  | .inbx d a poll => some (⟨1, 42, [.fix 4 0, .opd 1, .fix 8 0, .opd 5, .opd 5]⟩, [.bit poll, .u5 a, .u5 d])
  | .jnext d a => some (⟨1, 42, [.fix 4 1, .fix 9 0, .opd 5, .opd 5]⟩, [.u5 a, .u5 d])
  | .larm d a => some (⟨1, 42, [.fix 4 2, .fix 9 0, .opd 5, .opd 5]⟩, [.u5 a, .u5 d])
  | .gdisp d a => some (⟨1, 42, [.fix 4 3, .fix 9 0, .opd 5, .opd 5]⟩, [.u5 a, .u5 d])
  | .gjoin d a poll => some (⟨1, 42, [.fix 4 4, .opd 1, .fix 8 0, .opd 5, .opd 5]⟩, [.bit poll, .u5 a, .u5 d])
  | .sigw d a b nowait => some (⟨1, 42, [.fix 4 5, .opd 1, .fix 3 0, .opd 5, .opd 5, .opd 5]⟩, [.bit nowait, .u5 b, .u5 a, .u5 d])
  | .sigs a b add => some (⟨1, 42, [.fix 4 6, .opd 1, .fix 3 0, .opd 5, .opd 5, .fix 5 0]⟩, [.bit add, .u5 b, .u5 a])
  | .hnew d a b => some (⟨1, 43, [.fix 4 0, .fix 4 0, .opd 5, .opd 5, .opd 5]⟩, [.u5 b, .u5 a, .u5 d])
  | .hcopy d s => some (⟨1, 43, [.fix 4 1, .fix 9 0, .opd 5, .opd 5]⟩, [.u5 s, .u5 d])
  | .hdrop s => some (⟨1, 43, [.fix 4 2, .fix 9 0, .opd 5, .fix 5 0]⟩, [.u5 s])
  | .hbind d a b => some (⟨1, 43, [.fix 4 3, .fix 4 0, .opd 5, .opd 5, .opd 5]⟩, [.u5 b, .u5 a, .u5 d])
  | .hquery d a => some (⟨1, 43, [.fix 4 4, .fix 9 0, .opd 5, .opd 5]⟩, [.u5 a, .u5 d])
  | .foffer d a b => some (⟨1, 44, [.fix 4 0, .fix 4 0, .opd 5, .opd 5, .opd 5]⟩, [.u5 b, .u5 a, .u5 d])
  | .faccept d a b => some (⟨1, 44, [.fix 4 1, .fix 4 0, .opd 5, .opd 5, .opd 5]⟩, [.u5 b, .u5 a, .u5 d])
  | .flend d a b => some (⟨1, 44, [.fix 4 2, .fix 4 0, .opd 5, .opd 5, .opd 5]⟩, [.u5 b, .u5 a, .u5 d])
  | .frecall d a b => some (⟨1, 44, [.fix 4 3, .fix 4 0, .opd 5, .opd 5, .opd 5]⟩, [.u5 b, .u5 a, .u5 d])
  | .frelease d a => some (⟨1, 44, [.fix 4 4, .fix 9 0, .opd 5, .opd 5]⟩, [.u5 a, .u5 d])
  | .fquery d a => some (⟨1, 44, [.fix 4 5, .fix 9 0, .opd 5, .opd 5]⟩, [.u5 a, .u5 d])
  | .tlbi scope a b kind => some (⟨1, 45, [.fix 4 0, .opd 2, .fix 2 0, .opd 5, .opd 5, .opd 5]⟩, [.tlbiKind kind, .u5 b, .u5 a, .tlbiScope scope])
  | .flush a b => some (⟨1, 45, [.fix 4 1, .fix 4 0, .opd 5, .opd 5, .fix 5 0]⟩, [.u5 b, .u5 a])
  | .inval a b => some (⟨1, 45, [.fix 4 2, .fix 4 0, .opd 5, .opd 5, .fix 5 0]⟩, [.u5 b, .u5 a])
  | .vadd d a b k e keep => some (⟨2, 0, formatV 0⟩, [.bit keep, .ew e, .u3 k, .u5 b, .u5 a, .u5 d])
  | .vsub d a b k e keep => some (⟨2, 0, formatV 1⟩, [.bit keep, .ew e, .u3 k, .u5 b, .u5 a, .u5 d])
  | .vmul d a b k e keep => some (⟨2, 0, formatV 2⟩, [.bit keep, .ew e, .u3 k, .u5 b, .u5 a, .u5 d])
  | .vmulh d a b k e keep => some (⟨2, 0, formatV 3⟩, [.bit keep, .ew e, .u3 k, .u5 b, .u5 a, .u5 d])
  | .vmin d a b k e keep => some (⟨2, 1, formatV 0⟩, [.bit keep, .ew e, .u3 k, .u5 b, .u5 a, .u5 d])
  | .vmax d a b k e keep => some (⟨2, 1, formatV 1⟩, [.bit keep, .ew e, .u3 k, .u5 b, .u5 a, .u5 d])
  | .vminu d a b k e keep => some (⟨2, 1, formatV 2⟩, [.bit keep, .ew e, .u3 k, .u5 b, .u5 a, .u5 d])
  | .vmaxu d a b k e keep => some (⟨2, 1, formatV 3⟩, [.bit keep, .ew e, .u3 k, .u5 b, .u5 a, .u5 d])
  | .vand d a b k e keep => some (⟨2, 2, formatV 0⟩, [.bit keep, .ew e, .u3 k, .u5 b, .u5 a, .u5 d])
  | .vor d a b k e keep => some (⟨2, 2, formatV 1⟩, [.bit keep, .ew e, .u3 k, .u5 b, .u5 a, .u5 d])
  | .vxor d a b k e keep => some (⟨2, 2, formatV 2⟩, [.bit keep, .ew e, .u3 k, .u5 b, .u5 a, .u5 d])
  | .vandn d a b k e keep => some (⟨2, 2, formatV 3⟩, [.bit keep, .ew e, .u3 k, .u5 b, .u5 a, .u5 d])
  | .vsll d a b k e keep => some (⟨2, 3, formatV 0⟩, [.bit keep, .ew e, .u3 k, .u5 b, .u5 a, .u5 d])
  | .vsrl d a b k e keep => some (⟨2, 3, formatV 1⟩, [.bit keep, .ew e, .u3 k, .u5 b, .u5 a, .u5 d])
  | .vsra d a b k e keep => some (⟨2, 3, formatV 2⟩, [.bit keep, .ew e, .u3 k, .u5 b, .u5 a, .u5 d])
  | .vrol d a b k e keep => some (⟨2, 3, formatV 3⟩, [.bit keep, .ew e, .u3 k, .u5 b, .u5 a, .u5 d])
  | .vsadd d a b k e keep => some (⟨2, 4, formatV 0⟩, [.bit keep, .ew e, .u3 k, .u5 b, .u5 a, .u5 d])
  | .vssub d a b k e keep => some (⟨2, 4, formatV 1⟩, [.bit keep, .ew e, .u3 k, .u5 b, .u5 a, .u5 d])
  | .vavg d a b k e keep => some (⟨2, 4, formatV 2⟩, [.bit keep, .ew e, .u3 k, .u5 b, .u5 a, .u5 d])
  | .vabs d a k e keep => some (⟨2, 4, [.fix 2 3, .opd 1, .opd 2, .opd 3, .fix 5 0, .opd 5, .opd 5]⟩, [.bit keep, .ew e, .u3 k, .u5 a, .u5 d])
  | .vfadd d a b k e keep => some (⟨2, 5, formatV 0⟩, [.bit keep, .fw e, .u3 k, .u5 b, .u5 a, .u5 d])
  | .vfsub d a b k e keep => some (⟨2, 5, formatV 1⟩, [.bit keep, .fw e, .u3 k, .u5 b, .u5 a, .u5 d])
  | .vfmul d a b k e keep => some (⟨2, 5, formatV 2⟩, [.bit keep, .fw e, .u3 k, .u5 b, .u5 a, .u5 d])
  | .vfabd d a b k e keep => some (⟨2, 5, formatV 3⟩, [.bit keep, .fw e, .u3 k, .u5 b, .u5 a, .u5 d])
  | .vfma d a b k e keep => some (⟨2, 6, formatV 0⟩, [.bit keep, .fw e, .u3 k, .u5 b, .u5 a, .u5 d])
  | .vfms d a b k e keep => some (⟨2, 6, formatV 1⟩, [.bit keep, .fw e, .u3 k, .u5 b, .u5 a, .u5 d])
  | .vfnma d a b k e keep => some (⟨2, 6, formatV 2⟩, [.bit keep, .fw e, .u3 k, .u5 b, .u5 a, .u5 d])
  | .vfnms d a b k e keep => some (⟨2, 6, formatV 3⟩, [.bit keep, .fw e, .u3 k, .u5 b, .u5 a, .u5 d])
  | .vfmin d a b k e keep => some (⟨2, 7, formatV 0⟩, [.bit keep, .fw e, .u3 k, .u5 b, .u5 a, .u5 d])
  | .vfmax d a b k e keep => some (⟨2, 7, formatV 1⟩, [.bit keep, .fw e, .u3 k, .u5 b, .u5 a, .u5 d])
  | .vfneg d a k e keep => some (⟨2, 7, [.fix 2 2, .opd 1, .opd 2, .opd 3, .fix 5 0, .opd 5, .opd 5]⟩, [.bit keep, .fw e, .u3 k, .u5 a, .u5 d])
  | .vfabs d a k e keep => some (⟨2, 7, [.fix 2 3, .opd 1, .opd 2, .opd 3, .fix 5 0, .opd 5, .opd 5]⟩, [.bit keep, .fw e, .u3 k, .u5 a, .u5 d])
  | .vfdiv d a b k keep => some (⟨2, 8, [.fix 2 0, .opd 1, .fix 2 0, .opd 3, .opd 5, .opd 5, .opd 5]⟩, [.bit keep, .u3 k, .u5 b, .u5 a, .u5 d])
  | .vfsqrt d a k keep => some (⟨2, 8, [.fix 2 1, .opd 1, .fix 2 0, .opd 3, .fix 5 0, .opd 5, .opd 5]⟩, [.bit keep, .u3 k, .u5 a, .u5 d])
  | .vfrcp d a k keep => some (⟨2, 8, [.fix 2 2, .opd 1, .fix 2 0, .opd 3, .fix 5 0, .opd 5, .opd 5]⟩, [.bit keep, .u3 k, .u5 a, .u5 d])
  | .vfrsq d a k keep => some (⟨2, 8, [.fix 2 3, .opd 1, .fix 2 0, .opd 3, .fix 5 0, .opd 5, .opd 5]⟩, [.bit keep, .u3 k, .u5 a, .u5 d])
  | .vfexp2 d a k keep => some (⟨2, 9, [.fix 2 0, .opd 1, .fix 2 0, .opd 3, .fix 5 0, .opd 5, .opd 5]⟩, [.bit keep, .u3 k, .u5 a, .u5 d])
  | .vflog2 d a k keep => some (⟨2, 9, [.fix 2 1, .opd 1, .fix 2 0, .opd 3, .fix 5 0, .opd 5, .opd 5]⟩, [.bit keep, .u3 k, .u5 a, .u5 d])
  | .vftanh d a k keep => some (⟨2, 9, [.fix 2 2, .opd 1, .fix 2 0, .opd 3, .fix 5 0, .opd 5, .opd 5]⟩, [.bit keep, .u3 k, .u5 a, .u5 d])
  | .vfsigm d a k keep => some (⟨2, 9, [.fix 2 3, .opd 1, .fix 2 0, .opd 3, .fix 5 0, .opd 5, .opd 5]⟩, [.bit keep, .u3 k, .u5 a, .u5 d])
  | .vcmpEq d a b k e keep => some (⟨2, 10, [.fix 2 0, .opd 1, .opd 2, .opd 3, .opd 5, .opd 5, .opd 3, .fix 2 0]⟩, [.bit keep, .ew e, .u3 k, .u5 b, .u5 a, .u3 d])
  | .vcmpNe d a b k e keep => some (⟨2, 10, [.fix 2 1, .opd 1, .opd 2, .opd 3, .opd 5, .opd 5, .opd 3, .fix 2 0]⟩, [.bit keep, .ew e, .u3 k, .u5 b, .u5 a, .u3 d])
  | .vcmpLt d a b k e keep => some (⟨2, 10, [.fix 2 2, .opd 1, .opd 2, .opd 3, .opd 5, .opd 5, .opd 3, .fix 2 0]⟩, [.bit keep, .ew e, .u3 k, .u5 b, .u5 a, .u3 d])
  | .vcmpLe d a b k e keep => some (⟨2, 10, [.fix 2 3, .opd 1, .opd 2, .opd 3, .opd 5, .opd 5, .opd 3, .fix 2 0]⟩, [.bit keep, .ew e, .u3 k, .u5 b, .u5 a, .u3 d])
  | .vfcmpEq d a b k e keep => some (⟨2, 11, [.fix 2 0, .opd 1, .opd 2, .opd 3, .opd 5, .opd 5, .opd 3, .fix 2 0]⟩, [.bit keep, .fw e, .u3 k, .u5 b, .u5 a, .u3 d])
  | .vfcmpNe d a b k e keep => some (⟨2, 11, [.fix 2 1, .opd 1, .opd 2, .opd 3, .opd 5, .opd 5, .opd 3, .fix 2 0]⟩, [.bit keep, .fw e, .u3 k, .u5 b, .u5 a, .u3 d])
  | .vfcmpLt d a b k e keep => some (⟨2, 11, [.fix 2 2, .opd 1, .opd 2, .opd 3, .opd 5, .opd 5, .opd 3, .fix 2 0]⟩, [.bit keep, .fw e, .u3 k, .u5 b, .u5 a, .u3 d])
  | .vfcmpLe d a b k e keep => some (⟨2, 11, [.fix 2 3, .opd 1, .opd 2, .opd 3, .opd 5, .opd 5, .opd 3, .fix 2 0]⟩, [.bit keep, .fw e, .u3 k, .u5 b, .u5 a, .u3 d])
  | .vsel d a b k e keep => some (⟨2, 12, formatV 0⟩, [.bit keep, .ew e, .u3 k, .u5 b, .u5 a, .u5 d])
  | .vmov d a k e keep => some (⟨2, 12, [.fix 2 1, .opd 1, .opd 2, .opd 3, .fix 5 0, .opd 5, .opd 5]⟩, [.bit keep, .ew e, .u3 k, .u5 a, .u5 d])
  | .kand d a b => some (⟨2, 13, [.fix 2 0, .fix 6 0, .opd 3, .fix 2 0, .opd 3, .fix 2 0, .opd 3, .fix 2 0]⟩, [.u3 b, .u3 a, .u3 d])
  | .kor d a b => some (⟨2, 13, [.fix 2 1, .fix 6 0, .opd 3, .fix 2 0, .opd 3, .fix 2 0, .opd 3, .fix 2 0]⟩, [.u3 b, .u3 a, .u3 d])
  | .kxor d a b => some (⟨2, 13, [.fix 2 2, .fix 6 0, .opd 3, .fix 2 0, .opd 3, .fix 2 0, .opd 3, .fix 2 0]⟩, [.u3 b, .u3 a, .u3 d])
  | .kandn d a b => some (⟨2, 13, [.fix 2 3, .fix 6 0, .opd 3, .fix 2 0, .opd 3, .fix 2 0, .opd 3, .fix 2 0]⟩, [.u3 b, .u3 a, .u3 d])
  | .knot d a => some (⟨2, 14, [.fix 2 0, .fix 11 0, .opd 3, .fix 2 0, .opd 3, .fix 2 0]⟩, [.u3 a, .u3 d])
  | .kpop d a => some (⟨2, 14, [.fix 2 1, .fix 11 0, .opd 3, .fix 2 0, .opd 5]⟩, [.u3 a, .u5 d])
  | .kfirst d a => some (⟨2, 14, [.fix 2 2, .fix 11 0, .opd 3, .fix 2 0, .opd 5]⟩, [.u3 a, .u5 d])
  | .kset d a => some (⟨2, 14, [.fix 2 3, .fix 11 0, .opd 5, .opd 3, .fix 2 0]⟩, [.u5 a, .u3 d])
  | .vbcast d b k e => some (⟨2, 15, [.fix 2 0, .fix 1 0, .opd 2, .opd 3, .opd 5, .fix 5 0, .opd 5]⟩, [.ew e, .u3 k, .u5 b, .u5 d])
  | .vins d a b e => some (⟨2, 15, [.fix 2 1, .fix 1 0, .opd 2, .fix 3 0, .opd 5, .opd 5, .opd 5]⟩, [.ew e, .u5 b, .u5 a, .u5 d])
  | .vext d a b e keep => some (⟨2, 15, [.fix 2 2, .opd 1, .opd 2, .fix 3 0, .opd 5, .opd 5, .opd 5]⟩, [.bit keep, .ew e, .u5 b, .u5 a, .u5 d])
  | .vslide d a b k e keep => some (⟨2, 15, formatV 3⟩, [.bit keep, .ew e, .u3 k, .u5 b, .u5 a, .u5 d])
  | .vperm d a b k e keep => some (⟨2, 16, formatV 0⟩, [.bit keep, .ew e, .u3 k, .u5 b, .u5 a, .u5 d])
  | .vrot d a b k e keep => some (⟨2, 16, formatV 1⟩, [.bit keep, .ew e, .u3 k, .u5 b, .u5 a, .u5 d])
  | .vzip d a b k e keep => some (⟨2, 16, formatV 2⟩, [.bit keep, .ew e, .u3 k, .u5 b, .u5 a, .u5 d])
  | .vunzip d a b k e keep => some (⟨2, 16, formatV 3⟩, [.bit keep, .ew e, .u3 k, .u5 b, .u5 a, .u5 d])
  | .vrsum d a k e keep => some (⟨2, 17, [.fix 2 0, .opd 1, .opd 2, .opd 3, .fix 5 0, .opd 5, .opd 5]⟩, [.bit keep, .ew e, .u3 k, .u5 a, .u5 d])
  | .vrmax d a k e keep => some (⟨2, 17, [.fix 2 1, .opd 1, .opd 2, .opd 3, .fix 5 0, .opd 5, .opd 5]⟩, [.bit keep, .ew e, .u3 k, .u5 a, .u5 d])
  | .vrfmax d a k e keep => some (⟨2, 17, [.fix 2 1, .opd 1, .opd 2, .opd 3, .fix 5 1, .opd 5, .opd 5]⟩, [.bit keep, .fw e, .u3 k, .u5 a, .u5 d])
  | .vrmin d a k e keep => some (⟨2, 17, [.fix 2 2, .opd 1, .opd 2, .opd 3, .fix 5 0, .opd 5, .opd 5]⟩, [.bit keep, .ew e, .u3 k, .u5 a, .u5 d])
  | .vrfmin d a k e keep => some (⟨2, 17, [.fix 2 2, .opd 1, .opd 2, .opd 3, .fix 5 1, .opd 5, .opd 5]⟩, [.bit keep, .fw e, .u3 k, .u5 a, .u5 d])
  | .vrfsum d a k e keep => some (⟨2, 17, [.fix 2 3, .opd 1, .opd 2, .opd 3, .fix 5 0, .opd 5, .opd 5]⟩, [.bit keep, .fw e, .u3 k, .u5 a, .u5 d])
  | .vcvt d a src dst rm sat k => some (⟨2, 18, [.opd 2, .opd 1, .opd 2, .opd 4, .opd 4, .opd 5, .opd 5]⟩, [.u2 k, .bit sat, .rm rm, .fmt dst, .fmt src, .u5 a, .u5 d])
  | .vpack d a nf k e keep => some (⟨2, 19, [.fix 2 0, .opd 1, .opd 2, .opd 3, .opd 4, .fix 1 0, .opd 5, .opd 5]⟩, [.bit keep, .ew e, .u3 k, .fmt nf, .u5 a, .u5 d])
  | .vunpk d a nf k e keep => some (⟨2, 19, [.fix 2 1, .opd 1, .opd 2, .opd 3, .opd 4, .fix 1 0, .opd 5, .opd 5]⟩, [.bit keep, .ew e, .u3 k, .fmt nf, .u5 a, .u5 d])
  | .vlut d a b k e keep => some (⟨2, 20, formatV 0⟩, [.bit keep, .fw e, .u3 k, .u5 b, .u5 a, .u5 d])
  | .vscale d a b k e keep => some (⟨2, 21, formatV 0⟩, [.bit keep, .fw e, .u3 k, .u5 b, .u5 a, .u5 d])
  | .vmovi d i k e => some (⟨2, 22, [.opd 2, .opd 3, .opd 13, .opd 5]⟩, [.ew e, .u3 k, .imm i, .u5 d])
  | .mma c a b fa fb popA popB s => some (⟨3, 0, [.opd 5, .opd 1, .opd 1, .opd 4, .opd 4, .opd 3, .opd 3, .opd 2]⟩, [.u5 s, .bit popB, .bit popA, .fmt fb, .fmt fa, .u3 b, .u3 a, .u2 c])
  | .mmasN6 c a b fa fb popA popB s => some (⟨3, 1, [.opd 5, .opd 1, .opd 1, .opd 4, .opd 4, .opd 3, .opd 3, .opd 2]⟩, [.u5 s, .bit popB, .bit popA, .fmt fb, .fmt fa, .u3 b, .u3 a, .u2 c])
  | .mmasN8 c a b fa fb popA popB s => some (⟨3, 2, [.opd 5, .opd 1, .opd 1, .opd 4, .opd 4, .opd 3, .opd 3, .opd 2]⟩, [.u5 s, .bit popB, .bit popA, .fmt fb, .fmt fa, .u3 b, .u3 a, .u2 c])
  | .mmasN12 c a b fa fb popA popB s => some (⟨3, 3, [.opd 5, .opd 1, .opd 1, .opd 4, .opd 4, .opd 3, .opd 3, .opd 2]⟩, [.u5 s, .bit popB, .bit popA, .fmt fb, .fmt fa, .u3 b, .u3 a, .u2 c])
  | .mzero c => some (⟨3, 4, [.fix 21 0, .opd 2]⟩, [.u2 c])
  | .mdrain c v tf rm sat row => some (⟨3, 5, [.fix 4 0, .opd 5, .opd 1, .opd 2, .opd 4, .opd 5, .opd 2]⟩, [.u5 row, .bit sat, .rm rm, .fmt tf, .u5 v, .u2 c])
  | .mdrains c a tf rm sat row => some (⟨3, 6, [.fix 4 0, .opd 5, .opd 1, .opd 2, .opd 4, .opd 5, .opd 2]⟩, [.u5 row, .bit sat, .rm rm, .fmt tf, .u5 a, .u2 c])
  | .mchainSend c rows row => some (⟨3, 7, [.fix 4 0, .opd 5, .fix 5 0, .fix 2 0, .opd 5, .opd 2]⟩, [.u5 row, .u5 rows, .u2 c])
  | .mchainRecv c rows int row => some (⟨3, 7, [.fix 4 0, .opd 5, .fix 3 0, .opd 1, .fix 1 0, .fix 2 1, .opd 5, .opd 2]⟩, [.u5 row, .bit int, .u5 rows, .u2 c])
  | .mchainRelay c rows int row => some (⟨3, 7, [.fix 4 0, .opd 5, .fix 3 0, .opd 1, .fix 1 0, .fix 2 2, .opd 5, .opd 2]⟩, [.u5 row, .bit int, .u5 rows, .u2 c])
  | .mcbk r a => some (⟨3, 8, [.opd 5, .fix 13 0, .opd 3, .fix 2 0]⟩, [.u5 a, .u3 r])
  | .mrset r a => some (⟨3, 9, [.opd 5, .fix 13 0, .opd 3, .fix 2 0]⟩, [.u5 a, .u3 r])
  | .mradv r a => some (⟨3, 10, [.opd 5, .fix 13 0, .opd 3, .fix 2 0]⟩, [.u5 a, .u3 r])
  | .mrstat r d => some (⟨3, 11, [.opd 5, .fix 13 0, .opd 3, .fix 2 0]⟩, [.u5 d, .u3 r])
  | .mwait => some (⟨3, 12, [.fix 23 0]⟩, [])
  | .mseq d => some (⟨3, 13, [.opd 5, .fix 18 0]⟩, [.u5 d])
  | .macc c int s => some (⟨3, 14, [.fix 18 0, .opd 2, .opd 1, .opd 2]⟩, [.u2 s, .bit int, .u2 c])
  | _ => none

/-- All 32 bits of a word with the L bit l (R27). -/
def Layout.slots (y : Layout) (l : Bool) : List Slot := y.low ++ [.fix 6 y.op, .fix 1 l.toNat, .fix 2 y.cls]

/-! ### What a row says of a word -/

def size : List Slot → Nat
  | [] => 0
  | .fix n _ :: ss => n + size ss
  | .opd n :: ss => n + size ss

/-- The number that the pieces make, the first in the lowest bits. -/
def value : List Slot → List Operand → Nat
  | .fix n v :: ss, os => v + 2 ^ n * value ss os
  | .opd n :: ss, o :: os => o.value + 2 ^ n * value ss os
  | _, _ => 0

/-- The pieces stand in w from bit lo up. -/
def Reads (w : Nat) : Nat → List Slot → List Operand → Prop
  | lo, .fix n v :: ss, os => fld w lo n = v ∧ Reads w (lo + n) ss os
  | lo, .opd n :: ss, o :: os => fld w lo n = o.value ∧ Reads w (lo + n) ss os
  | _, _, _ => True

/-- The operands are those of the slots, and every fixed piece fits its bits. -/
inductive Fits : List Slot → List Operand → Prop
  | nil : Fits [] []
  | fix {ss os} {n v : Nat} (h : v < 2 ^ n) (t : Fits ss os) : Fits (.fix n v :: ss) os
  | opd {ss os} (o : Operand) (t : Fits ss os) : Fits (.opd o.width :: ss) (o :: os)

theorem Fits.append_fixed {ss os} (h : Fits ss os) {ts : List Slot} (ht : Fits ts []) : Fits (ss ++ ts) os := by
  induction h with
  | nil => exact ht
  | fix h _ ih => exact .fix h ih
  | opd o _ ih => exact .opd o ih

theorem value_append {ss os} (h : Fits ss os) (ts : List Slot) :
    value (ss ++ ts) os = value ss os + 2 ^ size ss * value ts [] := by
  induction h with
  | nil => simp [value, size]
  | fix _ _ ih => simp only [List.cons_append, value, size, ih, Nat.pow_add]; ring
  | opd o _ ih => simp only [List.cons_append, value, size, ih, Nat.pow_add]; ring

theorem reads_append {w : Nat} {ss os} (h : Fits ss os) (ts : List Slot) (lo : Nat) :
    Reads w lo (ss ++ ts) os ↔ Reads w lo ss os ∧ Reads w (lo + size ss) ts [] := by
  induction h generalizing lo with
  | nil => simp [Reads, size]
  | fix _ _ ih => simp only [List.cons_append, Reads, size, ih, and_assoc, Nat.add_assoc]
  | opd o _ ih => simp only [List.cons_append, Reads, size, ih, and_assoc, Nat.add_assoc]

/-- The lowest n bits of a number below 2^(n + k) and those above them. -/
theorem mod_two_pow_add {q n k v r : Nat} (hv : v < 2 ^ n) :
    q % 2 ^ (n + k) = v + 2 ^ n * r ↔ q % 2 ^ n = v ∧ q / 2 ^ n % 2 ^ k = r := by
  rw [Nat.pow_add, Nat.mod_mul]
  constructor
  · intro h
    have h1 := congrArg (· % 2 ^ n) h
    have h2 := congrArg (· / 2 ^ n) h
    simpa [Nat.add_mul_div_left, Nat.div_eq_of_lt, Nat.mod_eq_of_lt, hv, Nat.mod_lt] using And.intro h1 h2
  · rintro ⟨rfl, rfl⟩; rfl

theorem div_two_pow_add (w lo n : Nat) : w / 2 ^ (lo + n) = w / 2 ^ lo / 2 ^ n := by
  rw [Nat.pow_add, Nat.div_div_eq_div_mul]

/-- Reading every piece is knowing the number: a word has one way to be cut into pieces. -/
theorem reads_iff {ss os} (h : Fits ss os) (w lo : Nat) : Reads w lo ss os ↔ w / 2 ^ lo % 2 ^ size ss = value ss os := by
  induction h generalizing lo with
  | nil => simp [Reads, size, value, Nat.mod_one]
  | fix hv _ ih => rw [Reads, size, value, ih, mod_two_pow_add hv, fld, div_two_pow_add]
  | opd o _ ih => rw [Reads, size, value, ih, mod_two_pow_add o.fits, fld, div_two_pow_add]

theorem add_mul_lt_two_pow {n k v r : Nat} (hv : v < 2 ^ n) (hr : r < 2 ^ k) : v + 2 ^ n * r < 2 ^ (n + k) := by
  calc v + 2 ^ n * r < 2 ^ n * (r + 1) := by rw [Nat.mul_add]; omega
    _ ≤ 2 ^ n * 2 ^ k := Nat.mul_le_mul_left _ hr
    _ = 2 ^ (n + k) := (Nat.pow_add 2 n k).symm

theorem value_lt {ss os} (h : Fits ss os) : value ss os < 2 ^ size ss := by
  induction h with
  | nil => simp [value, size]
  | fix hv _ ih => exact add_mul_lt_two_pow hv ih
  | opd o _ ih => exact add_mul_lt_two_pow o.fits ih

/-! ### The encoder agrees with the table -/

/-- The fixed bits of a word, as the encoder writes them. -/
def fixedPart : Nat → List Slot → Nat
  | _, [] => 0
  | lo, .fix n v :: ss => v * 2 ^ lo + fixedPart (lo + n) ss
  | lo, .opd n :: ss => fixedPart (lo + n) ss

/-- The operand fields with their lowest bits, the highest first, as the encoder writes them. -/
def operandsAt : Nat → List Slot → List Operand → List (Nat × Nat)
  | lo, .fix n _ :: ss, os => operandsAt (lo + n) ss os
  | lo, .opd n :: ss, o :: os => operandsAt (lo + n) ss os ++ [(lo, o.value)]
  | _, _, _ => []

theorem word_eq_value {ss os} (h : Fits ss os) (lo base : Nat) :
    word (base + fixedPart lo ss) (operandsAt lo ss os) = some (base + 2 ^ lo * value ss os) := by
  unfold word
  congr 1
  induction h generalizing lo base with
  | nil => simp [fixedPart, operandsAt, value]
  | @fix ss os n v _ _ ih =>
    simp only [fixedPart, operandsAt, value, ← Nat.add_assoc, ih, Nat.pow_add]
    ring
  | opd o _ ih =>
    simp only [fixedPart, operandsAt, value, List.foldl_append, List.foldl_cons, List.foldl_nil, ih, Nat.pow_add]
    ring

theorem encodeWord_of_layout {i : Instr} {y os} (h : layout i = some (y, os)) :
    encodeWord i = word (fixedPart 0 (y.slots false)) (operandsAt 0 (y.slots false) os) := by
  cases i <;> cases h <;> rfl

theorem encodeWord_of_no_layout {i : Instr} (h : layout i = none) : encodeWord i = none := by
  cases i <;> cases h <;> rfl

/-- The widths of the operand fields. -/
def operandWidths : List Slot → List Nat
  | [] => []
  | .fix _ _ :: ss => operandWidths ss
  | .opd n :: ss => n :: operandWidths ss

def fixedFit : List Slot → Bool
  | [] => true
  | .fix n v :: ss => decide (v < 2 ^ n) && fixedFit ss
  | .opd _ :: ss => fixedFit ss

theorem fits_of {ss : List Slot} {os : List Operand} (hw : os.map Operand.width = operandWidths ss) (hf : fixedFit ss = true) :
    Fits ss os := by
  induction ss generalizing os with
  | nil => obtain rfl : os = [] := by simpa [operandWidths] using hw
           exact .nil
  | cons s ss ih =>
    cases s with
    | fix n v =>
      simp only [fixedFit, Bool.and_eq_true, decide_eq_true_eq] at hf
      exact .fix hf.1 (ih hw hf.2)
    | opd n =>
      cases os with
      | nil => simp [operandWidths] at hw
      | cons o os =>
        simp only [operandWidths, List.map_cons, List.cons.injEq] at hw
        obtain ⟨rfl, hw⟩ := hw
        exact .opd o (ih hw hf)

/-- A row fills bits [22:0], its fixed pieces fit their bits, and its class and op6 are numbers of two and six bits, op6 below extension
space (R45). -/
structure Layout.Ok (y : Layout) (os : List Operand) : Prop where
  widths : os.map Operand.width = operandWidths y.low
  fixed : fixedFit y.low = true
  size : size y.low = 23
  op : y.op < 48
  cls : y.cls < 4

theorem ok_of_layout {i : Instr} {y os} (h : layout i = some (y, os)) : y.Ok os := by
  cases i <;> cases h <;> exact ⟨rfl, rfl, rfl, by decide, by decide⟩

section
variable {y : Layout} {os : List Operand} (hy : y.Ok os)
include hy

theorem Layout.Ok.fits : Fits y.low os := fits_of hy.widths hy.fixed

theorem Layout.Ok.fits_head (l : Bool) : Fits [.fix 6 y.op, .fix 1 l.toNat, .fix 2 y.cls] [] :=
  .fix (hy.op.trans (by decide)) (.fix (bool_lt l) (.fix hy.cls .nil))

theorem Layout.Ok.fits_slots (l : Bool) : Fits (y.slots l) os := hy.fits.append_fixed (hy.fits_head l)

theorem Layout.Ok.value_slots (l : Bool) :
    value (y.slots l) os = value y.low os + 2 ^ 23 * y.op + 2 ^ 29 * l.toNat + 2 ^ 30 * y.cls := by
  rw [Layout.slots, value_append hy.fits, hy.size]
  simp only [value]
  ring

theorem Layout.Ok.size_slots (l : Bool) : Table.size (y.slots l) = 32 := by
  have h (ss ts : List Slot) : Table.size (ss ++ ts) = Table.size ss + Table.size ts := by
    induction ss with
    | nil => simp [Table.size]
    | cons s ss ih => cases s <;> simp only [List.cons_append, Table.size, ih, Nat.add_assoc]
  rw [Layout.slots, h, hy.size]
  rfl

/-- The word of a row with the L bit l, read piece by piece. -/
theorem Layout.Ok.reads_slots (l : Bool) (w : Nat) : Reads w 0 (y.slots l) os ↔
    Reads w 0 y.low os ∧ fld w 23 6 = y.op ∧ lBit w = l ∧ fld w 30 2 = y.cls := by
  have hl : fld w 29 1 = l.toNat ↔ lBit w = l := by
    have := Nat.mod_lt (w / 2 ^ 29) (Nat.two_pow_pos 1)
    unfold lBit fld
    generalize w / 2 ^ 29 % 2 ^ 1 = b at this
    interval_cases b <;> cases l <;> decide
  rw [Layout.slots, reads_append hy.fits, hy.size, ← hl]
  simp [Reads]

end

/-- A word is that of an instruction with the L bit l exactly when it holds the pieces of the row. -/
theorem encode_eq_some_iff {l : Bool} {i : Instr} {w : Nat} : encode l i = some w ↔
    w < 2 ^ 32 ∧ lBit w = l ∧ ∃ y os, layout i = some (y, os) ∧ fld w 30 2 = y.cls ∧ fld w 23 6 = y.op ∧ Reads w 0 y.low os := by
  rcases hi : layout i with - | ⟨y, os⟩
  · simp [encode, encodeWord_of_no_layout hi]
  · have hy := ok_of_layout hi
    have hsum : encode l i = some (value (y.slots l) os) := by
      have h := word_eq_value (hy.fits_slots false) 0 0
      rw [Nat.zero_add, Nat.zero_add] at h
      rw [encode, encodeWord_of_layout hi, h, Option.map_some, hy.value_slots, hy.value_slots]
      congr 1
      simp only [Bool.toNat_false]
      ring
    have hcut := hy.reads_slots l w
    rw [reads_iff (hy.fits_slots l), hy.size_slots, Nat.pow_zero, Nat.div_one] at hcut
    have hlt := value_lt (hy.fits_slots l)
    rw [hy.size_slots] at hlt
    simp only [hsum, Option.some.injEq, Prod.mk.injEq, and_assoc, exists_and_left, exists_eq_left']
    constructor
    · rintro rfl
      obtain ⟨hlow, hop, hl, hc⟩ := hcut.1 (Nat.mod_eq_of_lt hlt)
      exact ⟨hlt, hl, hc, hop, hlow⟩
    · rintro ⟨hw, hl, hc, hop, hlow⟩
      rw [← hcut.2 ⟨hlow, hop, hl, hc⟩, Nat.mod_eq_of_lt hw]

/-! ### What the decoder reads from a field -/

theorem fld_lt (w lo n : Nat) : fld w lo n < 2 ^ n := Nat.mod_lt _ (Nat.two_pow_pos n)

@[simp] theorem f4_val (w lo : Nat) : (f4 w lo).val = fld w lo 2 := rfl
@[simp] theorem f8_val (w lo : Nat) : (f8 w lo).val = fld w lo 3 := rfl
@[simp] theorem f32_val (w lo : Nat) : (f32 w lo).val = fld w lo 5 := rfl
@[simp] theorem f64_val (w lo : Nat) : (f64 w lo).val = fld w lo 6 := rfl
theorem imm_toNat (w lo n : Nat) : (BitVec.ofNat n (w / 2 ^ lo)).toNat = fld w lo n := rfl
@[simp] theorem bit_toNat (w lo : Nat) : (fld w lo 1 == 1).toNat = fld w lo 1 := by
  have := fld_lt w lo 1
  generalize fld w lo 1 = b at this
  interval_cases b <;> rfl

@[simp] theorem f4_eq_iff {w lo : Nat} {r : Fin 4} : f4 w lo = r ↔ fld w lo 2 = r.val := Fin.ext_iff
@[simp] theorem f8_eq_iff {w lo : Nat} {r : Fin 8} : f8 w lo = r ↔ fld w lo 3 = r.val := Fin.ext_iff
@[simp] theorem f32_eq_iff {w lo : Nat} {r : Fin 32} : f32 w lo = r ↔ fld w lo 5 = r.val := Fin.ext_iff
@[simp] theorem f64_eq_iff {w lo : Nat} {r : Fin 64} : f64 w lo = r ↔ fld w lo 6 = r.val := Fin.ext_iff
theorem imm_eq_ofNat_fld (w lo n : Nat) : BitVec.ofNat n (w / 2 ^ lo) = BitVec.ofNat n (fld w lo n) :=
  BitVec.eq_of_toNat_eq (Nat.mod_mod _ _).symm
theorem fld_eq_three {w lo : Nat} : fld w lo 2 = 3 ↔ fld w lo 2 ≠ 0 ∧ fld w lo 2 ≠ 1 ∧ fld w lo 2 ≠ 2 := by
  have := fld_lt w lo 2
  omega
@[simp] theorem toNat_beq_one (b : Bool) : (b.toNat == 1) = b := by cases b <;> rfl
/-- The lower bits of a field. -/
theorem fld_of_wider (w lo : Nat) {m n : Nat} (h : m ≤ n) : fld w lo m = fld w lo n % 2 ^ m :=
  (Nat.mod_mod_of_dvd _ (Nat.pow_dvd_pow 2 h)).symm

/-! The codes of R36: a code and the value it names determine each other. -/

@[simp] theorem ew_ofCode_code (e : Ew) : Ew.ofCode e.code = e := by cases e <;> rfl
@[simp] theorem rm_ofCode_code (e : Rm) : Rm.ofCode e.code = e := by cases e <;> rfl
@[simp] theorem fmt_ofCode_code (e : Fmt) : Fmt.ofCode e.code = e := by cases e <;> rfl
@[simp] theorem level_ofCode_code (e : Level) : Level.ofCode e.code = e := by cases e <;> rfl
@[simp] theorem tlbiKind_ofCode_code (e : TlbiKind) : TlbiKind.ofCode e.code = e := by cases e <;> rfl

@[simp] theorem ew_code_ofCode (w lo : Nat) : (Ew.ofCode (fld w lo 2)).code = fld w lo 2 :=
  (by decide : ∀ c < 4, (Ew.ofCode c).code = c) _ (fld_lt w lo 2)
@[simp] theorem rm_code_ofCode (w lo : Nat) : (Rm.ofCode (fld w lo 2)).code = fld w lo 2 :=
  (by decide : ∀ c < 4, (Rm.ofCode c).code = c) _ (fld_lt w lo 2)
@[simp] theorem fmt_code_ofCode (w lo : Nat) : (Fmt.ofCode (fld w lo 4)).code = fld w lo 4 :=
  (by decide : ∀ c < 16, (Fmt.ofCode c).code = c) _ (fld_lt w lo 4)
@[simp] theorem level_code_ofCode (w lo : Nat) : (Level.ofCode (fld w lo 2)).code = fld w lo 2 :=
  (by decide : ∀ c < 4, (Level.ofCode c).code = c) _ (fld_lt w lo 2)
@[simp] theorem tlbiKind_code_ofCode (w lo : Nat) : (TlbiKind.ofCode (fld w lo 2)).code = fld w lo 2 :=
  (by decide : ∀ c < 4, (TlbiKind.ofCode c).code = c) _ (fld_lt w lo 2)

@[simp] theorem fw_ofCode_code (e : Fw) : Fw.ofCode? e.code = some e := by cases e <;> rfl
@[simp] theorem fw_ofCode_eq_some {n : Nat} {e : Fw} : Fw.ofCode? n = some e ↔ n = e.code := by
  refine ⟨fun h => ?_, fun h => h ▸ fw_ofCode_code e⟩
  unfold Fw.ofCode? at h
  split_ifs at h <;> cases h <;> assumption
@[simp] theorem ord_ofCode_code (e : Ord) : Ord.ofCode? e.code = some e := by cases e <;> rfl
@[simp] theorem ord_ofCode_eq_some {n : Nat} {e : Ord} : Ord.ofCode? n = some e ↔ n = e.code := by
  refine ⟨fun h => ?_, fun h => h ▸ ord_ofCode_code e⟩
  unfold Ord.ofCode? at h
  split_ifs at h <;> cases h <;> assumption
@[simp] theorem scope_ofCode_code (e : Scope) : Scope.ofCode? e.code = some e := by cases e <;> rfl
@[simp] theorem scope_ofCode_eq_some {n : Nat} {e : Scope} : Scope.ofCode? n = some e ↔ n = e.code := by
  refine ⟨fun h => ?_, fun h => h ▸ scope_ofCode_code e⟩
  unfold Scope.ofCode? at h
  split_ifs at h <;> cases h <;> assumption
@[simp] theorem tlbiScope_ofCode_code (e : TlbiScope) : TlbiScope.ofCode? e.code = some e := by cases e <;> rfl
@[simp] theorem tlbiScope_ofCode_eq_some {n : Nat} {e : TlbiScope} : TlbiScope.ofCode? n = some e ↔ n = e.code := by
  refine ⟨fun h => ?_, fun h => h ▸ tlbiScope_ofCode_code e⟩
  unfold TlbiScope.ofCode? at h
  split_ifs at h <;> cases h <;> assumption
@[simp] theorem cpyField_ofCode_code (e : CpyField) : CpyField.ofCode? e.code = some e := by cases e <;> rfl
@[simp] theorem cpyField_ofCode_eq_some {n : Nat} {e : CpyField} : CpyField.ofCode? n = some e ↔ n = e.code := by
  refine ⟨fun h => ?_, fun h => h ▸ cpyField_ofCode_code e⟩
  unfold CpyField.ofCode? at h
  split_ifs at h <;> cases h <;> assumption
@[simp] theorem cpySel_ofCode_code (e : CpySel) : CpySel.ofCode? e.code = some e := by cases e <;> rfl
@[simp] theorem cpySel_ofCode_eq_some {n : Nat} {e : CpySel} : CpySel.ofCode? n = some e ↔ n = e.code := by
  refine ⟨fun h => ?_, fun h => h ▸ cpySel_ofCode_code e⟩
  unfold CpySel.ofCode? at h
  split_ifs at h <;> cases h <;> assumption

/-! ### The decoder agrees with the table -/

@[simp] theorem needZero_zero (k : Decoded) : needZero 0 k = k := rfl
@[simp] theorem needEq_self (x : Nat) (k : Decoded) : needEq x x k = k := if_pos rfl
@[simp] theorem coded_some {α : Type} (a : α) (k : α → Decoded) : coded (some a) k = k a := rfl

theorem cpyField_code_ne (f : CpyField) : f.code ≠ 10 := by cases f <;> decide

/-- The word w holds the row of i, a row of the class cls and the op6 op. -/
def Holds (cls op w : Nat) (i : Instr) : Prop := ∃ low os, layout i = some (⟨cls, op, low⟩, os) ∧ Reads w 0 low os

/-- What is decoded, if it is an instruction, is one whose row w holds. -/
def Sound (cls op w : Nat) (r : Decoded) : Prop := ∀ i, r = .ok i → Holds cls op w i

section
variable {cls op w : Nat}

@[simp] theorem sound_ok {i : Instr} : Sound cls op w (.ok i) ↔ Holds cls op w i := by simp [Sound]
@[simp] theorem sound_error {r : Reject} : Sound cls op w (.error r) := by simp [Sound]
@[simp] theorem sound_needZero {x : Nat} {k : Decoded} : Sound cls op w (needZero x k) ↔ (x = 0 → Sound cls op w k) := by
  unfold needZero
  split <;> simp [*]
@[simp] theorem sound_needEq {x v : Nat} {k : Decoded} : Sound cls op w (needEq x v k) ↔ (x = v → Sound cls op w k) := by
  unfold needEq
  split <;> simp [*]
@[simp] theorem sound_coded {α : Type} {o : Option α} {k : α → Decoded} :
    Sound cls op w (coded o k) ↔ ∀ a, o = some a → Sound cls op w (k a) := by
  unfold coded
  split <;> simp

end

/-- Class S: a word that holds a row decodes to its instruction. -/
theorem decodeS_of_reads {i : Instr} {op w : Nat} {low os} (h : layout i = some (⟨0, op, low⟩, os)) (hr : Reads w 0 low os) :
    decodeS op w = .ok i := by
  cases i <;> cases h
  all_goals
    simp only [Reads, formatR, formatI] at hr
    simp only [decodeS, decS0, decS1, decS2, decS3, decS4, decS5, decS8, decS9, decS10, decS11, decS12, decS13, decS14, decS15, decS16,
    decS17, decS20, decS21, decS22, decS23, decS24, decS25, decS26, decS27, decS28, decS29, decS32, decS33, decS34]
    simp [hr, ↓imm_eq_ofNat_fld]

/-- Class S: what a word decodes to is an instruction whose row it holds. -/
theorem decodeS_sound (op w : Nat) : Sound 0 op w (decodeS op w) := by
  unfold decodeS
  split
  all_goals simp only [sound_error, decS0, decS1, decS2, decS3, decS4, decS5, decS8, decS9, decS10, decS11, decS12, decS13, decS14, decS15, decS16,
    decS17, decS20, decS21, decS22, decS23, decS24, decS25, decS26, decS27, decS28, decS29, decS32, decS33, decS34]
  all_goals repeat' split
  all_goals
    simp only [sound_error, sound_needZero, sound_ok]
  all_goals
    intros
    exact ⟨_, _, rfl, by simp [Reads, ↓imm_toNat, *]⟩

/-- Class M: a word that holds a row decodes to its instruction. -/
theorem decodeM_of_reads {i : Instr} {op w : Nat} {low os} (h : layout i = some (⟨1, op, low⟩, os)) (hr : Reads w 0 low os) :
    decodeM op w = .ok i := by
  cases i <;> cases h
  case cpyset c a f => 
    obtain ⟨hf, hz⟩ := hr
    simp only [Reads] at hz
    simp [decodeM, decM37, hf, hz, cpyField_code_ne]
  case cpysetClrerr c =>
    obtain ⟨h18, hz⟩ := hr
    have h4 : fld w 0 4 = 10 := by simp [fld_of_wider w 0 (by decide : 4 ≤ 18), h18]
    simp only [Reads] at hz
    simp [decodeM, decM37, h4, h18, hz]
  all_goals
    simp only [Reads, formatI, formatA] at hr
    simp only [decodeM, decM0, decM1, decM2, decM3, decM4, decM5, decM6, decM8, decM9, decM10, decM11, decM12, decM13, decM14, decM15,
      decM16, decM17, decM18, decM19, decM20, decM21, decM22, decM23, decM24, decM25, decM26, decM27, decM28, decM29, decM30, decM31,
      decM32, decM33, decM34, decM35, decM36, decM38, decM39, decM40, decM41, decM42, decM43, decM44, decM45]
    simp [hr, ↓imm_eq_ofNat_fld]

/-- Class M: what a word decodes to is an instruction whose row it holds. -/
theorem decodeM_sound (op w : Nat) : Sound 1 op w (decodeM op w) := by
  unfold decodeM
  split
  all_goals simp only [sound_error, decM0, decM1, decM2, decM3, decM4, decM5, decM6, decM8, decM9, decM10, decM11, decM12, decM13, decM14, decM15,
    decM16, decM17, decM18, decM19, decM20, decM21, decM22, decM23, decM24, decM25, decM26, decM27, decM28, decM29,
    decM30, decM31, decM32, decM33, decM34, decM35, decM36, decM37, decM38, decM39, decM40, decM41, decM42, decM43,
    decM44, decM45]
  all_goals repeat' split
  all_goals
    simp only [sound_error, sound_needZero, sound_needEq, sound_coded, sound_ok, ord_ofCode_eq_some,
      scope_ofCode_eq_some, tlbiScope_ofCode_eq_some, cpyField_ofCode_eq_some, cpySel_ofCode_eq_some]
  all_goals
    intros
    exact ⟨_, _, rfl, by simp [Reads, ↓imm_toNat, *]⟩

/-- Class V: a word that holds a row decodes to its instruction. -/
theorem decodeV_of_reads {i : Instr} {op w : Nat} {low os} (h : layout i = some (⟨2, op, low⟩, os)) (hr : Reads w 0 low os) :
    decodeV op w = .ok i := by
  cases i <;> cases h
  all_goals
    simp only [Reads, formatV] at hr
    simp only [decodeV, decV0, decV1, decV2, decV3, decV4, decV5, decV6, decV7, decV8, decV9, decV10, decV11, decV12, decV13, decV14,
    decV15, decV16, decV17, decV18, decV19, decV20, decV21, decV22]
    simp [hr, ↓imm_eq_ofNat_fld]

/-- Class V: what a word decodes to is an instruction whose row it holds. -/
theorem decodeV_sound (op w : Nat) : Sound 2 op w (decodeV op w) := by
  unfold decodeV
  split
  all_goals simp only [sound_error, decV0, decV1, decV2, decV3, decV4, decV5, decV6, decV7, decV8, decV9, decV10, decV11, decV12, decV13, decV14,
    decV15, decV16, decV17, decV18, decV19, decV20, decV21, decV22]
  all_goals repeat' split
  all_goals
    simp only [sound_error, sound_needZero, sound_needEq, sound_coded, sound_ok, fw_ofCode_eq_some]
  all_goals
    intros
    exact ⟨_, _, rfl, by simp_all [Reads, ↓imm_toNat, fld_eq_three]⟩

/-- Class X: a word that holds a row decodes to its instruction. -/
theorem decodeX_of_reads {i : Instr} {op w : Nat} {low os} (h : layout i = some (⟨3, op, low⟩, os)) (hr : Reads w 0 low os) :
    decodeX op w = .ok i := by
  cases i <;> cases h
  all_goals
    simp only [Reads] at hr
    simp only [decodeX, decX0, decX1, decX2, decX3, decX4, decX5, decX6, decX7, decX8, decX9, decX10, decX11, decX12, decX13, decX14]
    simp [hr]

/-- Class X: what a word decodes to is an instruction whose row it holds. -/
theorem decodeX_sound (op w : Nat) : Sound 3 op w (decodeX op w) := by
  unfold decodeX
  split
  all_goals simp only [sound_error, decX0, decX1, decX2, decX3, decX4, decX5, decX6, decX7, decX8, decX9, decX10, decX11, decX12, decX13, decX14]
  all_goals repeat' split
  all_goals
    simp only [sound_error, sound_needZero, sound_ok]
  all_goals
    intros
    exact ⟨_, _, rfl, by simp [Reads, *]⟩

/-- The decoder reads exactly the words of the table (R45, R47). -/
theorem decodeFields_eq_ok_iff {w : Nat} {i : Instr} : decodeFields w = .ok i ↔
    ∃ y os, layout i = some (y, os) ∧ fld w 30 2 = y.cls ∧ fld w 23 6 = y.op ∧ Reads w 0 y.low os := by
  constructor
  · intro h
    have holds {cls : Nat} (hc : fld w 30 2 = cls) : Holds cls (fld w 23 6) w i →
        ∃ y os, layout i = some (y, os) ∧ fld w 30 2 = y.cls ∧ fld w 23 6 = y.op ∧ Reads w 0 y.low os := by
      rintro ⟨low, os, hy, hr⟩
      exact ⟨_, os, hy, hc, rfl, hr⟩
    unfold decodeFields at h
    split_ifs at h
    split at h
    · next hc => exact holds hc (decodeS_sound _ _ i h)
    · next hc => exact holds hc (decodeM_sound _ _ i h)
    · next hc => exact holds hc (decodeV_sound _ _ i h)
    · next h0 h1 h2 => exact holds (fld_eq_three.2 ⟨h0, h1, h2⟩) (decodeX_sound _ _ i h)
  · rintro ⟨⟨cls, op, low⟩, os, hy, hc, hop, hr⟩
    have hok := ok_of_layout hy
    have hop48 : fld w 23 6 < 48 := hop ▸ hok.op
    have hones : w ≠ 0xFFFFFFFF := by
      rintro rfl
      exact absurd hop48 (by decide)
    have hcls : cls < 4 := hok.cls
    simp only at hc hop hr
    rw [decodeFields, if_neg hones, if_neg (by omega), hc, hop]
    interval_cases cls
    · exact decodeS_of_reads hy hr
    · exact decodeM_of_reads hy hr
    · exact decodeV_of_reads hy hr
    · exact decodeX_of_reads hy hr

theorem encode_eq_some_iff_decodeFields {l : Bool} {i : Instr} {w : Nat} :
    encode l i = some w ↔ w < 2 ^ 32 ∧ lBit w = l ∧ decodeFields w = .ok i := by
  rw [encode_eq_some_iff, decodeFields_eq_ok_iff]

theorem decodeWord_eq_ok_iff {w : Nat} {i : Instr} : decodeWord w = .ok i ↔ decodeFields w = .ok i ∧ i.wellFormed = true := by
  unfold decodeWord
  cases decodeFields w with
  | error r => simp
  | ok j =>
    simp only [Except.ok.injEq]
    split
    · next hj => exact ⟨fun h => ⟨Except.ok.inj h, Except.ok.inj h ▸ hj⟩, fun h => h.1 ▸ rfl⟩
    · next hj => exact ⟨nofun, fun h => absurd (h.1 ▸ h.2) hj⟩

/-- Settles O3: the encoder and the decoder are each the table of the instruction words, and a word is cut into its pieces in one way. -/
theorem encodeDecodeRoundTrip : Obligations.EncodeDecodeRoundTrip := by
  constructor
  · intro l i w hwf he
    obtain ⟨hw, hl, hd⟩ := encode_eq_some_iff_decodeFields.1 he
    exact ⟨hw, decodeWord_eq_ok_iff.2 ⟨hd, hwf⟩, hl⟩
  · intro w i hw hd
    obtain ⟨hf, hwf⟩ := decodeWord_eq_ok_iff.1 hd
    exact ⟨hwf, encode_eq_some_iff_decodeFields.2 ⟨hw, rfl, hf⟩⟩

end Sys2Proof.Table
end

section
namespace Sys2Proof.Machine
open Sys2Proof

/-! ## Register writes (R51, R151) -/

theorem rk_wk_self (x : Hart) {r : KReg} (v : Word) (h : r ≠ 0) : (x.wk r v).rk r = v := by
  have h' : r.val ≠ 0 := fun e => h (Fin.ext e)
  simp [Hart.rk, Hart.wk, h']

theorem wx_eq_set (x : Hart) {r : XReg} (v : Word) (h : r ≠ 0) : x.wx r v = { x with x := x.x.set r v } :=
  (put_written x (.x r v)).trans (if_neg h)

theorem wk_eq_set (x : Hart) {r : KReg} (v : Word) (h : r ≠ 0) : x.wk r v = { x with k := x.k.set r v } :=
  (put_written x (.k r v)).trans (if_neg h)

/-- Writing one entry of a register file leaves every other entry. -/
theorem getElem_set_other {α : Type} {n : Nat} (f : Vector α n) {r q : Fin n} (v : α) (h : q ≠ r) : (f.set r v)[q] = f[q] :=
  Vector.getElem_set_ne r.isLt q.isLt fun e => h (Fin.ext e.symm)

/-- A write under a mask, bit by bit. -/
theorem getLsbD_masked {n : Nat} (old v m : BitVec n) (i : Nat) :
    ((old &&& ~~~m) ||| (v &&& m)).getLsbD i = if m.getLsbD i = true then v.getLsbD i else old.getLsbD i := by
  by_cases h : i < n
  · simp only [BitVec.getLsbD_eq_getElem h, BitVec.getElem_or, BitVec.getElem_and, BitVec.getElem_not]
    cases m[i] <;> simp
  · simp [BitVec.getLsbD_of_ge _ _ (Nat.le_of_not_lt h)]

theorem wv_eq_set (x : Hart) {r : VReg} (v m : VWord) (h : r.val < 24) :
    x.wv r v m = { x with v := x.v.set r.val ((x.v[r.val] &&& ~~~m) ||| (v &&& m)) } := dif_pos h

theorem rv_wv_self (x : Hart) {r : VReg} (v m : VWord) (h : r.val < 24) :
    (x.wv r v m).rv r = (x.rv r &&& ~~~m) ||| (v &&& m) := by
  simp [Hart.rv, wv_eq_set x v m h, h]

/-- Settles O4: a write of each register file is one `set`, or, for x0, k0 and a port's number, nothing. -/
theorem registersReadAndWrite : Obligations.RegistersReadAndWrite := by
  unfold Obligations.RegistersReadAndWrite
  intro x
  refine ⟨rx_zero x, rk_zero x, fun v => ⟨wx_zero x v, wk_zero x v⟩, fun r v h => ⟨rx_wx_self x v h, ?_⟩,
    fun r v h => ⟨rk_wk_self x v h, ?_⟩, fun r v m h => ⟨⟨_, wv_eq_set x v m h, ?_⟩, ?_⟩, fun r v m h => dif_neg (Nat.not_lt.mpr h)⟩
  · exact ⟨_, wx_eq_set x v h, fun q hq => getElem_set_other x.x v hq⟩
  · exact ⟨_, wk_eq_set x v h, fun q hq => getElem_set_other x.k v hq⟩
  · exact fun q n hq => Vector.getElem_set_ne h n (Ne.symm hq)
  · intro i
    have h' : (x.put (.v r v m)).rv r = (x.rv r &&& ~~~m) ||| (v &&& m) := rv_wv_self x v m h
    rw [h', getLsbD_masked]

/-- Settles O2: each word evaluates to its instruction. -/
theorem decodeWords : Obligations.DecodeWords := by
  unfold Obligations.DecodeWords
  refine ⟨rfl, rfl, rfl, rfl, rfl, rfl, rfl, rfl, rfl, rfl, rfl, rfl, rfl, rfl, rfl, rfl, rfl, rfl, rfl, rfl⟩

end Sys2Proof.Machine
end

section
namespace Sys2Proof.Machine
open Sys2Proof Sys2Proof.Table

/-! ## Words that a profile or a privilege does not have (R48, R53, R128) -/

/-- The word of an instruction is of class V or X (R35). -/
def isVectorOrMatrix (i : Instr) : Bool := (layout i).any fun r => decide (2 ≤ r.1.cls)

theorem isVectorOrMatrix_of_encode {i : Instr} {l : Bool} {w : Nat} (h : encode l i = some w) (hw : 2 ≤ classOf w) :
    isVectorOrMatrix i = true := by
  obtain ⟨-, -, y, os, hi, hy, -⟩ := encode_eq_some_iff.mp h
  have hcls : 2 ≤ y.cls := hy ▸ hw
  simp [isVectorOrMatrix, hi, hcls]

/-! A word of profile T on a core of profile G: each shared form of such words is one `onT`. -/

section Core
variable {s : State} (h : s.ready) (hc : isT s.cur = false)
include h hc

theorem onT_core (k : State → Out) : onT s k = .next s.illegal := by
  rw [onT, onCore_ready h, hc]; rfl

theorem vectorWord_core (reads dst whole lat f float) : vectorWord s reads dst whole lat f float = .next s.illegal := onT_core h hc _
theorem vecToVec_core (d reads whole lat f float) : vecToVec s d reads whole lat f float = .next s.illegal := vectorWord_core h hc ..
theorem vecToMask_core (d reads lat f float) : vecToMask s d reads lat f float = .next s.illegal := vectorWord_core h hc ..
theorem vecToX_core (d reads whole lat f) : vecToX s d reads whole lat f = .next s.illegal := vectorWord_core h hc ..
theorem intOp_core (d a b k e lat f) : intOp s d a b k e lat f = .next s.illegal := vecToVec_core h hc ..
theorem intOp1_core (d a k e f) : intOp1 s d a k e f = .next s.illegal := vecToVec_core h hc ..
theorem floatOp_core (d a b k e f) : floatOp s d a b k e f = .next s.illegal := vecToVec_core h hc ..
theorem floatOp1_core (d a k e f) : floatOp1 s d a k e f = .next s.illegal := vecToVec_core h hc ..
theorem fusedOp_core (d a b k e p c) : fusedOp s d a b k e p c = .next s.illegal := vecToVec_core h hc ..
theorem mathOp_core (d a k f) : mathOp s d a k f = .next s.illegal := vecToVec_core h hc ..
theorem permute_core (d reads k e f) : permute s d reads k e f = .next s.illegal := vecToVec_core h hc ..
theorem reduction_core (d a k ew n id f float) : reduction s d a k ew n id f float = .next s.illegal := vecToVec_core h hc ..
theorem intCompare_core (d a b k e rel) : intCompare s d a b k e rel = .next s.illegal := vecToMask_core h hc ..
theorem floatCompare_core (d a b k e rel) : floatCompare s d a b k e rel = .next s.illegal := vecToMask_core h hc ..
theorem matrixWord_core (k) : matrixWord s k = .next s.illegal := onT_core h hc _
theorem command_core (i opnd) : command s i opnd = .next s.illegal := matrixWord_core h hc _
theorem gatherWord_core (v reads k d64 addr) : gatherWord s v reads k d64 addr = .next s.illegal := onT_core h hc _
theorem scatterWord_core (v reads k d64 addr) : scatterWord s v reads k d64 addr = .next s.illegal := onT_core h hc _
theorem barrier_core (lv k) : barrier s lv k = .next s.illegal := onT_core h hc _
theorem arrive_core (d lv comm) : arrive s d lv comm = .next s.illegal := barrier_core h hc ..
theorem jnext_core (d a) : jnext s d a = .next s.illegal := onT_core h hc _

/-- On profile G a word of class V or X is ILLEGAL. -/
theorem exec_vector_or_matrix_core {i : Instr} (hi : isVectorOrMatrix i = true) : exec i s = .next s.illegal := by
  cases i with
  | vadd | vsub | vmul | vmulh | vmin | vmax | vminu | vmaxu | vand | vor | vxor | vandn | vsll | vsrl | vsra | vrol | vsadd
    | vssub | vavg => dsimp only [exec]; exact intOp_core h hc ..
  | vabs | vmov => dsimp only [exec]; exact intOp1_core h hc ..
  | vfadd | vfsub | vfmul | vfabd | vfmin | vfmax => dsimp only [exec]; exact floatOp_core h hc ..
  | vfneg | vfabs => dsimp only [exec]; exact floatOp1_core h hc ..
  | vfma | vfms | vfnma | vfnms => dsimp only [exec]; exact fusedOp_core h hc ..
  | vfsqrt | vfrcp | vfrsq | vfexp2 | vflog2 | vftanh | vfsigm => dsimp only [exec]; exact mathOp_core h hc ..
  | vcmpEq | vcmpNe | vcmpLt | vcmpLe => dsimp only [exec]; exact intCompare_core h hc ..
  | vfcmpEq | vfcmpNe | vfcmpLt | vfcmpLe => dsimp only [exec]; exact floatCompare_core h hc ..
  | vperm | vrot | vzip | vunzip => dsimp only [exec]; exact permute_core h hc ..
  | vrsum | vrmax | vrmin | vrfmax | vrfmin | vrfsum => dsimp only [exec]; exact reduction_core h hc ..
  | vfdiv | vsel | vbcast | vins | vslide | vcvt | vpack | vunpk | vlut | vscale | vmovi => dsimp only [exec]; exact vecToVec_core h hc ..
  | kand | kor | kxor | kandn | knot | kset => dsimp only [exec]; exact vecToMask_core h hc ..
  | kpop | kfirst | vext => dsimp only [exec]; exact vecToX_core h hc ..
  | mma | mmasN6 | mmasN8 | mmasN12 | mzero | mdrains | mchainSend | mchainRecv | mchainRelay
    | macc => dsimp only [exec]; exact command_core h hc ..
  | mdrain | mcbk | mrset | mradv | mrstat | mwait | mseq => dsimp only [exec]; exact matrixWord_core h hc ..
  | _ => exact absurd hi Bool.false_ne_true

end Core

section Privilege
variable {s : State} (h : s.ready)
include h

theorem onG_core (hc : isT s.cur = false) (k : State → Out) : onG s k = k s := by
  rw [onG, onCore_ready h, hc]; rfl

theorem onG_strand (ht : isT s.cur = true) (k : State → Out) : onG s k = .next s.illegal := by
  rw [onG, onCore_ready h, ht]; rfl

omit h in
theorem above_user (hu : s.me.priv = .user) (k : State → Out) : above s k = .next s.privTrap := if_pos hu

theorem frameWord_strand (ht : isT s.cur = true) (d go) : frameWord s d go = .next s.illegal := onG_strand h ht _

theorem onG_above_core_user (hc : isT s.cur = false) (hu : s.me.priv = .user) (k : State → State → Out) :
    (onG s fun v => above v (k v)) = .next s.privTrap := by
  rw [onG_core h hc, above_user hu]

theorem frameWord_core_user (hc : isT s.cur = false) (hu : s.me.priv = .user) (d go) : frameWord s d go = .next s.privTrap :=
  onG_above_core_user h hc hu _

theorem exec_eret_user (hu : s.me.priv = .user) : exec .eret s = .next s.privTrap := by
  rw [exec_eret, execEret, onCore_ready h, above_user hu]

theorem exec_halt_core_user (hc : isT s.cur = false) (hu : s.me.priv = .user) : exec .halt s = .next s.privTrap := by
  rw [exec_halt, execHalt, onCore_ready h, hc, if_neg Bool.false_ne_true, above_user hu]

end Privilege

theorem traps_of_eq_illegal {o : Out} {s : State} (h : o = .next s.illegal) : Traps o s 0x01 s.wordTval := h ▸ traps_illegal s
theorem traps_of_eq_privTrap {o : Out} {s : State} (h : o = .next s.privTrap) : Traps o s 0x05 s.wordTval := h ▸ traps_privTrap s

/-- Settles O14: each of the words is `onT`, `onG` or `above` of the profile or privilege that it needs. -/
theorem privilegeAndProfile : Obligations.PrivilegeAndProfile := by
  unfold Obligations.PrivilegeAndProfile
  intro s h
  refine ⟨fun hu => ⟨traps_of_eq_privTrap (exec_eret_user h hu), fun hc => ?_⟩, fun ht d a b sc k poll => ?_,
    fun hc => ⟨fun i w hw hcls => ?_, fun d a k keep x z p o lv sel => ?_⟩⟩
  · have priv {o k} (e : o = onG s fun v => above v (k v)) := traps_of_eq_privTrap (e.trans (onG_above_core_user h hc hu k))
    have frame {o d go} (e : o = frameWord s d go) := traps_of_eq_privTrap (e.trans (frameWord_core_user h hc hu d go))
    exact ⟨traps_of_eq_privTrap (exec_halt_core_user h hc hu), fun d a b =>
      ⟨frame (exec_foffer ..), frame (exec_faccept ..), frame (exec_flend ..), frame (exec_frecall ..), frame (exec_frelease ..),
        priv (exec_fquery ..), fun sc k => priv (exec_tlbi ..)⟩⟩
  · have ill {o k} (e : o = onG s k) := traps_of_eq_illegal (e.trans (onG_strand h ht k))
    have frame {o d go} (e : o = frameWord s d go) := traps_of_eq_illegal (e.trans (frameWord_strand h ht d go))
    exact ⟨frame (exec_foffer ..), frame (exec_faccept ..), frame (exec_flend ..), frame (exec_frecall ..), frame (exec_frelease ..),
      ill (exec_fquery ..), ill (exec_tlbi ..), ill (exec_gdisp ..), ill (exec_gjoin ..)⟩
  · exact traps_of_eq_illegal (exec_vector_or_matrix_core h hc (isVectorOrMatrix_of_encode hw hcls))
  · have ill {o k} (e : o = onT s k) := traps_of_eq_illegal (e.trans (onT_core h hc k))
    have gather {o v reads k d64 addr} (e : o = gatherWord s v reads k d64 addr) := traps_of_eq_illegal (e.trans (gatherWord_core h hc ..))
    have scatter {o v reads k d64 addr} (e : o = scatterWord s v reads k d64 addr) := traps_of_eq_illegal (e.trans (scatterWord_core h hc ..))
    have arrival {o d lv comm} (e : o = arrive s d lv comm) := traps_of_eq_illegal (e.trans (arrive_core h hc ..))
    exact ⟨ill (exec_vld ..), ill (exec_vst ..), gather (exec_vlds ..), scatter (exec_vsts ..), gather (exec_vgth ..), scatter (exec_vsct ..),
      ill (exec_qcfg ..), ill (exec_qget ..), ill (exec_qput ..), ill (exec_qclose ..), ill (exec_qstat ..), ill (exec_beos ..),
      arrival (exec_bar ..), traps_of_eq_illegal ((exec_barw ..).trans (barrier_core h hc ..)), arrival (exec_phase ..),
      ill (exec_couple ..), ill (exec_uncouple ..), ill (exec_inbx ..),
      traps_of_eq_illegal ((exec_jnext ..).trans (jnext_core h hc ..)), ill (exec_larm ..)⟩

end Sys2Proof.Machine
end

section
namespace Sys2Proof.Machine
open Sys2Proof

/-! ## A COUPLE that waits keeps its bundle (R263)

A strand that waits in COUPLE keeps the place and the words of its bundle, with which it goes on when the consist has formed. The cycle
adds this to what the word itself does, and the statement about the step does not say so. -/

/-- Tiles 0 and 1 are a fixed launch's, a domain of two; strand 0 of tile 0 stands at COUPLE with the value 0x200, which names both, and
tile 1 does not wait. The bundle, COUPLE x1 alone and then ADDI x0, x0, 0, stands at the start of the scratchpad. -/
def coupleAlone : State :=
  let d : Word := BitVec.ofNat 64 (16 + 2 * 2 ^ 24 + 2 * 2 ^ 43)
  { State.reset with
    harts := [(0, { pc := BitVec.ofNat 64 aliasBase, priv := .user, x := (Vector.replicate 32 0).set 1 0x200 })]
    tiles := [(0, { dommem := d, launch := some 7, scratch := memWrite [] 0 (leBytes 4 0x74802003 ++ leBytes 4 0x04000000) }),
      (1, { dommem := d + 2 ^ 15 + 2 ^ 34, launch := some 7 })]
    launches := [(7, { ctx := 0, queue := none, record := none, bytes := [0, 8], tiles := [0, 1], size := 2, begun := true })] }

/-- What a strand or core keeps of the bundle in which it waits in COUPLE, after an outcome. -/
def keptAfter (h : Nat) (o : Out) : Option (Word × Nat × Nat) :=
  match o with
  | .next v => (v.hart h).couple
  | _ => none

theorem coupleAlone_mayIssue : (coupleAlone.progress 0).mayIssue 0 := by
  refine ⟨?_, ?_, ?_, ?_, ?_, ?_, fun _ => ⟨rfl, ?_, ?_, ?_⟩⟩ <;> decide +kernel

theorem eq_mk_of_fst_eq {α β : Type} {p : α × β} {a : α} (h : p.1 = a) : p = (a, p.2) := by
  rw [← h]

theorem coupleAlone_fetch :
    ((coupleAlone.progress 0).at 0).fetch 0 = (.ok (0x74802003, 0x04000000), (((coupleAlone.progress 0).at 0).fetch 0).2) :=
  eq_mk_of_fst_eq (by decide +kernel)

/-- Refutes O1: strand 0 of `coupleAlone` waits in its COUPLE. The step leaves the bundle with it, which the word and the end of the
cycle alone would not. -/
theorem not_stepRunsDecodedInstruction : ¬ Obligations.StepRunsDecodedInstruction := by
  unfold Obligations.StepRunsDecodedInstruction
  intro h
  obtain ⟨split, -⟩ := h.1 coupleAlone rfl rfl rfl coupleAlone_mayIssue _ _ _ coupleAlone_fetch
  have runs := split (.couple 1) (.addi 0 0 0) (by decide +kernel) (by decide +kernel) (by decide +kernel)
    ⟨by decide +kernel, by decide +kernel⟩ ⟨by decide +kernel, by decide +kernel⟩
    ⟨by decide +kernel, by decide +kernel, by decide +kernel⟩
  have kept : keptAfter 0 (step coupleAlone) = some (BitVec.ofNat 64 aliasBase, 0x74802003, 0x04000000) := by decide +kernel
  rw [runs] at kept
  exact absurd kept (by decide +kernel)

end Sys2Proof.Machine
end

section
namespace Sys2Proof.Machine
open Sys2Proof

/-! ## Device memory as places (R134, R317) -/

theorem memRd_eq_bytesAt (s : State) (pa n : Nat) : s.memRd pa n = s.bytesAt (.phys pa) n := by
  induction n generalizing pa with
  | zero => rfl
  | succ n ih =>
    rw [State.memRd, ih, State.bytesAt, State.bytesAt, List.range_succ_eq_map, List.map_cons, List.map_map]
    refine congrArg₂ List.cons rfl (List.map_congr_left fun i _ => ?_)
    simp only [State.byteAt, Function.comp_apply]
    congr 1
    omega

theorem memNat_eq_num (s : State) (pa n : Nat) : s.memNat pa n = s.num pa n := congrArg leNat (memRd_eq_bytesAt s pa n)

/-- The bytes at a place are those of a list if each is. -/
theorem bytesAt_phys_eq {s : State} {pa : Nat} {bs : List Byte} (h : ∀ i (hi : i < bs.length), s.memByte (pa + i) = bs[i]) :
    s.bytesAt (.phys pa) bs.length = bs := by
  refine List.ext_getElem (by simp [State.bytesAt]) fun i _ hi => ?_
  simpa [State.bytesAt, State.byteAt] using h i hi

theorem bytesAt_memWr_same {s : State} (h : s.memoriesWf) (pa : Nat) (bs : List Byte) :
    (s.memWr pa bs).bytesAt (.phys pa) bs.length = bs := by
  refine bytesAt_phys_eq fun i hi => ?_
  rw [memByte_memWr_inside h.1 bs (by omega) (by omega)]
  congr 1
  omega

theorem bytesAt_memWr_disjoint {s : State} (h : s.memoriesWf) {pa qa n : Nat} {bs : List Byte} (hd : qa + n ≤ pa ∨ pa + bs.length ≤ qa) :
    (s.memWr pa bs).bytesAt (.phys qa) n = s.bytesAt (.phys qa) n := by
  refine List.map_congr_left fun i hi => ?_
  rw [List.mem_range] at hi
  exact memByte_memWr_outside h.1 bs (by omega)

theorem num_memWr_disjoint {s : State} (h : s.memoriesWf) {pa qa n : Nat} {bs : List Byte} (hd : qa + n ≤ pa ∨ pa + bs.length ≤ qa) :
    (s.memWr pa bs).num qa n = s.num qa n := congrArg leNat (bytesAt_memWr_disjoint h hd)

theorem leNat_leBytes (n v : Nat) : leNat (leBytes n v) = v % 2 ^ (8 * n) := by
  induction n generalizing v with
  | zero => simp [leBytes, leNat, Nat.mod_one]
  | succ n ih =>
    rw [leBytes, leNat, ih, BitVec.toNat_ofNat, Nat.mul_succ, Nat.add_comm (8 * n), Nat.pow_add]
    exact (Nat.mod_mul (x := v) (a := 2 ^ 8) (b := 2 ^ (8 * n))).symm

theorem num_memPut_same {s : State} (h : s.memoriesWf) (pa n v : Nat) : (s.memPut pa n v).num pa n = v % 2 ^ (8 * n) := by
  have e := bytesAt_memWr_same h pa (leBytes n v)
  rw [leBytes_length] at e
  rw [State.num, State.memPut, e, leNat_leBytes]

theorem memoriesWf_memWr {s : State} (h : s.memoriesWf) (pa : Nat) (bs : List Byte) : (s.memWr pa bs).memoriesWf := by
  rw [memWr_rest]
  exact ⟨wf_memWr h.1 pa bs, h.2⟩

/-! ## Accesses of the device itself (R327 to R329) -/

@[simp] theorem requester_memWr (s : State) (pa : Nat) (bs : List Byte) (h : Nat) (p : Priv) :
    (s.memWr pa bs).requester h p = s.requester h p := by
  rw [memWr_rest]; rfl

theorem deviceAt_memWr {s : State} {rq : Requester} {va : Word} {k : AccKind} {n pa : Nat} (h : s.deviceAt rq va k n pa)
    (qa : Nat) (bs : List Byte) : (s.memWr qa bs).deviceAt rq va k n pa := by
  rw [memWr_rest]; exact h

theorem translate_of_deviceAt {s : State} {rq : Requester} {va : Word} {k : AccKind} {n pa : Nat} (h : s.deviceAt rq va k n pa) :
    s.translate rq va k = (.ok pa, s) := by
  obtain ⟨hva, -, -, e, he, hp, hk, rfl⟩ := h
  simp only [State.translate, if_neg (Nat.not_le.mpr hva), he, TlbEntry.use, hp, hk]
  rfl

theorem devicePlace_of_deviceAt {s : State} {rq : Requester} {va : Word} {k : AccKind} {n pa : Nat} (h : s.deviceAt rq va k n pa) :
    s.devicePlace rq va k n = (.ok pa, s) := by
  rw [State.devicePlace, translate_of_deviceAt h]
  obtain ⟨-, ⟨hio, -⟩, hb, -⟩ := h
  simp [hio, hb]

/-- The fault ring whose header lies at hp has a number of slots and a base that R327 admits. -/
def State.ringAt (s : State) (hp : Nat) : Prop := (∃ n, 4 ≤ n ∧ n ≤ 16 ∧ s.num (hp + 8) 4 = 2 ^ n) ∧ s.num hp 8 % 64 = 0

/-- Its next slot. -/
def State.nextSlot (s : State) (hp : Nat) : Word := BitVec.ofNat 64 (s.num hp 8 + s.num (hp + 16) 8 % s.num (hp + 8) 4 * 64)

theorem isPow2_of_eq {n lo hi k : Nat} (h1 : lo ≤ n) (h2 : n ≤ hi) (h : k = 2 ^ n) : isPow2 k lo hi = true := by
  simp only [isPow2, List.any_eq_true, List.mem_range, beq_iff_eq]
  exact ⟨n - lo, by omega, by rw [h]; congr 1; omega⟩

theorem claimSlot_of_ringAt {s : State} {rq : Requester} {fring : Word} {hp : Nat} (h : s.deviceAt rq (fring &&& ~~~63#64) .atomic 64 hp)
    (hr : s.ringAt hp) : s.claimSlot rq fring = (.ok (s.nextSlot hp), s.memPut (hp + 16) 8 (s.num (hp + 16) 8 + 1)) := by
  obtain ⟨⟨n, h1, h2, hn⟩, hb⟩ := hr
  rw [State.claimSlot, devicePlace_of_deviceAt h]
  simp [memNat_eq_num, isPow2_of_eq h1 h2 hn, hb, State.nextSlot]

theorem writeRecord_of_free {s : State} {rq : Requester} {slot : Word} {sp : Nat} (h : s.deviceAt rq slot .atomic 64 sp)
    (hf : s.num (sp + 1) 1 = 0) (rec : List Byte) : s.writeRecord rq slot rec = (.ok slot, s.memWr sp (rec.set 1 1)) := by
  rw [State.writeRecord, devicePlace_of_deviceAt h]
  simp [memNat_eq_num, hf]

/-! ## The handler's frame (R321, R327, R343) -/

/-- The frame at an address has its 16 bytes at place l, which a store reaches. -/
structure State.FrameAt (s : State) (h : Nat) (frame : Word) (l : Loc) : Prop where
  onePage : frame.toNat % 0x10000 + 16 ≤ 0x10000
  sound : s.writeBad l 16 = false
  place : (isT h = true ∧ ∃ off, frame.toNat = aliasBase + off ∧ off + 16 ≤ scratchSize ∧ l = .scratch (tileOf h) off)
    ∨ ((isT h = true → ¬ inAlias frame.toNat ∧ ¬ inWindow frame.toNat)
      ∧ ∃ pa, s.deviceAt (s.requester h .system) frame .store 16 pa ∧ l = .phys pa)

theorem frameAt_memWr {s : State} {h : Nat} {frame : Word} {l : Loc} (f : s.FrameAt h frame l) (pa : Nat) (bs : List Byte) :
    (s.memWr pa bs).FrameAt h frame l := by
  obtain ⟨hone, hsound, hplace⟩ := f
  refine ⟨hone, ?_, ?_⟩
  · rw [memWr_rest]; cases l <;> exact hsound
  · rw [memWr_rest]; exact hplace

/-- Where a tile's own scratchpad stands among its addresses. -/
theorem classify_alias {off : Nat} (h : off + 16 ≤ scratchSize) : classify (aliasBase + off) = .own off := by
  rw [classify, if_pos (by omega), Nat.add_sub_cancel_left]

/-- An address outside the scratchpads' ranges is translated. -/
theorem classify_outside {va : Nat} (h1 : ¬ inAlias va) (h2 : ¬ inWindow va) : classify va = .xlated := by
  rw [classify, if_neg (show ¬ (aliasBase ≤ va ∧ va < aliasBase + scratchSize) from h1), if_neg]
  rintro ⟨hlo, hhi, hoff⟩
  exact h2 ⟨(va - windowBase) / 0x100000, (va - windowBase) % 0x100000, by omega, hoff, by omega⟩

theorem placePart_frame {s : State} {h : Nat} {frame : Word} {l : Loc} (f : s.FrameAt h frame l) (n : Nat) :
    s.placePart (s.requester h .system) (if isT h then some (tileOf h) else none) .store false (frame.toNat, n) = (.ok l, s) := by
  rcases f.place with ⟨hT, off, ha, hoff, rfl⟩ | ⟨hx, pa, hd, rfl⟩
  · simp [State.placePart, hT, ha, classify_alias hoff]
  · have ht := translate_of_deviceAt hd
    obtain ⟨-, ⟨hio, -⟩, -⟩ := hd
    unfold State.placePart
    by_cases hT : isT h = true
    · obtain ⟨h1, h2⟩ := hx hT
      simp [hT, classify_outside h1 h2, ht, hio]
    · simp [hT, ht, hio]

theorem splitPages_one {va n : Nat} (fuel : Nat) (h0 : n ≠ 0) (h : va % 0x10000 + n ≤ 0x10000) : splitPages va (fuel + 1) n = [(va, n)] := by
  rw [splitPages, if_neg h0, if_pos (by omega)]

theorem writeParts_one {s : State} {bs : List Byte} {l : Loc} (hl : ∀ pa, l = .phys pa → physKind pa ≠ .io) :
    s.writeParts bs [(l, bs.length)] = s.storeLoc bs l := by
  cases l with
  | scratch t off => simp [State.writeParts]
  | phys pa => simp [State.writeParts, hl pa rfl]

theorem frameAt_ne_io {s : State} {h : Nat} {frame : Word} {l : Loc} (f : s.FrameAt h frame l) {pa : Nat} (e : l = .phys pa) :
    physKind pa ≠ .io := by
  rcases f.place with ⟨-, off, -, -, rfl⟩ | ⟨-, qa, ⟨-, ⟨hio, -⟩, -⟩, rfl⟩
  · cases e
  · cases e; exact hio

/-- The bytes of a frame: x1 and x2. -/
def Hart.frameBytes (x : Hart) : List Byte := leBytes 8 (x.x[1]).toNat ++ leBytes 8 (x.x[2]).toNat

theorem frameBytes_length (x : Hart) : x.frameBytes.length = 16 := by simp [Hart.frameBytes]

theorem writeFrame_of_frameAt {s : State} {h : Nat} {frame : Word} {l : Loc} (f : s.FrameAt h frame l) :
    s.writeFrame h frame = (none, s.storeLoc (s.hart h).frameBytes l) := by
  have hw := writeParts_one (s := s) (bs := (s.hart h).frameBytes) fun pa => frameAt_ne_io f
  rw [frameBytes_length] at hw
  have hp : s.placeParts (s.requester h .system) (if isT h then some (tileOf h) else none) .store false (splitPages frame.toNat 2 16)
      = (.ok [(l, 16)], s) := by
    rw [splitPages_one 1 (by decide) f.onePage]
    simp [State.placeParts, placePart_frame f]
  rw [State.writeFrame, hp]
  simp only [List.any_cons, List.any_nil, f.sound, Bool.or_false, Bool.false_eq_true, if_false]
  exact congrArg (Prod.mk none) hw


/-! ## A store to a sound place (R134, R380) -/

theorem storeLoc_of_sound {s : State} {bs : List Byte} {l : Loc} (h : s.writeBad l bs.length = false) :
    s.storeLoc bs l = (s.heal l bs.length).writeLoc bs l := by
  have hn : s.mergeBad l bs.length = none := by simpa [State.writeBad] using h
  rw [State.storeLoc, hn]

theorem memoriesWf_heal {s : State} (h : s.memoriesWf) (l : Loc) (n : Nat) : (s.heal l n).memoriesWf := by
  cases l with
  | scratch t off =>
    simp only [State.heal]
    split
    · exact h
    · exact memoriesWf_setTile h t (wf_scratch h t)
  | phys pa => simp only [State.heal]; split <;> exact h

theorem bytesAt_heal (s : State) (l : Loc) (n qa k : Nat) : (s.heal l n).bytesAt (.phys qa) k = s.bytesAt (.phys qa) k := by
  cases l <;> simp only [State.heal] <;> split <;> rfl

theorem bytesAt_scratch (s : State) (t off n : Nat) : s.bytesAt (.scratch t off) n = memRead (s.tile t).scratch off n := by
  induction n generalizing off with
  | zero => rfl
  | succ n ih =>
    rw [memRead, ← ih, State.bytesAt, State.bytesAt, List.range_succ_eq_map, List.map_cons, List.map_map]
    refine congrArg₂ List.cons rfl (List.map_congr_left fun i _ => ?_)
    simp only [State.byteAt, Function.comp_apply]
    congr 1
    omega

theorem bytesAt_writeLoc_same {s : State} (h : s.memoriesWf) (bs : List Byte) (l : Loc) : (s.writeLoc bs l).bytesAt l bs.length = bs := by
  cases l with
  | scratch t off =>
    rw [bytesAt_scratch, State.writeLoc, mapTile_eq, tile_setTile_self]
    exact memRead_memWrite (wf_scratch h t) off bs
  | phys pa => exact bytesAt_memWr_same h pa bs

theorem bytesAt_writeLoc_disjoint {s : State} (h : s.memoriesWf) {bs : List Byte} {l : Loc} {qa n : Nat}
    (hd : ∀ pa, l = .phys pa → qa + n ≤ pa ∨ pa + bs.length ≤ qa) : (s.writeLoc bs l).bytesAt (.phys qa) n = s.bytesAt (.phys qa) n := by
  cases l with
  | scratch t off => rfl
  | phys pa => exact bytesAt_memWr_disjoint h (hd pa rfl)

section Sound
variable {s : State} (h : s.memoriesWf) {bs : List Byte} {l : Loc} (hs : s.writeBad l bs.length = false)
include h hs

theorem bytesAt_storeLoc_same : (s.storeLoc bs l).bytesAt l bs.length = bs := by
  rw [storeLoc_of_sound hs]
  exact bytesAt_writeLoc_same (memoriesWf_heal h _ _) bs l

theorem bytesAt_storeLoc_disjoint {qa n : Nat} (hd : ∀ pa, l = .phys pa → qa + n ≤ pa ∨ pa + bs.length ≤ qa) :
    (s.storeLoc bs l).bytesAt (.phys qa) n = s.bytesAt (.phys qa) n := by
  rw [storeLoc_of_sound hs, bytesAt_writeLoc_disjoint (memoriesWf_heal h _ _) hd, bytesAt_heal]

end Sound

/-! ## A delivery that meets no obstacle (R321, R327 to R329) -/

/-- A strand or core at its handler: x1 and x2 are those of the record and the frame. -/
def Hart.atHandler (x : Hart) (rec frame base : Word) (u : Undelivered) : Hart :=
  { ((x.wx 1 rec).wx 2 frame).goto base 0 with run := .running, undelivered := some u }

/-- The fault-ring header of strand h lies at hp, and gives the frame's address and a slot, which lies at sp and is free. -/
structure State.SlotAt (s : State) (h : Nat) (frame slot : Word) (hp sp : Nat) : Prop where
  frame : frame = BitVec.ofNat 64 (s.num (hp + 24) 8 + (h + 1) * s.num (hp + 32) 4) - 64
  load : s.deviceAt (s.requester h .system) ((s.ctx (s.tile (tileOf h)).ctx).fring &&& ~~~63#64) .load 64 hp
  claim : s.deviceAt (s.requester h .system) ((s.ctx (s.tile (tileOf h)).ctx).fring &&& ~~~63#64) .atomic 64 hp
  ring : s.ringAt hp
  next : slot = s.nextSlot hp
  slot : s.deviceAt (s.requester h .system) slot .atomic 64 sp
  free : s.num (sp + 1) 1 = 0
  apart : sp + 64 ≤ hp ∨ hp + 64 ≤ sp

/-- The state with a slot claimed and the record in it. -/
def State.recorded (s : State) (h hp sp : Nat) (u : Undelivered) : State :=
  (s.memPut (hp + 16) 8 (s.num (hp + 16) 8 + 1)).memWr sp ((s.trapRecord h u).set 1 1)

theorem frameAddr_core {s : State} {h : Nat} (hc : isT h = false) (u : Undelivered) :
    s.frameAddr h u = (.ok (((s.hart h).rx 2 &&& ~~~63#64) - 64), s) := by
  simp [State.frameAddr, hc]

theorem frameAddr_strand {s : State} {h : Nat} {frame slot : Word} {hp sp : Nat} (hT : isT h = true) (q : s.SlotAt h frame slot hp sp)
    {u : Undelivered} (hu : u.tstatus.toNat % 4 = 0) : s.frameAddr h u = (.ok frame, s) := by
  rw [State.frameAddr, devicePlace_of_deviceAt q.load, q.frame]
  simp [hT, hu, memNat_eq_num]

theorem owed_of_still {s : State} {h : Nat} (still : (s.hart h).flight = []) : s.owed h = false := by simp [State.owed, still]

theorem mapHart_of_keeps {s t : State} (q : KeepsHarts s t) (h : Nat) (f : Hart → Hart) : t.mapHart h f = t.setHart h (f (s.hart h)) := by
  rw [mapHart_eq, q.hart]

theorem keepsHarts_storeFrame {s : State} {h : Nat} {frame : Word} {l : Loc} (f : s.FrameAt h frame l) (x : Hart) :
    KeepsHarts s (s.storeLoc x.frameBytes l) := (storeLoc_of_not_bad (by rw [frameBytes_length]; exact f.sound)).1

/-- The record of a trap that names no port (R328), STATE not yet WRITTEN. -/
theorem trapRecord_none (s : State) (h : Nat) {u : Undelivered} (hu : u.port = none) :
    s.trapRecord h u = faultRecord 1 (tileOf h + 512 * (strandOf h).val) (u.tcause.setWidth 8) 0 (u.tseq.toNat % 65536) u.tpc u.tval u.tstatus
      0 [] u.time := by
  rw [State.trapRecord, hu]

theorem trapRecord_length (s : State) (h : Nat) {u : Undelivered} (hu : u.port = none) : (s.trapRecord h u).length = 64 := by
  simp [trapRecord_none s h hu, faultRecord]

section Record
variable {s : State} {h hp sp : Nat} {u : Undelivered} (mem : s.memoriesWf) (hu : u.port = none) (apart : sp + 64 ≤ hp ∨ hp + 64 ≤ sp)

theorem num_memPut_disjoint {s : State} (h : s.memoriesWf) {pa qa n k v : Nat} (hd : qa + n ≤ pa ∨ pa + k ≤ qa) :
    (s.memPut pa k v).num qa n = s.num qa n := num_memWr_disjoint h (by rwa [leBytes_length])

include mem

theorem memoriesWf_recorded : (s.recorded h hp sp u).memoriesWf := memoriesWf_memWr (memoriesWf_memPut mem _ _ _) _ _

include hu

theorem bytesAt_recorded : (s.recorded h hp sp u).bytesAt (.phys sp) 64 = (s.trapRecord h u).set 1 1 := by
  have e := bytesAt_memWr_same (memoriesWf_memPut mem (hp + 16) 8 (s.num (hp + 16) 8 + 1)) sp ((s.trapRecord h u).set 1 1)
  rwa [List.length_set, trapRecord_length s h hu] at e

include apart

theorem num_recorded_tail : (s.recorded h hp sp u).num (hp + 16) 8 = (s.num (hp + 16) 8 + 1) % 2 ^ 64 := by
  rw [State.recorded, num_memWr_disjoint (memoriesWf_memPut mem _ _ _), num_memPut_same mem]
  rw [List.length_set, trapRecord_length s h hu]
  omega

end Record

section Deliver
variable {s : State} {h : Nat} {frame : Word} {l : Loc} (still : (s.hart h).flight = []) (base : s.tvecOf h &&& 0x0000FFFFFFFFFFF8 ≠ 0)
include still base

theorem deliver_core (hc : isT h = false) (f : s.FrameAt h (((s.hart h).rx 2 &&& ~~~63#64) - 64) l) (u : Undelivered) :
    ∃ u', s.deliver h u = (s.storeLoc (s.hart h).frameBytes l).setHart h
      ((s.hart h).atHandler 0 (((s.hart h).rx 2 &&& ~~~63#64) - 64) (s.tvecOf h &&& 0x0000FFFFFFFFFFF8) u') := by
  refine ⟨{ u with slot := some 0 }, ?_⟩
  simp only [State.deliver, owed_of_still still, Bool.false_eq_true, if_false, if_neg base, frameAddr_core hc, hc, Bool.not_false, if_true,
    writeFrame_of_frameAt f]
  exact mapHart_of_keeps (keepsHarts_storeFrame f _) h _

theorem deliver_strand (mem : s.memoriesWf) (hT : isT h = true) (f : s.FrameAt h frame l) {slot : Word} {hp sp : Nat}
    (q : s.SlotAt h frame slot hp sp) {u : Undelivered} (hu : u.tstatus.toNat % 4 = 0) (hs : u.slot = none) (hport : u.port = none) :
    ∃ u', s.deliver h u = ((s.recorded h hp sp u).storeLoc (s.hart h).frameBytes l).setHart h
      ((s.hart h).atHandler slot frame (s.tvecOf h &&& 0x0000FFFFFFFFFFF8) u') := by
  have hrec : KeepsHarts s (s.recorded h hp sp u) := (keepsHarts_memWr s _ _).trans (keepsHarts_memWr _ _ _)
  have f' : (s.recorded h hp sp u).FrameAt h frame l := frameAt_memWr (frameAt_memWr f _ _) _ _
  -- what the claim of the slot leaves as it was
  have hreq : (s.memPut (hp + 16) 8 (s.num (hp + 16) 8 + 1)).requester h .system = s.requester h .system := requester_memWr ..
  have htr : (s.memPut (hp + 16) 8 (s.num (hp + 16) 8 + 1)).trapRecord h { u with slot := some slot } = s.trapRecord h u := by
    simp only [State.trapRecord, hport]
  have hfree : (s.memPut (hp + 16) 8 (s.num (hp + 16) 8 + 1)).num (sp + 1) 1 = 0 := by
    rw [num_memPut_disjoint mem (by have := q.apart; omega), q.free]
  have hw : (s.memPut (hp + 16) 8 (s.num (hp + 16) 8 + 1)).writeRecord (s.requester h .system) slot (s.trapRecord h u)
      = (.ok slot, s.recorded h hp sp u) := writeRecord_of_free (deviceAt_memWr q.slot _ _) hfree _
  refine ⟨{ u with slot := some slot }, ?_⟩
  simp only [State.deliver, owed_of_still still, Bool.false_eq_true, if_false, if_neg base, frameAddr_strand hT q hu, hT, Bool.not_true, hs,
    claimSlot_of_ringAt q.claim q.ring, ← q.next, hreq, htr, hw, writeFrame_of_frameAt f', hrec.hart]
  exact mapHart_of_keeps (hrec.trans (keepsHarts_storeFrame f' _)) h _

end Deliver

/-! ## An entry with nothing in flight (R61, R321) -/

theorem landDue_still {s : State} {h : Nat} (still : (s.hart h).flight = []) (due : InFlight → Bool) : s.landDue h due = s := by
  simp [State.landDue, still]

/-- With nothing in flight step 1 of an entry changes the pipe shadow and the vector queue at most. -/
theorem drainFlight_still {s : State} {h : Nat} (still : (s.hart h).flight = []) :
    ∃ shadow vq, s.drainFlight h = s.setHart h { s.hart h with shadow := shadow, flight := [], vq := vq } := by
  unfold State.drainFlight
  simp only [landDue_still still, mapHart_eq]
  split
  · exact ⟨_, (s.hart h).vq, by rw [still]; rfl⟩
  · exact ⟨(s.hart h).shadow, [], by rw [← still]⟩

/-- x once its results have been drained, and an entry has ended its waits and written its registers. -/
def Hart.entered (x : Hart) (u : Undelivered) : Hart := x.unwaiting.writeEntry u

/-- At USER an entry with nothing in flight writes its registers and goes to its delivery. -/
theorem enter_still {s : State} {h : Nat} (user : (s.hart h).priv = .user) (still : (s.hart h).flight = []) (cpy : (s.hart h).cpygo = none)
    (e : Entry) : ∃ z : Hart, z.x = (s.hart h).x ∧ z.tvec = (s.hart h).tvec ∧ z.flight = [] ∧ z.priv = .user ∧
      s.enter h e = (s.setHart h (z.entered (entryRegs z e s.dtime))).deliver h (entryRegs z e s.dtime) := by
  obtain ⟨shadow, vq, hd⟩ := drainFlight_still still
  have hdrop : s.dropUnhanded h = s := by simp [State.dropUnhanded, cpy]
  refine ⟨{ s.hart h with shadow := shadow, flight := [], vq := vq }, rfl, rfl, rfl, user, ?_⟩
  rw [enter_eq]
  simp only [hdrop, hd, hart_setHart_self, user, ne_eq, not_true_eq_false, false_and, if_false, setHart_setHart]
  rfl

theorem entryRegs_user {z : Hart} (user : z.priv = .user) (e : Entry) (now : Nat) : (entryRegs z e now).tstatus.toNat % 4 = 0 := by
  obtain ⟨n, -, hn⟩ := entryRegs_tstatus z e now
  have h0 : z.priv.code = 0 := by rw [user]; rfl
  omega

/-! ## The record of a trap (R328) -/

theorem leBytes_mod (n v : Nat) : leBytes n (v % 2 ^ (8 * n)) = leBytes n v := by
  induction n generalizing v with
  | zero => rfl
  | succ n ih =>
    have h8 : 2 ^ (8 * (n + 1)) = 256 * 2 ^ (8 * n) := by rw [Nat.mul_succ, Nat.pow_add, Nat.mul_comm]
    rw [leBytes, leBytes, h8, Nat.mod_mul_right_div_self, ih]
    congr 1
    apply BitVec.eq_of_toNat_eq
    rw [BitVec.toNat_ofNat, BitVec.toNat_ofNat]
    exact Nat.mod_mul_right_mod v 256 _

theorem recordBytes_written (s : State) (h : Nat) {u : Undelivered} (hu : u.port = none) :
    (s.trapRecord h u).set 1 1 = leBytes 1 1 ++ leBytes 1 1 ++ leBytes 2 (h / 4 + 512 * (h % 4)) ++ leBytes 1 u.tcause.toNat ++ leBytes 1 0
      ++ leBytes 2 u.tseq.toNat ++ leBytes 8 u.tpc.toNat ++ leBytes 8 u.tval.toNat ++ leBytes 8 u.tstatus.toNat ++ leBytes 24 0
      ++ leBytes 8 u.time := by
  have hc : leBytes 1 (u.tcause.setWidth 8).toNat = leBytes 1 u.tcause.toNat := by
    rw [BitVec.toNat_setWidth]; exact leBytes_mod 1 _
  have hs : leBytes 2 (u.tseq.toNat % 65536) = leBytes 2 u.tseq.toNat := leBytes_mod 2 _
  have hz : leBytes 24 0 = leBytes 8 0 ++ leBytes 4 0 ++ leBytes 4 0 ++ leBytes 4 0 ++ leBytes 4 0 := rfl
  rw [trapRecord_none s h hu, faultRecord, hc, hs, hz]
  simp only [List.append_assoc]
  rfl

/-! ## A trap that is delivered at once -/

theorem atHandler_x (x : Hart) (rec frame base : Word) (u : Undelivered) : (x.atHandler rec frame base u).x = (x.x.set 1 rec).set 2 frame := rfl

theorem frameBytes_congr {x y : Hart} (h : x.x = y.x) : x.frameBytes = y.frameBytes := by rw [Hart.frameBytes, h]; rfl

/-- A precise trap outside a consist is the entry of its strand or core alone. -/
theorem trap_eq_enter {s : State} (hc : isT s.cur = true → s.myTile.csize ≤ 1) (cause : Cause) (tval : Word) :
    s.trap cause tval = (s.trapping cause tval none).enter s.cur { code := cause, tval := tval } := by
  rw [State.trap, trapPort_eq, State.takeEntry]
  simp only [Bool.and_false, Bool.false_eq_true, if_false]
  rw [if_neg]
  rintro ⟨hT, hsize, -⟩
  exact absurd (hc hT) (Nat.not_le.mpr hsize)

theorem frameAt_of_delivers {s : State} {h : Nat} {frame : Word} {l : Loc} {slot : Word} {hp sp : Nat} (d : s.Delivers h frame l slot hp sp) :
    s.FrameAt h frame l := by
  obtain ⟨h1, h2, h3⟩ := d.place
  refine ⟨h1, h2, h3.imp_right fun ⟨hx, pa, hd, hl, _⟩ => ⟨hx, pa, hd, hl⟩⟩

theorem slotAt_of_delivers {s : State} {h : Nat} {frame : Word} {l : Loc} {slot : Word} {hp sp : Nat} (d : s.Delivers h frame l slot hp sp)
    (hT : isT h = true) : s.SlotAt h frame slot hp sp := by
  obtain ⟨h1, h2, h3, h4, h5, h6, h7, h8, h9⟩ := d.strand hT
  exact ⟨h1, h2, h3, ⟨h4, h5⟩, h6, h7, h8, h9⟩

/-- A frame in device memory lies beside the fault-ring header and the slot. -/
theorem frame_apart {s : State} {h : Nat} {frame : Word} {l : Loc} {slot : Word} {hp sp : Nat} (d : s.Delivers h frame l slot hp sp) {pa : Nat}
    (hl : l = .phys pa) : (pa + 16 ≤ hp ∨ hp + 64 ≤ pa) ∧ (pa + 16 ≤ sp ∨ sp + 64 ≤ pa) := by
  obtain ⟨-, -, ⟨-, off, -, -, rfl⟩ | ⟨-, qa, -, rfl, h1, h2⟩⟩ := d.place
  · cases hl
  · cases hl; exact ⟨h1, h2⟩


/-- s with the strand or core h, and the word at hand, as an entry leaves them before its delivery. -/
def State.entering (s : State) (h : Nat) (y : Hart) (i : Issue) : State := { s.setHart h y with issue := i }

section Entering
variable (s : State) (h : Nat) (y : Hart) (i : Issue)

@[simp] theorem hart_entering : (s.entering h y i).hart h = y := hart_setHart_self s h y
theorem num_entering (pa n : Nat) : (s.entering h y i).num pa n = s.num pa n := rfl
theorem memoriesWf_entering {s : State} (mem : s.memoriesWf) : (s.entering h y i).memoriesWf := mem
theorem tvecOf_entering {y : Hart} (hy : y.tvec = (s.hart h).tvec) : (s.entering h y i).tvecOf h = s.tvecOf h := tvecOf_setHart s h hy

theorem frameAt_entering {s : State} {frame : Word} {l : Loc} (f : s.FrameAt h frame l) : (s.entering h y i).FrameAt h frame l := by
  obtain ⟨h1, h2, h3⟩ := f
  exact ⟨h1, h2, h3⟩

theorem slotAt_entering {s : State} {frame slot : Word} {hp sp : Nat} (q : s.SlotAt h frame slot hp sp) :
    (s.entering h y i).SlotAt h frame slot hp sp := by
  obtain ⟨h1, h2, h3, h4, h5, h6, h7, h8⟩ := q
  exact ⟨h1, h2, h3, h4, h5, h6, h7, h8⟩

end Entering

/-- y is o after it has written the registers u of an entry from USER with nothing in flight. -/
structure Hart.Wrote (o y : Hart) (u : Undelivered) (now : Nat) : Prop where
  x : y.x = o.x
  tvec : y.tvec = o.tvec
  still : y.flight = []
  tcause : y.tcause = u.tcause
  tval : y.tval = u.tval
  tpc : y.tpc = u.tpc
  tseq : y.tseq = u.tseq
  tstatus : y.tstatus = u.tstatus
  time : u.time = now
  user : u.tstatus.toNat % 4 = 0
  port : u.port = none
  slot : u.slot = none

theorem wrote_entered {o z : Hart} {e : Entry} {now : Nat} (hx : z.x = o.x) (ht : z.tvec = o.tvec) (still : z.flight = []) (user : z.priv = .user)
    (hp : e.port = none) : o.Wrote (z.entered (entryRegs z e now)) (entryRegs z e now) now where
  x := hx
  tvec := ht
  still := still
  tcause := rfl
  tval := rfl
  tpc := rfl
  tseq := rfl
  tstatus := rfl
  time := rfl
  user := entryRegs_user user e now
  port := hp
  slot := rfl

/-- The frame's store leaves the strand or core at its handler, with the old x1 and x2 in the frame. -/
theorem delivered_of_stored {s w : State} {h : Nat} {y : Hart} {u u' : Undelivered} {frame : Word} {l : Loc} {slot : Word} {hp sp : Nat}
    (p : (s.hart h).Wrote y u s.dtime) (mem : w.memoriesWf) (sound : w.writeBad l 16 = false)
    {rec : Word} (hrec : rec = if isT h = true then slot else 0)
    (record : isT h = true → (∀ pa, l = .phys pa → (pa + 16 ≤ hp ∨ hp + 64 ≤ pa) ∧ (pa + 16 ≤ sp ∨ sp + 64 ≤ pa))
      ∧ w.num (hp + 16) 8 = (s.num (hp + 16) 8 + 1) % 2 ^ 64 ∧ w.bytesAt (.phys sp) 64 = (s.trapRecord h u).set 1 1)
    {t : State} (ht : t = (w.storeLoc y.frameBytes l).setHart h (y.atHandler rec frame (s.tvecOf h &&& 0x0000FFFFFFFFFFF8) u')) :
    s.Delivered t h (t.hart h) frame l slot hp sp := by
  subst ht
  rw [← frameBytes_length y] at sound
  have same := bytesAt_storeLoc_same mem sound
  have beside {qa n : Nat} (hd : ∀ pa, l = .phys pa → qa + n ≤ pa ∨ pa + 16 ≤ qa) :
      ((w.storeLoc y.frameBytes l).setHart h (y.atHandler rec frame (s.tvecOf h &&& 0x0000FFFFFFFFFFF8) u')).bytesAt (.phys qa) n
        = w.bytesAt (.phys qa) n :=
    bytesAt_storeLoc_disjoint mem sound (by rw [frameBytes_length]; exact hd)
  rw [hart_setHart_self]
  refine ⟨⟨rfl, rfl, rfl⟩, by rw [atHandler_x, p.x, hrec], ?_, fun hT => ?_⟩
  · rw [frameBytes_length] at same
    exact same.trans (frameBytes_congr p.x)
  · obtain ⟨apart, tail, bytes⟩ := record hT
    refine ⟨?_, ?_⟩
    · rw [← tail]
      exact congrArg leNat (beside fun pa hl => by have := (apart pa hl).1; omega)
    · rw [beside fun pa hl => by have := (apart pa hl).2; omega, bytes, recordBytes_written s h p.port, p.time, ← p.tcause, ← p.tseq, ← p.tpc,
        ← p.tval, ← p.tstatus]
      rfl

/-- The delivery of an entry whose places are there. -/
theorem delivered_deliver {s : State} {h : Nat} {y : Hart} {i : Issue} {u : Undelivered} {frame : Word} {l : Loc} {slot : Word} {hp sp : Nat}
    (d : s.Delivers h frame l slot hp sp) (p : (s.hart h).Wrote y u s.dtime) :
    s.Delivered ((s.entering h y i).deliver h u) h (((s.entering h y i).deliver h u).hart h) frame l slot hp sp := by
  have htvec := tvecOf_entering s h i p.tvec
  have mem := memoriesWf_entering h y i d.memories
  have f := frameAt_entering h y i (frameAt_of_delivers d)
  have still : ((s.entering h y i).hart h).flight = [] := by rw [hart_entering]; exact p.still
  have base : (s.entering h y i).tvecOf h &&& 0x0000FFFFFFFFFFF8 ≠ 0 := by rw [htvec]; exact d.vector
  by_cases hT : isT h = true
  · have q := slotAt_entering h y i (slotAt_of_delivers d hT)
    obtain ⟨u', e⟩ := deliver_strand still base mem hT f q p.user p.slot p.port
    rw [hart_entering, htvec] at e
    refine delivered_of_stored p (memoriesWf_recorded mem) (frameAt_memWr (frameAt_memWr f _ _) _ _).sound (if_pos hT).symm
      (fun _ => ⟨fun pa hl => frame_apart d hl, num_recorded_tail mem p.port q.apart, ?_⟩) e
    rw [bytesAt_recorded mem p.port, trapRecord_none _ h p.port, trapRecord_none _ h p.port]
  · have hc : isT h = false := by simpa using hT
    have hframe : (((s.entering h y i).hart h).rx 2 &&& ~~~63#64) - 64 = frame := by
      rw [d.core hc, hart_entering, Hart.rx, Hart.rx, p.x]
    obtain ⟨u', e⟩ := deliver_core still base hc (hframe.symm ▸ f) u
    rw [hframe, hart_entering, htvec] at e
    exact delivered_of_stored p mem f.sound (if_neg hT).symm (fun h => absurd h hT) e

/-- A trap of the word at hand from USER whose places are there is delivered. -/
theorem delivered_trap {s : State} {frame : Word} {l : Loc} {slot : Word} {hp sp : Nat} (d : s.Delivers s.cur frame l slot hp sp)
    (hc : isT s.cur = true → s.myTile.csize ≤ 1) (cause : Cause) (tval : Word) :
    s.Delivered (s.trap cause tval) s.cur ((s.trap cause tval).hart s.cur) frame l slot hp sp := by
  have hme := hart_trapping_self s cause tval none
  obtain ⟨z, zx, ztvec, zflight, zpriv, e⟩ := enter_still (s := s.trapping cause tval none) (h := s.cur) (by rw [hme]; exact d.user)
    (by rw [hme]; exact d.still.1) (by rw [hme]; exact d.still.2) { code := cause, tval := tval }
  rw [hme] at zx ztvec
  have hs (y : Hart) : (s.trapping cause tval none).setHart s.cur y = s.entering s.cur y (s.trapping cause tval none).issue := by
    simp only [State.trapping, State.entering, ← setHart_setHart s s.cur { s.hart s.cur with w1 := s.issue.w1 && !s.issue.paired } y]
    rfl
  rw [trap_eq_enter hc, e, hs]
  exact delivered_deliver d (wrote_entered zx ztvec zflight zpriv rfl)


/-! ## The registers that an entry keeps (R321) -/

/-- The three ends of a delivery: h is frozen, it waits, or it stands at its handler (R321, R329, R330). -/
inductive DeliverEnds (s : State) (h : Nat) : State → Prop
  | freezes {t : State} (q : Rings s t) (d : Delivery) (cause stop : Cause) (u : Undelivered) : DeliverEnds s h (t.freeze h d cause stop u)
  | waits {t : State} (q : KeepsHarts s t) (u : Undelivered) :
      DeliverEnds s h (t.setHart h { s.hart h with run := .delivering, undelivered := some u })
  | runs {t : State} (q : KeepsHarts s t) (rec frame base : Word) (u : Undelivered) :
      DeliverEnds s h (t.setHart h ((s.hart h).atHandler rec frame base u))

theorem deliverEnds_deliver (s : State) (h : Nat) (u : Undelivered) : DeliverEnds s h (s.deliver h u) := by
  unfold State.deliver
  extract_lets cause base
  split
  · exact .waits (KeepsHarts.refl s) u
  split
  · exact .freezes (Rings.refl s) ..
  split
  · next e =>
    obtain ⟨_, ⟨⟩, -⟩ | ⟨_, -, r⟩ := frameAddr_cases e
    exact .freezes r ..
  next frame s1 e1 =>
  obtain ⟨_, -, q1⟩ | ⟨_, ⟨⟩, -⟩ := frameAddr_cases e1
  split
  next cl s2 e2 =>
  -- a core's record has no slot, and an entry that has waited keeps the slot that it has claimed
  have claim : (∃ v, cl = .ok v ∧ KeepsHarts s1 s2) ∨ (∃ c, cl = .fail c ∧ Rings s1 s2) := by
    split at e2
    · cases e2; exact .inl ⟨_, rfl, KeepsHarts.refl s1⟩
    · split at e2
      · cases e2; exact .inl ⟨_, rfl, KeepsHarts.refl s1⟩
      · exact claimSlot_cases e2
  clear e2
  split
  · obtain ⟨_, ⟨⟩, -⟩ | ⟨_, -, r2⟩ := claim
    exact .freezes (q1.rings.trans r2) ..
  · obtain ⟨_, ⟨⟩, -⟩ | ⟨_, ⟨⟩, -⟩ := claim
  next slot =>
  obtain ⟨_, -, q2⟩ | ⟨_, ⟨⟩, -⟩ := claim
  have q12 := q1.trans q2
  extract_lets u'
  split
  next w s3 e3 =>
  have record : (∃ v, w = .ok v ∧ KeepsHarts s2 s3) ∨ (w = .wait ∧ KeepsHarts s2 s3) ∨ (∃ c, w = .fail c ∧ Rings s2 s3) := by
    split at e3
    · cases e3; exact .inl ⟨_, rfl, KeepsHarts.refl s2⟩
    · exact writeRecord_cases e3
  clear e3
  split
  · obtain ⟨_, ⟨⟩, -⟩ | ⟨⟨⟩, -⟩ | ⟨_, -, r3⟩ := record
    exact .freezes (q12.rings.trans r3) ..
  · obtain ⟨_, ⟨⟩, -⟩ | ⟨-, q3⟩ | ⟨_, ⟨⟩, -⟩ := record
    rw [mapHart_of_keeps (q12.trans q3)]
    exact .waits (q12.trans q3) _
  · obtain ⟨_, -, q3⟩ | ⟨⟨⟩, -⟩ | ⟨_, ⟨⟩, -⟩ := record
    have q123 := q12.trans q3
    split
    · next e4 =>
      obtain ⟨⟨⟩, -⟩ | ⟨_, -, r4⟩ := writeFrame_cases e4
      exact .freezes (q123.rings.trans r4) ..
    · next e4 =>
      obtain ⟨-, q4⟩ | ⟨_, ⟨⟩, -⟩ := writeFrame_cases e4
      rw [mapHart_of_keeps (q123.trans q4)]
      exact .runs (q123.trans q4) ..

/-- The register files but x, the loop levels of USER, and the floating-point registers. -/
def Hart.file (o : Hart) : Vector VWord 24 × Vector Word 8 × Vector PortCtx 8 × List LoopLevel × BitVec 5 × BitVec 2 × BitVec 5 :=
  (o.v, o.k, o.ports, o.loopsU, o.fflags, o.frm, o.ftrap)

/-- y has the registers of o but for x1 and x2. -/
structure Hart.SameFile (o y : Hart) : Prop where
  x : ∀ r : XReg, r ≠ 1 → r ≠ 2 → y.x[r] = o.x[r]
  file : y.file = o.file

theorem Hart.SameFile.of_eq {o y : Hart} (hx : y.x = o.x) (hf : y.file = o.file) : o.SameFile y := ⟨fun _ _ _ => by rw [hx], hf⟩

theorem Hart.SameFile.trans {x y z : Hart} (a : x.SameFile y) (b : y.SameFile z) : x.SameFile z :=
  ⟨fun r h1 h2 => (b.x r h1 h2).trans (a.x r h1 h2), b.file.trans a.file⟩

theorem Hart.Rung.sameFile {x y : Hart} (r : x.Rung y) : x.SameFile y := by
  obtain ⟨_, _, rfl⟩ := r
  exact .of_eq rfl rfl

theorem sameFile_atHandler (o : Hart) (rec frame base : Word) (u : Undelivered) : o.SameFile (o.atHandler rec frame base u) where
  x := fun r h1 h2 => (getElem_set_other (o.x.set 1 rec) (r := 2) frame h2).trans (getElem_set_other o.x (r := 1) rec h1)
  file := rfl

theorem sameFile_freeze (s : State) (h : Nat) (d : Delivery) (cause stop : Cause) (u : Undelivered) :
    (s.hart h).SameFile ((s.freeze h d cause stop u).hart h) := by
  have mine (f : Hart → Hart) (hf : (s.hart h).SameFile (f (s.hart h))) : (s.hart h).SameFile ((s.mapHart h f).hart h) := by
    rw [mapHart_eq, hart_setHart_self]; exact hf
  unfold State.freeze
  simp only
  split
  · exact (mine _ (.of_eq rfl rfl)).trans ((rings_mgmtEvent _ _ _ _ _ _ _).harts h).sameFile
  · exact mine _ (.of_eq rfl rfl)

theorem sameFile_deliver (s : State) (h : Nat) (u : Undelivered) : (s.hart h).SameFile ((s.deliver h u).hart h) := by
  have ends := deliverEnds_deliver s h u
  generalize s.deliver h u = t at ends ⊢
  cases ends with
  | freezes q d cause stop u => exact (q.harts h).sameFile.trans (sameFile_freeze _ h d cause stop u)
  | waits q u => rw [hart_setHart_self]; exact .of_eq rfl rfl
  | runs q rec frame base u => rw [hart_setHart_self]; exact sameFile_atHandler _ rec frame base u

/-- What follows a change of h alone that keeps its registers. -/
theorem Hart.SameFile.after_setHart {o y : Hart} (a : o.SameFile y) {v t : State} {h : Nat}
    (b : ((v.setHart h y).hart h).SameFile (t.hart h)) : o.SameFile (t.hart h) := by
  rw [hart_setHart_self] at b
  exact a.trans b

/-- With nothing in flight an entry keeps the registers of its strand or core. -/
theorem sameFile_enter {s : State} {h : Nat} (still : (s.hart h).flight = []) (e : Entry) : (s.hart h).SameFile ((s.enter h e).hart h) := by
  have hdrop : (s.dropUnhanded h).hart h = s.hart h := by unfold State.dropUnhanded; split <;> rfl
  obtain ⟨shadow, vq, hd⟩ := drainFlight_still (s := s.dropUnhanded h) (h := h) (by rw [hdrop]; exact still)
  rw [hdrop] at hd
  rw [enter_eq]
  simp only [hd, hart_setHart_self, setHart_setHart]
  set z : Hart := { s.hart h with shadow := shadow, flight := [], vq := vq } with hz
  have drained : (s.hart h).SameFile z.unwaiting := .of_eq rfl rfl
  have entered (u : Undelivered) : (s.hart h).SameFile (z.unwaiting.writeEntry u) := .of_eq rfl rfl
  split
  · exact drained.after_setHart (sameFile_freeze _ h _ _ _ _)
  · exact (entered _).after_setHart (sameFile_deliver _ h _)

/-- Marking a consist changes no register, and nothing of what is in flight. -/
theorem sameFile_markRest (s : State) (t h : Nat) :
    (s.hart h).SameFile ((s.markRest t).hart h) ∧ ((s.markRest t).hart h).flight = (s.hart h).flight := by
  unfold State.markRest
  extract_lets ms low wait
  split
  · exact ⟨.of_eq rfl rfl, rfl⟩
  · refine foldl_rel (R := fun v w => (v.hart h).SameFile (w.hart h) ∧ (w.hart h).flight = (v.hart h).flight)
      (fun v => ⟨.of_eq rfl rfl, rfl⟩) (fun ⟨a, b⟩ ⟨c, d⟩ => ⟨a.trans c, d.trans b⟩) (fun v m _ => ?_) s
    rw [mapHart_eq]
    by_cases hm : h = 4 * m
    · subst hm; rw [hart_setHart_self]; exact ⟨.of_eq rfl rfl, rfl⟩
    · rw [hart_setHart_other _ _ hm]; exact ⟨.of_eq rfl rfl, rfl⟩

theorem sameFile_takeEntry {s : State} {h : Nat} (still : (s.hart h).flight = []) {e : Entry} (he : e.replay = false) :
    (s.hart h).SameFile ((s.takeEntry h e).hart h) := by
  unfold State.takeEntry
  simp only [he, Bool.and_false, Bool.false_eq_true, if_false]
  split
  · obtain ⟨a, hf⟩ := sameFile_markRest s (tileOf h) h
    have b := sameFile_enter (s := s.markRest (tileOf h)) (hf.trans still) e
    exact (a.trans b).trans (stopMates_rung _ rfl).2.sameFile
  · exact sameFile_enter still e

/-- With nothing in flight a trap of the word at hand keeps the registers. -/
theorem sameFile_trap {s : State} (still : s.me.flight = []) (cause : Cause) (tval : Word) :
    s.me.SameFile ((s.trap cause tval).hart s.cur) := by
  have hme := hart_trapping_self s cause tval none
  have a : s.me.SameFile ((s.trapping cause tval none).hart s.cur) := by rw [hme]; exact .of_eq rfl rfl
  exact a.trans (sameFile_takeEntry (by rw [hme]; exact still) rfl)

/-! ## TRAP, BRK and JALR (R121, R127) -/

theorem exec_trap_ready {s : State} (h : s.ready) (a : XReg) : exec (.trap a) s = .next (s.trap cTRAPINS (s.rx a)) :=
  (exec_trap a s).trans (onCore_ready h _)

theorem exec_brk_ready {s : State} (h : s.ready) : exec .brk s = .next (s.trap cBREAK 0) := (exec_brk s).trans (onCore_ready h _)

theorem exec_jalr_misaligned {s : State} (h : s.ready) (d a : XReg) (i : BitVec 13) (alone : s.issue.fwd = none)
    (mis : (s.rx a + BitVec.ofInt 64 i.toInt).toNat % 8 ≠ 0) :
    exec (.jalr d a i) s = .next (s.trap cALIGN (s.rx a + BitVec.ofInt 64 i.toInt)) := by
  have hmis : (s.rx a + BitVec.ofInt 64 i.toInt) % 8 ≠ 0 := fun e => mis ((BitVec.toNat_umod ..).symm.trans (congrArg BitVec.toNat e))
  have hf : s.follows = false := by rw [State.follows, alone]; rfl
  rw [exec_jalr, execJalr, onCore_ready h]
  exact if_pos ⟨hmis, hf⟩

/-- Settles O13: each of the three words is a trap of the word at hand, which keeps the registers, and which is delivered where the places
of its entry are there. -/
theorem trapWords : Obligations.TrapWords := by
  unfold Obligations.TrapWords
  intro s h a d keeps delivers
  have trapsAt {o : Out} {cause : Cause} {tval : Word} (e : o = .next (s.trap cause tval)) : Traps o s cause tval :=
    e ▸ trapsAt_trapPort s cause tval none
  have keep {o : Out} {cause : Cause} {tval : Word} (e : o = .next (s.trap cause tval)) : keeps o := fun still => by
    obtain ⟨hx, hf⟩ := sameFile_trap still cause tval
    simp only [Hart.file, Prod.mk.injEq] at hf
    exact ⟨_, e, hx, hf⟩
  have delivered {o : Out} {cause : Cause} {tval : Word} (e : o = .next (s.trap cause tval)) : delivers o :=
    fun frame l slot hp sp hd hc => ⟨_, e, delivered_trap hd hc cause tval⟩
  have htrap := exec_trap_ready h a
  have hbrk := exec_brk_ready h
  refine ⟨trapsAt htrap, trapsAt hbrk, delivered htrap, delivered hbrk, keep htrap, keep hbrk, fun i alone mis => ?_⟩
  have hjalr := exec_jalr_misaligned h d a i alone mis
  exact ⟨trapsAt hjalr, keep hjalr, delivered hjalr⟩

end Sys2Proof.Machine
end

section
namespace Sys2Proof.Machine
open Sys2Proof

/-! ## Rounding onto the integers (R96) -/

/-- q is the magnitude y rounded to an integer under a mode; neg is the sign of the number. -/
structure RoundedNat (mode : Rm) (neg : Bool) (y : ℚ) (q : Nat) : Prop where
  near : |y - q| < 1
  rne : mode = .rne → |y - q| ≤ 1 / 2 ∧ (|y - q| = 1 / 2 → 2 ∣ q)
  below : mode = .rtz ∨ mode = (if neg then .rup else .rdn) → (q : ℚ) ≤ y
  above : mode = (if neg then .rdn else .rup) → y ≤ q

theorem roundedNat_self (mode : Rm) (neg : Bool) (n : Nat) : RoundedNat mode neg n n := by
  constructor <;> simp

/-- A choice between q and the next integer that the mode allows is the rounded value of q + t. -/
theorem roundedNat_of_choice {mode : Rm} {neg : Bool} {q : Nat} {t : ℚ} (ht0 : 0 ≤ t) (ht1 : t < 1) {up : Bool}
    (pos : up = true → 0 < t)
    (rne : mode = .rne → (up = true → 1 / 2 ≤ t ∧ (t = 1 / 2 → ¬ 2 ∣ q)) ∧ (up = false → t ≤ 1 / 2 ∧ (t = 1 / 2 → 2 ∣ q)))
    (below : mode = .rtz ∨ mode = (if neg then .rup else .rdn) → up = false)
    (above : mode = (if neg then .rdn else .rup) → up = false → t = 0) : RoundedNat mode neg (q + t) (q + up.toNat : Nat) := by
  cases up with
  | false =>
    have hd : (q : ℚ) + t - ((q + false.toNat : Nat) : ℚ) = t := by simp
    refine ⟨by rwa [hd, abs_of_nonneg ht0], fun hm => ?_, fun _ => by simpa using ht0, fun hm => by simp [above hm rfl]⟩
    rw [hd, abs_of_nonneg ht0]
    exact (rne hm).2 rfl
  | true =>
    have hd : (q : ℚ) + t - ((q + true.toNat : Nat) : ℚ) = -(1 - t) := by simp
    have ha : |(q : ℚ) + t - ((q + true.toNat : Nat) : ℚ)| = 1 - t := by rw [hd, abs_neg, abs_of_pos (by linarith)]
    refine ⟨by rw [ha]; linarith [pos rfl], fun hm => ?_, fun hm => absurd (below hm) (by decide), fun _ => ?_⟩
    · obtain ⟨h1, h2⟩ := (rne hm).1 rfl
      rw [ha]
      refine ⟨by linarith, fun he => ?_⟩
      have odd := h2 (by linarith)
      simp only [Bool.toNat_true]; omega
    · simp only [Bool.toNat_true, Nat.cast_add, Nat.cast_one]; linarith

/-- Whether roundGrid takes the next integer, for a quotient q with remainder r of 2^sh. -/
def roundsUp (mode : Rm) (neg : Bool) (q r sh : Nat) : Bool :=
  match mode with
  | .rne => decide (2 ^ (sh - 1) < r) || (r == 2 ^ (sh - 1) && q % 2 == 1)
  | .rtz => false
  | .rup => r != 0 && !neg
  | .rdn => r != 0 && neg

theorem ite_succ_eq_add_toNat (b : Bool) (q : Nat) : (if b = true then q + 1 else q) = q + b.toNat := by cases b <;> rfl

theorem roundGrid_coarse (mode : Rm) (neg : Bool) (m : Nat) {e g : Int} (h : e < g) :
    roundGrid mode neg m e false g =
      (m / 2 ^ (g - e).toNat + (roundsUp mode neg (m / 2 ^ (g - e).toNat) (m % 2 ^ (g - e).toNat) (g - e).toNat).toNat,
        m % 2 ^ (g - e).toNat != 0) := by
  rw [← ite_succ_eq_add_toNat]
  cases mode <;> simp only [roundGrid, roundsUp, if_neg (Int.not_le.mpr h), Bool.or_false, Bool.false_or] <;> rfl

theorem roundGrid_fine (mode : Rm) (neg : Bool) (m : Nat) {e g : Int} (st : Bool) (h : g ≤ e) :
    roundGrid mode neg m e st g = (m * 2 ^ (e - g).toNat, st) := if_pos h

/-- The quotient or the next integer, as roundsUp says, is the rounded value of q + r / 2^sh. -/
theorem roundedNat_roundsUp (mode : Rm) (neg : Bool) {q r sh : Nat} (hr : r < 2 ^ (sh + 1)) :
    RoundedNat mode neg (q + r / 2 ^ (sh + 1)) (q + (roundsUp mode neg q r (sh + 1)).toNat : Nat) := by
  have h2 : (0 : ℚ) < 2 ^ (sh + 1) := by positivity
  obtain ⟨t, ht⟩ : ∃ t : ℚ, t = r / 2 ^ (sh + 1) := ⟨_, rfl⟩
  have ht0 : 0 ≤ t := by rw [ht]; positivity
  have hz : r = 0 ↔ t = 0 := by rw [ht, div_eq_zero_iff]; simp
  have hr0 : r ≠ 0 → 0 < t := fun h => lt_of_le_of_ne ht0 fun e => h (hz.mpr e.symm)
  have hhalf : (1 / 2 : ℚ) * 2 ^ (sh + 1) = ((2 ^ sh : Nat) : ℚ) := by push_cast; ring
  have hlt : 2 ^ sh < r ↔ 1 / 2 < t := by rw [ht, lt_div_iff₀ h2, hhalf, Nat.cast_lt]
  have heq : r = 2 ^ sh ↔ t = 1 / 2 := by rw [ht, div_eq_iff h2.ne', hhalf, Nat.cast_inj]
  rw [← ht]
  refine roundedNat_of_choice ht0 (by rw [ht, div_lt_one h2]; exact_mod_cast hr) ?_ ?_ ?_ ?_
  · cases mode <;> simp only [roundsUp, Nat.add_sub_cancel, hlt, heq, Bool.or_eq_true, decide_eq_true_eq, Bool.and_eq_true, beq_iff_eq,
      bne_iff_ne]
    · rintro (h | ⟨h, -⟩) <;> linarith
    · exact fun h => absurd h (by decide)
    · exact fun h => hr0 h.1
    · exact fun h => hr0 h.1
  · rintro rfl
    simp only [roundsUp, Nat.add_sub_cancel, hlt, heq, Bool.or_eq_true, decide_eq_true_eq, Bool.and_eq_true, beq_iff_eq,
      Bool.or_eq_false_iff, decide_eq_false_iff_not, Bool.and_eq_false_imp, beq_eq_false_iff_ne, not_lt]
    refine ⟨?_, fun ⟨h, h'⟩ => ⟨h, fun e => by have := h' e; omega⟩⟩
    rintro (h | ⟨h, h'⟩)
    · exact ⟨h.le, fun e => absurd e h.ne'⟩
    · exact ⟨h.ge, fun _ => by omega⟩
  · rintro (rfl | rfl)
    · rfl
    · cases neg <;> simp [roundsUp]
  · rintro rfl
    cases neg <;> simp [roundsUp, hz]

/-- The value of m × 2^e in units of 2^g, split at the binary point. -/
theorem scaled_coarse (m : Nat) {e g : Int} {sh : Nat} (h : g - e = sh) :
    (m : ℚ) * 2 ^ (e - g) = ((m / 2 ^ sh : Nat) : ℚ) + ((m % 2 ^ sh : Nat) : ℚ) / 2 ^ sh := by
  have hm : (m : ℚ) = 2 ^ sh * ((m / 2 ^ sh : Nat) : ℚ) + ((m % 2 ^ sh : Nat) : ℚ) := by exact_mod_cast (Nat.div_add_mod m (2 ^ sh)).symm
  have h2 : (2 : ℚ) ^ sh ≠ 0 := by positivity
  rw [show e - g = -(sh : ℤ) by omega, zpow_neg, zpow_natCast, ← div_eq_mul_inv]
  nth_rw 1 [hm]
  rw [add_div, mul_div_cancel_left₀ _ h2]

theorem scaled_fine (m : Nat) {e g : Int} (h : g ≤ e) : (m : ℚ) * 2 ^ (e - g) = ((m * 2 ^ (e - g).toNat : Nat) : ℚ) := by
  rw [Nat.cast_mul, Nat.cast_pow, ← zpow_natCast, Int.toNat_of_nonneg (by omega)]; rfl

/-- What roundGrid delivers is m × 2^e in units of 2^g, rounded to an integer, and whether that changed it. -/
theorem roundGrid_spec (mode : Rm) (neg : Bool) (m : Nat) (e g : Int) :
    RoundedNat mode neg (m * 2 ^ (e - g)) (roundGrid mode neg m e false g).1 ∧
      ((roundGrid mode neg m e false g).2 = false ↔ ((roundGrid mode neg m e false g).1 : ℚ) = m * 2 ^ (e - g)) := by
  by_cases h : g ≤ e
  · rw [roundGrid_fine mode neg m false h, scaled_fine m h]
    exact ⟨roundedNat_self mode neg _, by simp⟩
  · obtain ⟨sh, hsh⟩ : ∃ sh : Nat, g - e = (sh + 1 : Nat) := ⟨(g - e - 1).toNat, by omega⟩
    have hr : m % 2 ^ (sh + 1) < 2 ^ (sh + 1) := Nat.mod_lt _ (by positivity)
    have h2 : (0 : ℚ) < 2 ^ (sh + 1) := by positivity
    rw [roundGrid_coarse mode neg m (Int.not_le.mp h), scaled_coarse m hsh, hsh, Int.toNat_natCast]
    refine ⟨roundedNat_roundsUp mode neg hr, ?_⟩
    simp only [bne_eq_false_iff_eq, Nat.cast_add, add_right_inj]
    constructor
    · intro h0
      rw [h0]
      cases mode <;> simp [roundsUp, (Nat.two_pow_pos sh).ne]
    · intro he
      have h1 : ((m % 2 ^ (sh + 1) : Nat) : ℚ) / 2 ^ (sh + 1) < 1 := by rw [div_lt_one h2]; exact_mod_cast hr
      rw [← he, Nat.cast_lt_one, Bool.toNat_eq_zero] at h1
      rw [h1] at he
      have h0 := (div_eq_zero_iff.mp he.symm).resolve_right h2.ne'
      exact_mod_cast h0

/-! ## Rounding onto the grid of a format (R96) -/

/-- The factor of a sign. -/
def signOf (neg : Bool) : ℚ := if neg then -1 else 1

theorem signOf_mul_self (neg : Bool) : signOf neg * signOf neg = 1 := by cases neg <;> simp [signOf]
theorem abs_signOf_mul (neg : Bool) (x : ℚ) : |signOf neg * x| = |x| := by cases neg <;> simp [signOf]
theorem signOf_ne_zero (neg : Bool) : signOf neg ≠ 0 := by cases neg <;> simp [signOf]

/-- A rounded magnitude lies on the same side as the number of every integer t between them. -/
theorem RoundedNat.le_int {mode : Rm} {neg : Bool} {y : ℚ} {q : Nat} (h : RoundedNat mode neg y q) {t : ℤ} (ht : (t : ℚ) ≤ y) : t ≤ q := by
  have h1 := (abs_lt.mp h.near).2
  have h2 : (t : ℚ) < ((q + 1 : ℤ) : ℚ) := by push_cast; linarith
  have h3 := Int.cast_lt.mp h2
  omega

theorem RoundedNat.int_le {mode : Rm} {neg : Bool} {y : ℚ} {q : Nat} (h : RoundedNat mode neg y q) {t : ℤ} (ht : y ≤ t) : q ≤ t := by
  have h1 := (abs_lt.mp h.near).1
  have h2 : ((q - 1 : ℤ) : ℚ) < (t : ℚ) := by push_cast; linarith
  have h3 := Int.cast_lt.mp h2
  omega

/-- Of all integers, the rounded one is nearest. -/
theorem RoundedNat.nearest {neg : Bool} {y : ℚ} {q : Nat} (h : RoundedNat .rne neg y q) (t : ℤ) :
    |y - q| ≤ |y - t| ∧ (|y - q| = |y - t| → t ≠ q → 2 ∣ q) := by
  obtain ⟨h1, h2⟩ := h.rne rfl
  by_cases e : t = q
  · subst e; simp
  · have h3 : (1 : ℚ) ≤ |(t : ℚ) - q| := by
      have h4 : 1 ≤ |t - q| := Int.one_le_abs (sub_ne_zero.mpr e)
      have h5 : ((1 : ℤ) : ℚ) ≤ ((|t - q| : ℤ) : ℚ) := Int.cast_le.mpr h4
      simpa using h5
    have h4 : |(t : ℚ) - q| ≤ |y - t| + |y - q| := by
      rw [abs_sub_comm y t]
      exact (congrArg abs (by ring : (t : ℚ) - q = (t - y) + (y - q))).trans_le (abs_add_le _ _)
    exact ⟨by linarith, fun he _ => h2 (by linarith)⟩

/-- A place of the grid: t units, an integer or below 2^p units where the number y being rounded is not. -/
def GridUnit (p : Nat) (y t : ℚ) : Prop := (∃ n : ℤ, t = n) ∨ (|t| < 2 ^ p ∧ (2 : ℚ) ^ p ≤ y)

/-- A number of the grid in units of 2^g: an integer, or, where the number being rounded is at least 2^p units, below that. -/
theorem grid_units {p : Nat} {finest : Option ℤ} {g : ℤ} {y : ℚ} (hg : finest = some g ∨ ((2 : ℚ) ^ p ≤ y ∧ ∀ g0 ∈ finest, g0 ≤ g)) {u : ℚ}
    (hu : OnGrid p finest u) : ∃ t : ℚ, u = t * 2 ^ g ∧ GridUnit p y t := by
  obtain ⟨k, e, rfl, hk, hf⟩ := hu
  have h2 : (2 : ℚ) ≠ 0 := two_ne_zero
  refine ⟨k * 2 ^ (e - g), by rw [mul_assoc, ← zpow_add₀ h2, sub_add_cancel], ?_⟩
  by_cases he : g ≤ e
  · left
    refine ⟨k * 2 ^ (e - g).toNat, ?_⟩
    rw [Int.cast_mul, Int.cast_pow, ← zpow_natCast, Int.toNat_of_nonneg (by omega)]; rfl
  · right
    rcases hg with hg | ⟨hy, -⟩
    · exact absurd (hf g hg) he
    · refine ⟨?_, hy⟩
      have h3 : (|k| : ℚ) < 2 ^ (p + 1) := by exact_mod_cast hk
      have h4 : (2 : ℚ) ^ (e - g) ≤ 2 ^ (-1 : ℤ) := zpow_le_zpow_right₀ one_le_two (by omega)
      have h5 : (0 : ℚ) < 2 ^ (e - g) := by positivity
      rw [abs_mul, abs_of_pos h5]
      calc (|k| : ℚ) * 2 ^ (e - g) < 2 ^ (p + 1) * 2 ^ (e - g) := mul_lt_mul_of_pos_right h3 h5
        _ ≤ 2 ^ (p + 1) * 2 ^ (-1 : ℤ) := mul_le_mul_of_nonneg_left h4 (by positivity)
        _ = 2 ^ p := by rw [pow_succ, zpow_neg_one, mul_assoc, mul_inv_cancel₀ h2, mul_one]

theorem GridUnit.signed {p : Nat} {y t : ℚ} (h : GridUnit p y t) (neg : Bool) : GridUnit p y (signOf neg * t) := by
  cases neg with
  | false => simpa [signOf] using h
  | true =>
    rcases h with ⟨n, rfl⟩ | h
    · exact .inl ⟨-n, by simp [signOf]⟩
    · exact .inr (by simpa [signOf] using h)

section Units
variable {mode : Rm} {neg : Bool} {y : ℚ} {q p : Nat}

theorem RoundedNat.two_pow_le (h : RoundedNat mode neg y q) (hy : (2 : ℚ) ^ p ≤ y) : (2 : ℚ) ^ p ≤ q := by
  have h1 := h.le_int (t := 2 ^ p) (by exact_mod_cast hy)
  exact_mod_cast h1

theorem RoundedNat.unit_le (h : RoundedNat mode neg y q) {t : ℚ} (ht : GridUnit p y t) (hty : t ≤ y) : t ≤ q := by
  rcases ht with ⟨n, rfl⟩ | ⟨hlt, hy⟩
  · exact_mod_cast h.le_int hty
  · linarith [h.two_pow_le hy, (abs_lt.mp hlt).2]

theorem RoundedNat.le_unit (h : RoundedNat mode neg y q) {t : ℚ} (ht : GridUnit p y t) (hty : y ≤ t) : (q : ℚ) ≤ t := by
  rcases ht with ⟨n, rfl⟩ | ⟨hlt, hy⟩
  · exact_mod_cast h.int_le hty
  · linarith [(abs_lt.mp hlt).2]

theorem RoundedNat.nearest_unit (h : RoundedNat .rne neg y q) {t : ℚ} (ht : GridUnit p y t) :
    |y - q| ≤ |y - t| ∧ (|y - q| = |y - t| → t ≠ q → 2 ∣ q) := by
  rcases ht with ⟨n, rfl⟩ | ⟨hlt, hy⟩
  · obtain ⟨h1, h2⟩ := h.nearest n
    exact ⟨h1, fun he hn => h2 he (by exact_mod_cast hn)⟩
  · have h1 := (h.nearest (2 ^ p)).1
    have hp : |y - ((2 ^ p : ℤ) : ℚ)| = y - 2 ^ p := by push_cast; exact abs_of_nonneg (by linarith)
    have h2 : |y - q| < |y - t| := by
      rw [hp] at h1
      have h3 := le_abs_self (y - t)
      linarith [(abs_lt.mp hlt).2]
    exact ⟨h2.le, fun he => absurd he h2.ne⟩

end Units

section Rounded
variable {mode : Rm} {neg : Bool} {y : ℚ} {q p : Nat} {finest : Option ℤ} {g : ℤ}
  (h : RoundedNat mode neg y q) (hy : y < 2 ^ (p + 1)) (hg : finest = some g ∨ ((2 : ℚ) ^ p ≤ y ∧ ∀ g0 ∈ finest, g0 ≤ g))
include h hy hg

omit hg in
theorem RoundedNat.le_two_pow : q ≤ 2 ^ (p + 1) := by
  have h1 := h.int_le (t := 2 ^ (p + 1)) (by push_cast; exact hy.le)
  exact_mod_cast h1

omit h hy in
theorem finest_le : ∀ g0 ∈ finest, g0 ≤ g := by
  rcases hg with rfl | hg
  · simp
  · exact hg.2

/-- The rounded magnitude has a place on the grid, of which its last bit tells whether q is even. -/
theorem RoundedNat.exists_place (hp : p ≠ 0) : ∃ k e : ℤ, (q : ℚ) * 2 ^ g = k * 2 ^ e ∧ 0 ≤ k ∧ k < 2 ^ (p + 1) ∧ (∀ g0 ∈ finest, g0 ≤ e) ∧
    (2 ∣ q → 2 ∣ k) ∧ (finest = some e ∨ 2 ^ p ≤ k) := by
  have hf := finest_le hg
  rcases (h.le_two_pow hy).lt_or_eq with hlt | heq
  · refine ⟨q, g, rfl, by omega, by exact_mod_cast hlt, hf, fun h => by exact_mod_cast h, hg.imp_right fun hg => ?_⟩
    have h1 := h.two_pow_le hg.1
    exact_mod_cast h1
  · refine ⟨2 ^ p, g + 1, ?_, by positivity, by rw [pow_succ]; have : (0 : ℤ) < 2 ^ p := by positivity
                                                omega, fun g0 hg0 => (hf g0 hg0).trans (by omega),
      fun _ => dvd_pow_self 2 hp, .inr le_rfl⟩
    rw [heq, zpow_add_one₀ two_ne_zero]; push_cast; ring

theorem RoundedNat.onGrid (hp : p ≠ 0) : OnGrid p finest (signOf neg * q * 2 ^ g) := by
  obtain ⟨k, e, hk, h0, hlt, hf, -, -⟩ := h.exists_place hy hg hp
  cases neg with
  | false => exact ⟨k, e, by rw [← hk]; simp [signOf], by rwa [abs_of_nonneg h0], hf⟩
  | true => exact ⟨-k, e, by rw [mul_assoc, hk]; simp [signOf], by rwa [abs_neg, abs_of_nonneg h0], hf⟩

theorem RoundedNat.evenOnGrid (hp : p ≠ 0) (he : 2 ∣ q) : EvenOnGrid p finest (signOf neg * q * 2 ^ g) := by
  obtain ⟨k, e, hk, h0, hlt, hf, heven, hlast⟩ := h.exists_place hy hg hp
  have last : finest = some e ∨ (2 ^ p ≤ |k| ∧ ∀ g0 ∈ finest, g0 ≤ e) := hlast.imp_right fun h => ⟨h.trans (le_abs_self k), hf⟩
  cases neg with
  | false => exact ⟨k, e, by rw [← hk]; simp [signOf], heven he, by rwa [abs_of_nonneg h0], last⟩
  | true => exact ⟨-k, e, by rw [mul_assoc, hk]; simp [signOf], (heven he).neg_right, by rwa [abs_neg, abs_of_nonneg h0], by rwa [abs_neg]⟩

/-- A magnitude rounded to an integer number of units of the grid is the number rounded onto the grid. -/
theorem RoundedNat.roundsTo (hp : p ≠ 0) (hy0 : 0 ≤ y) :
    RoundsTo mode p finest (signOf neg * y * 2 ^ g) (signOf neg * q * 2 ^ g) := by
  have hz : (0 : ℚ) < 2 ^ g := by positivity
  have hq0 : (0 : ℚ) ≤ q := Nat.cast_nonneg q
  -- every number of the grid, in units of 2^g on the side of the number being rounded
  have units : ∀ u, OnGrid p finest u → ∃ t, u = signOf neg * t * 2 ^ g ∧ GridUnit p y t := fun u hu => by
    obtain ⟨t, rfl, ht⟩ := grid_units hg hu
    exact ⟨signOf neg * t, by rw [← mul_assoc, signOf_mul_self, one_mul], GridUnit.signed ht neg⟩
  have dist : ∀ t, |signOf neg * y * 2 ^ g - signOf neg * t * 2 ^ g| = |y - t| * 2 ^ g := fun t => by
    rw [← sub_mul, ← mul_sub, abs_mul, abs_signOf_mul, abs_of_pos hz]
  have size : ∀ t, |signOf neg * t * 2 ^ g| = |t| * 2 ^ g := fun t => by rw [abs_mul, abs_signOf_mul, abs_of_pos hz]
  refine ⟨h.onGrid hy hg hp, ?_, ?_, ?_, ?_⟩
  · rintro rfl u hu
    obtain ⟨t, rfl, ht⟩ := units u hu
    obtain ⟨h1, h2⟩ := h.nearest_unit ht
    rw [dist, dist]
    refine ⟨mul_le_mul_of_nonneg_right h1 hz.le, fun he hn => h.evenOnGrid hy hg hp (h2 (mul_right_cancel₀ hz.ne' he) ?_)⟩
    rintro rfl
    exact hn rfl
  · intro hm
    have hqy := h.below (.inl hm)
    refine ⟨?_, ?_, fun u hu => ?_⟩
    · rw [size, size, abs_of_nonneg hq0, abs_of_nonneg hy0]
      exact mul_le_mul_of_nonneg_right hqy hz.le
    · have : signOf neg * q * 2 ^ g * (signOf neg * y * 2 ^ g) = (signOf neg * signOf neg) * (q * y * (2 ^ g * 2 ^ g)) := by ring
      rw [this, signOf_mul_self, one_mul]; positivity
    · obtain ⟨t, rfl, ht⟩ := units u hu
      rw [size, size, size, abs_of_nonneg hq0, abs_of_nonneg hy0]
      intro hle
      have hty := le_of_mul_le_mul_right hle hz
      refine mul_le_mul_of_nonneg_right (abs_le.mpr ⟨?_, h.unit_le ht ((le_abs_self t).trans hty)⟩) hz.le
      have := h.unit_le (ht.signed true) (by simpa [signOf] using (neg_le_abs t).trans hty)
      simp only [signOf, if_true] at this
      linarith
  · intro hm
    cases neg with
    | false =>
      refine ⟨by simpa [signOf, mul_le_mul_iff_left₀ hz] using h.above hm, fun u hu => ?_⟩
      obtain ⟨t, rfl, ht⟩ := units u hu
      simpa [signOf, mul_le_mul_iff_left₀ hz] using h.le_unit ht
    | true =>
      refine ⟨by simpa [signOf, mul_le_mul_iff_left₀ hz] using h.below (.inr hm), fun u hu => ?_⟩
      obtain ⟨t, rfl, ht⟩ := units u hu
      simpa [signOf, mul_le_mul_iff_left₀ hz] using h.unit_le ht
  · intro hm
    cases neg with
    | false =>
      refine ⟨by simpa [signOf, mul_le_mul_iff_left₀ hz] using h.below (.inr hm), fun u hu => ?_⟩
      obtain ⟨t, rfl, ht⟩ := units u hu
      simpa [signOf, mul_le_mul_iff_left₀ hz] using h.unit_le ht
    | true =>
      refine ⟨by simpa [signOf, mul_le_mul_iff_left₀ hz] using h.above hm, fun u hu => ?_⟩
      obtain ⟨t, rfl, ht⟩ := units u hu
      simpa [signOf, mul_le_mul_iff_left₀ hz] using h.le_unit ht

end Rounded

end Sys2Proof.Machine
end

section
namespace Sys2Proof.Machine
open Sys2Proof

/-! ## Patterns of a format and their magnitudes (R86, R88) -/

namespace FloatFmt

/-- What every format has: a fraction, an exponent, and at most one of the two ways to mark a NaN. -/
def Sound (f : FloatFmt) : Prop := f.mbits ≠ 0 ∧ f.ebits ≠ 0 ∧ (f.ieee && f.oneNan) = false

/-- The significand and the exponent of a finite pattern without sign. -/
def sig (f : FloatFmt) (x : Nat) : Nat := if x / 2 ^ f.mbits = 0 then x % 2 ^ f.mbits else 2 ^ f.mbits + x % 2 ^ f.mbits
def expo (f : FloatFmt) (x : Nat) : Int := if x / 2 ^ f.mbits = 0 then f.gmin else f.gmin + (x / 2 ^ f.mbits - 1 : Nat)

/-- The magnitude of a pattern without sign, read as a finite one. -/
def mag (f : FloatFmt) (x : Nat) : ℚ := f.sig x * 2 ^ f.expo x

variable {f : FloatFmt}

/-- The magnitude of a pattern that is put together as roundFin does it: j steps of the exponent above the smallest, and q units there. -/
theorem mag_of_units {j q : Nat} (hq : q ≤ 2 ^ (f.mbits + 1)) (hj : j = 0 ∨ 2 ^ f.mbits ≤ q) :
    f.mag (j * 2 ^ f.mbits + q) = q * 2 ^ (f.gmin + j) := by
  have h2 : 0 < 2 ^ f.mbits := by positivity
  rw [pow_succ] at hq
  rcases Nat.lt_or_ge q (2 ^ f.mbits) with h | h
  · obtain rfl : j = 0 := hj.resolve_right (by omega)
    simp [mag, sig, expo, Nat.div_eq_of_lt h, Nat.mod_eq_of_lt h]
  · obtain ⟨r, rfl⟩ := Nat.exists_eq_add_of_le h
    have hx : j * 2 ^ f.mbits + (2 ^ f.mbits + r) = 2 ^ f.mbits * (j + 1) + r := by ring
    rcases Nat.lt_or_ge r (2 ^ f.mbits) with h | h
    · have hd : (2 ^ f.mbits * (j + 1) + r) / 2 ^ f.mbits = j + 1 := by rw [Nat.mul_add_div h2, Nat.div_eq_of_lt h]
      have hm : (2 ^ f.mbits * (j + 1) + r) % 2 ^ f.mbits = r := by rw [Nat.mul_add_mod, Nat.mod_eq_of_lt h]
      simp [hx, mag, sig, expo, hd, hm]
    · obtain rfl : r = 2 ^ f.mbits := by omega
      have hx' : 2 ^ f.mbits * (j + 1) + 2 ^ f.mbits = 2 ^ f.mbits * (j + 2) := by ring
      have hd : (2 ^ f.mbits * (j + 2)) / 2 ^ f.mbits = j + 2 := Nat.mul_div_cancel_left _ h2
      have hm : (2 ^ f.mbits * (j + 2)) % 2 ^ f.mbits = 0 := Nat.mul_mod_right ..
      rw [hx, hx', mag, sig, expo, hd, hm, if_neg (by omega), if_neg (by omega), show j + 2 - 1 = j + 1 from rfl]
      push_cast
      rw [← add_assoc, zpow_add_one₀ two_ne_zero]
      ring

theorem mag_nonneg (x : Nat) : 0 ≤ f.mag x := by unfold mag; positivity

/-- Higher patterns have higher magnitudes. -/
theorem mag_strictMono : StrictMono f.mag := by
  refine strictMono_nat_of_lt_succ fun x => ?_
  obtain ⟨j, q, rfl, hq, hj⟩ : ∃ j q, x = j * 2 ^ f.mbits + q ∧ q + 1 ≤ 2 ^ (f.mbits + 1) ∧ (j = 0 ∨ 2 ^ f.mbits ≤ q) := by
    have h2 : 0 < 2 ^ f.mbits := by positivity
    have hr := Nat.mod_lt x h2
    have hx := Nat.div_add_mod x (2 ^ f.mbits)
    rw [pow_succ]
    by_cases h0 : x / 2 ^ f.mbits = 0
    · exact ⟨0, x % 2 ^ f.mbits, by rw [h0] at hx; omega, by omega, .inl rfl⟩
    · obtain ⟨j, hj⟩ := Nat.exists_eq_succ_of_ne_zero h0
      refine ⟨j, 2 ^ f.mbits + x % 2 ^ f.mbits, ?_, by omega, .inr (by omega)⟩
      rw [hj, Nat.mul_succ, Nat.mul_comm] at hx
      omega
  have hz : (0 : ℚ) < 2 ^ (f.gmin + j) := by positivity
  rw [add_assoc, mag_of_units (by omega) hj, mag_of_units hq (hj.imp_right (by omega))]
  push_cast
  linarith

@[simp] theorem mag_inj {x y : Nat} : f.mag x = f.mag y ↔ x = y := mag_strictMono.injective.eq_iff
@[simp] theorem mag_le_mag {x y : Nat} : f.mag x ≤ f.mag y ↔ x ≤ y := mag_strictMono.le_iff_le
@[simp] theorem mag_lt_mag {x y : Nat} : f.mag x < f.mag y ↔ x < y := mag_strictMono.lt_iff_lt
@[simp] theorem mag_zero : f.mag 0 = 0 := by simp [mag, sig]

/-! ### Signs, finite patterns, infinities and NaNs -/

theorem signBit_lt_width (neg : Bool) {x : Nat} (hx : x < 2 ^ (f.ebits + f.mbits)) : f.signBit neg + x < 2 ^ f.width := by
  have : 2 ^ f.width = 2 * 2 ^ (f.ebits + f.mbits) := by rw [width, Nat.add_assoc, Nat.add_comm 1, pow_succ, Nat.mul_comm]
  cases neg <;> simp [signBit, this] <;> omega

theorem signBit_div (neg : Bool) {x : Nat} (hx : x < 2 ^ (f.ebits + f.mbits)) :
    (f.signBit neg + x) / 2 ^ (f.width - 1) = if neg then 1 else 0 := by
  rw [width, show 1 + f.ebits + f.mbits - 1 = f.ebits + f.mbits by omega]
  cases neg
  · simp [signBit, Nat.div_eq_of_lt hx]
  · simp [signBit, Nat.add_div_left _ (Nat.two_pow_pos _), Nat.div_eq_of_lt hx]

/-- The value of a pattern, by its sign and the pattern without sign. -/
theorem value_signBit_add (neg : Bool) {x : Nat} (hx : x < 2 ^ (f.ebits + f.mbits)) :
    f.value (f.signBit neg + x) =
      if f.ieee = true ∧ x / 2 ^ f.mbits = 2 ^ f.ebits - 1 then (if x % 2 ^ f.mbits = 0 then .inf neg else .nan)
      else if f.oneNan = true ∧ x = 2 ^ (f.ebits + f.mbits) - 1 then .nan
      else .fin neg (f.sig x) (f.expo x) false := by
  have h2 : 0 < 2 ^ (f.ebits + f.mbits) := by positivity
  have he : x / 2 ^ f.mbits < 2 ^ f.ebits := by rw [Nat.div_lt_iff_lt_mul (Nat.two_pow_pos _), ← pow_add]; exact hx
  obtain ⟨c, hc⟩ : ∃ c, f.signBit neg = 2 ^ (f.ebits + f.mbits) * c ∧ (c % 2 == 1) = neg := by
    cases neg
    · exact ⟨0, by simp [signBit], rfl⟩
    · exact ⟨1, by simp [signBit], rfl⟩
  obtain ⟨hc, hneg⟩ := hc
  have hsign : ((f.signBit neg + x) / 2 ^ (f.ebits + f.mbits) % 2 == 1) = neg := by
    rw [hc, Nat.mul_add_div h2, Nat.div_eq_of_lt hx, Nat.add_zero, hneg]
  have hrest : (f.signBit neg + x) % 2 ^ (f.ebits + f.mbits) = x := by rw [hc, Nat.mul_add_mod, Nat.mod_eq_of_lt hx]
  have hexp : (f.signBit neg + x) / 2 ^ f.mbits % 2 ^ f.ebits = x / 2 ^ f.mbits := by
    rw [hc, pow_add, Nat.mul_comm (2 ^ f.ebits), Nat.mul_assoc, Nat.mul_add_div (Nat.two_pow_pos _), Nat.mul_add_mod, Nat.mod_eq_of_lt he]
  have hfrac : (f.signBit neg + x) % 2 ^ f.mbits = x % 2 ^ f.mbits := by
    rw [hc, pow_add, Nat.mul_comm (2 ^ f.ebits), Nat.mul_assoc, Nat.mul_add_mod]
  unfold value
  simp only [hsign, hrest, hexp, hfrac, Bool.and_eq_true, beq_iff_eq]
  split
  · rfl
  · split
    · rfl
    · by_cases h0 : x / 2 ^ f.mbits = 0
      · simp [sig, expo, h0]
      · simp only [sig, expo, h0, if_false]
        congr 1
        omega

section Sound
variable (hf : f.Sound)
include hf

theorem maxPat_ieee (h : f.ieee = true) : f.maxPat + 1 = (2 ^ f.ebits - 1) * 2 ^ f.mbits := by
  have h1 : 2 ≤ 2 ^ f.ebits := Nat.le_self_pow hf.2.1 2
  have h2 : 0 < (2 ^ f.ebits - 1) * 2 ^ f.mbits := Nat.mul_pos (by omega) (by positivity)
  rw [maxPat, if_pos h]
  omega

theorem maxPat_lt : f.maxPat < 2 ^ (f.ebits + f.mbits) := by
  have h2 : 0 < 2 ^ (f.ebits + f.mbits) := by positivity
  by_cases h : f.ieee = true
  · have h1 := maxPat_ieee hf h
    rw [Nat.sub_mul, ← pow_add] at h1
    omega
  · rw [maxPat, if_neg h]
    split <;> omega

theorem value_finite (neg : Bool) {x : Nat} (hx : x ≤ f.maxPat) : f.value (f.signBit neg + x) = .fin neg (f.sig x) (f.expo x) false := by
  have hlt := maxPat_lt hf
  have h2 : 1 < 2 ^ (f.ebits + f.mbits) := Nat.one_lt_two_pow (by have := hf.1; omega)
  rw [value_signBit_add neg (by omega), if_neg, if_neg]
  · rintro ⟨ho, rfl⟩
    have hi : f.ieee = false := by have := hf.2.2; simpa [ho] using this
    rw [maxPat, hi, if_neg Bool.false_ne_true, if_pos ho] at hx
    omega
  · rintro ⟨hi, hd⟩
    have h1 := maxPat_ieee hf hi
    have h3 := Nat.div_mul_le_self x (2 ^ f.mbits)
    rw [hd] at h3
    omega

theorem value_infPat (h : f.ieee = true) (neg : Bool) : f.value (f.infPat neg) = .inf neg := by
  have h1 := maxPat_ieee hf h
  have h2 := maxPat_lt hf
  rw [infPat, value_signBit_add neg, if_pos ⟨h, Nat.mul_div_cancel _ (Nat.two_pow_pos _)⟩, if_pos (Nat.mul_mod_left ..)]
  rw [Nat.sub_mul, ← pow_add]
  have h3 : 0 < 2 ^ f.mbits := by positivity
  have h4 : 2 ^ f.mbits ≤ 2 ^ (f.ebits + f.mbits) := Nat.pow_le_pow_right (by omega) (by omega)
  omega

theorem value_above_inf (h : f.ieee = true) (neg : Bool) {x : Nat} (hx : f.maxPat + 1 < x) (hlt : x < 2 ^ (f.ebits + f.mbits)) :
    f.value (f.signBit neg + x) = .nan := by
  have h1 := maxPat_ieee hf h
  have hd : x / 2 ^ f.mbits = 2 ^ f.ebits - 1 := by
    have h2 : x / 2 ^ f.mbits < 2 ^ f.ebits := by rw [Nat.div_lt_iff_lt_mul (Nat.two_pow_pos _), ← pow_add]; exact hlt
    have h3 : 2 ^ f.ebits - 1 ≤ x / 2 ^ f.mbits := by rw [Nat.le_div_iff_mul_le (Nat.two_pow_pos _)]; omega
    omega
  have hm : x % 2 ^ f.mbits ≠ 0 := fun h0 => by
    have := Nat.div_add_mod x (2 ^ f.mbits)
    rw [hd, h0, Nat.mul_comm] at this
    omega
  rw [value_signBit_add neg hlt, if_pos ⟨h, hd⟩, if_neg hm]

end Sound

/-- Every pattern is one without sign under a sign. -/
theorem exists_signBit_add {x : Nat} (hx : x < 2 ^ f.width) : ∃ neg y, y < 2 ^ (f.ebits + f.mbits) ∧ x = f.signBit neg + y := by
  have hw : 2 ^ f.width = 2 * 2 ^ (f.ebits + f.mbits) := by rw [width, Nat.add_assoc, Nat.add_comm 1, pow_succ, Nat.mul_comm]
  rcases Nat.lt_or_ge x (2 ^ (f.ebits + f.mbits)) with h | h
  · exact ⟨false, x, h, by simp [signBit]⟩
  · exact ⟨true, x - 2 ^ (f.ebits + f.mbits), by omega, by simp [signBit]; omega⟩

end FloatFmt

theorem real_fin (neg : Bool) (m : Nat) (e : Int) (st : Bool) : (Num.fin neg m e st).real = some (signOf neg * m * 2 ^ e) := rfl

theorem is_fin_iff {neg : Bool} {m : Nat} {e : Int} {x : ℚ} : (Num.fin neg m e false).Is x ↔ x = signOf neg * m * 2 ^ e := by
  constructor
  · rintro ⟨_, _, _, h, rfl⟩
    cases h; rfl
  · rintro rfl
    exact ⟨_, _, _, rfl, rfl⟩

theorem real_value_finite {f : FloatFmt} (hf : f.Sound) (neg : Bool) {x : Nat} (hx : x ≤ f.maxPat) :
    (f.value (f.signBit neg + x)).real = some (signOf neg * f.mag x) := by
  rw [FloatFmt.value_finite hf neg hx, real_fin, mul_assoc]; rfl

/-! ## One rounding (R96, R97, R98) -/

/-- The place of the last bit of m × 2^e at full precision. -/
def lastPlace (f : FloatFmt) (m : Nat) (e : Int) : Int := (Nat.log2 m : Int) + e - f.mbits

theorem two_pow_log2_le {m : Nat} (hm : m ≠ 0) : (2 : ℚ) ^ Nat.log2 m ≤ m := by exact_mod_cast Nat.log2_self_le hm
theorem lt_two_pow_log2 (m : Nat) : (m : ℚ) < 2 ^ (Nat.log2 m + 1) := by exact_mod_cast Nat.lt_log2_self

/-- At full precision a number has between 2^mbits and 2^(mbits + 1) units of its last place. -/
theorem units_at_lastPlace (f : FloatFmt) {m : Nat} (hm : m ≠ 0) (e : Int) :
    (2 : ℚ) ^ f.mbits ≤ m * 2 ^ (e - lastPlace f m e) ∧ (m : ℚ) * 2 ^ (e - lastPlace f m e) < 2 ^ (f.mbits + 1) := by
  have hz : (0 : ℚ) < 2 ^ (e - lastPlace f m e) := by positivity
  have hs : e - lastPlace f m e = (f.mbits : Int) - Nat.log2 m := by unfold lastPlace; ring
  have h2 : ∀ n : Nat, (2 : ℚ) ^ (n + Nat.log2 m) * 2 ^ (e - lastPlace f m e) = 2 ^ (n + f.mbits) := fun n => by
    rw [hs, ← zpow_natCast, ← zpow_natCast, ← zpow_add₀ two_ne_zero]
    congr 1; push_cast; ring
  constructor
  · have := mul_le_mul_of_nonneg_right (two_pow_log2_le hm) hz.le
    rwa [← Nat.zero_add (Nat.log2 m), h2, Nat.zero_add] at this
  · have := mul_lt_mul_of_pos_right (lt_two_pow_log2 m) hz
    rwa [Nat.add_comm, h2, Nat.add_comm] at this

/-- The same on the grid of the format, which is no finer than full precision. -/
theorem units_on_grid (f : FloatFmt) {m : Nat} (hm : m ≠ 0) (e : Int) :
    (m : ℚ) * 2 ^ (e - max (lastPlace f m e) f.gmin) < 2 ^ (f.mbits + 1) := by
  refine lt_of_le_of_lt (mul_le_mul_of_nonneg_left ?_ (Nat.cast_nonneg m)) (units_at_lastPlace f hm e).2
  exact zpow_le_zpow_right₀ one_le_two (by omega)

theorem grid_of_lastPlace (f : FloatFmt) {m : Nat} (hm : m ≠ 0) (e : Int) :
    some f.gmin = some (max (lastPlace f m e) f.gmin) ∨
      ((2 : ℚ) ^ f.mbits ≤ m * 2 ^ (e - max (lastPlace f m e) f.gmin) ∧ ∀ g0 ∈ some f.gmin, g0 ≤ max (lastPlace f m e) f.gmin) := by
  rcases le_total (lastPlace f m e) f.gmin with h | h
  · left; rw [max_eq_right h]
  · right
    rw [max_eq_left h]
    exact ⟨(units_at_lastPlace f hm e).1, by simpa using h⟩

theorem roundFin_of_ne_zero (f : FloatFmt) (mode : Rm) (sat neg : Bool) {m : Nat} (hm : m ≠ 0) (e : Int) :
    roundFin f mode sat neg m e false =
      let full := lastPlace f m e
      let g := max full f.gmin
      let r := roundGrid mode neg m e false g
      let pat := (g - f.gmin).toNat * 2 ^ f.mbits + r.1
      if f.maxPat < pat then (overflowPat f mode sat neg, flagOF ||| flagNX)
      else
        let q := (roundGrid mode neg m e false full).1
        let tiny := decide (full < f.gmin) && decide (q * 2 ^ (full - min full f.gmin).toNat < 2 ^ (f.mbits + (f.gmin - min full f.gmin).toNat))
        (f.signBit neg + pat, (if r.2 then flagNX else 0) ||| (if tiny && r.2 then flagUF else 0)) := by
  rw [roundFin, if_neg hm]; rfl

/-- The model's test of R96 for a tiny number: at full precision it stays below the smallest normal value. -/
theorem tiny_iff (f : FloatFmt) {mode : Rm} {neg : Bool} {m : Nat} (hm : m ≠ 0) (e : Int) :
    (decide (lastPlace f m e < f.gmin) && decide ((roundGrid mode neg m e false (lastPlace f m e)).1
        * 2 ^ (lastPlace f m e - min (lastPlace f m e) f.gmin).toNat < 2 ^ (f.mbits + (f.gmin - min (lastPlace f m e) f.gmin).toNat))) = true ↔
      ((roundGrid mode neg m e false (lastPlace f m e)).1 : ℚ) * 2 ^ lastPlace f m e < 2 ^ (f.gmin + f.mbits) := by
  obtain ⟨hq, -⟩ := roundGrid_spec mode neg m e (lastPlace f m e)
  obtain ⟨q, hqe⟩ : ∃ q, q = (roundGrid mode neg m e false (lastPlace f m e)).1 := ⟨_, rfl⟩
  rw [← hqe] at hq ⊢
  have hqp := hq.two_pow_le (units_at_lastPlace f hm e).1
  set full := lastPlace f m e
  rw [Bool.and_eq_true, decide_eq_true_eq, decide_eq_true_eq]
  rcases lt_or_ge full f.gmin with h | h
  · obtain ⟨d, hd⟩ : ∃ d : Nat, f.gmin = full + d := ⟨(f.gmin - full).toNat, by omega⟩
    have hz : (0 : ℚ) < 2 ^ full := by positivity
    rw [min_eq_left h.le, hd]
    have hp : (2 : ℚ) ^ (full + d + f.mbits) = ((2 ^ (f.mbits + d) : Nat) : ℚ) * 2 ^ full := by
      push_cast
      rw [← zpow_natCast, ← zpow_add₀ two_ne_zero]
      congr 1; push_cast; ring
    rw [hp, mul_lt_mul_iff_left₀ hz, Nat.cast_lt]
    simp
    omega
  · refine iff_of_false (fun h' => by omega) (not_lt.mpr ?_)
    rw [zpow_add₀ two_ne_zero, zpow_natCast, mul_comm]
    exact mul_le_mul hqp (zpow_le_zpow_right₀ one_le_two h) (by positivity) (by positivity)

theorem scaled_mul (m : Nat) (e k : Int) : (m : ℚ) * 2 ^ (e - k) * 2 ^ k = m * 2 ^ e := by
  rw [mul_assoc, ← zpow_add₀ two_ne_zero, sub_add_cancel]

section
variable {f : FloatFmt} (hf : f.Sound) (mode : Rm) (neg : Bool) {m : Nat} (hm : m ≠ 0) (e : Int)
include hf hm

theorem roundsTo_full : RoundsTo mode f.mbits none (signOf neg * (m * 2 ^ e))
    (signOf neg * ((roundGrid mode neg m e false (lastPlace f m e)).1 * 2 ^ lastPlace f m e)) := by
  obtain ⟨hle, hlt⟩ := units_at_lastPlace f hm e
  have h := (roundGrid_spec mode neg m e (lastPlace f m e)).1.roundsTo (finest := none) (g := lastPlace f m e) hlt
    (.inr ⟨hle, by simp⟩) hf.1 (by positivity)
  rwa [mul_assoc, scaled_mul, mul_assoc] at h

theorem roundsTo_grid : RoundsTo mode f.mbits (some f.gmin) (signOf neg * (m * 2 ^ e))
    (signOf neg * ((roundGrid mode neg m e false (max (lastPlace f m e) f.gmin)).1 * 2 ^ max (lastPlace f m e) f.gmin)) := by
  have h := (roundGrid_spec mode neg m e (max (lastPlace f m e) f.gmin)).1.roundsTo (units_on_grid f hm e) (grid_of_lastPlace f hm e) hf.1
    (by positivity)
  rwa [mul_assoc, scaled_mul, mul_assoc] at h

omit hf in
theorem mag_rounded : f.mag ((max (lastPlace f m e) f.gmin - f.gmin).toNat * 2 ^ f.mbits
      + (roundGrid mode neg m e false (max (lastPlace f m e) f.gmin)).1) =
    (roundGrid mode neg m e false (max (lastPlace f m e) f.gmin)).1 * 2 ^ max (lastPlace f m e) f.gmin := by
  have hq := (roundGrid_spec mode neg m e (max (lastPlace f m e) f.gmin)).1
  have hle : f.gmin ≤ max (lastPlace f m e) f.gmin := le_max_right _ _
  rw [FloatFmt.mag_of_units (hq.le_two_pow (units_on_grid f hm e)), Int.toNat_of_nonneg (by omega), add_sub_cancel]
  rcases grid_of_lastPlace f hm e with hg | ⟨hg, -⟩
  · left; simp only [Option.some.injEq] at hg; omega
  · right; exact_mod_cast hq.two_pow_le hg

/-- One rounding: the number rounded onto the grid has the magnitude of pat, and w at full precision. The pattern is delivered up to the
largest finite one, and beyond it that of R97. -/
theorem roundFin_spec (sat : Bool) :
    ∃ (pat : Nat) (w : ℚ), 0 ≤ w ∧
      RoundsTo mode f.mbits (some f.gmin) (signOf neg * (m * 2 ^ e)) (signOf neg * f.mag pat) ∧
      RoundsTo mode f.mbits none (signOf neg * (m * 2 ^ e)) (signOf neg * w) ∧
      (pat ≤ f.maxPat → roundFin f mode sat neg m e false = (f.signBit neg + pat,
        if f.mag pat = m * 2 ^ e then 0 else if w < 2 ^ (f.gmin + f.mbits) then flagUF ||| flagNX else flagNX)) ∧
      (f.maxPat < pat → roundFin f mode sat neg m e false = (overflowPat f mode sat neg, flagOF ||| flagNX)) := by
  have hexact := (roundGrid_spec mode neg m e (max (lastPlace f m e) f.gmin)).2
  have htiny := tiny_iff f (mode := mode) (neg := neg) hm e
  rw [← mul_left_inj' (c := (2 : ℚ) ^ max (lastPlace f m e) f.gmin) (by positivity), scaled_mul, ← mag_rounded mode neg hm e] at hexact
  refine ⟨_, _, by positivity, (mag_rounded (f := f) mode neg hm e).symm ▸ roundsTo_grid hf mode neg hm e, roundsTo_full hf mode neg hm e,
    fun hle => ?_, fun hgt => ?_⟩
  · rw [roundFin_of_ne_zero f mode sat neg hm]
    dsimp only
    rw [if_neg (Nat.not_lt.mpr hle)]
    congr 1
    simp only [← htiny, ← hexact]
    cases (roundGrid mode neg m e false (max (lastPlace f m e) f.gmin)).2
    · simp
    · simp only [if_true, Bool.and_true, Bool.true_eq_false, if_false]
      split <;> simp [BitVec.or_comm]
  · rw [roundFin_of_ne_zero f mode sat neg hm]
    exact if_pos hgt

end

end Sys2Proof.Machine
end

section
namespace Sys2Proof.Machine
open Sys2Proof

/-! ## The statement of one rounding, format by format (R97) -/

theorem signOf_mul_eq (neg : Bool) (x : ℚ) : signOf neg * x = if neg then -x else x := by cases neg <;> simp [signOf]

/-- The largest finite value of each sign. -/
theorem largest_pattern {f : FloatFmt} (hf : f.Sound) (neg : Bool) : f.signBit neg + f.maxPat < 2 ^ f.width ∧
    (f.value (f.signBit neg + f.maxPat)).real = some (if neg then -f.mag f.maxPat else f.mag f.maxPat) :=
  ⟨FloatFmt.signBit_lt_width neg (FloatFmt.maxPat_lt hf), by rw [real_value_finite hf neg le_rfl, signOf_mul_eq]⟩

theorem infPat_lt {f : FloatFmt} (neg : Bool) : f.infPat neg < 2 ^ f.width := by
  refine FloatFmt.signBit_lt_width neg ?_
  rw [pow_add]
  exact Nat.mul_lt_mul_of_pos_right (Nat.sub_lt (Nat.two_pow_pos _) one_pos) (Nat.two_pow_pos _)

/-- R97's table without saturation: infinity or the largest finite value, as the mode says. -/
theorem overflowPat_ieee {f : FloatFmt} (h : f.ieee = true) (mode : Rm) (neg : Bool) :
    overflowPat f mode false neg =
      if mode = .rne ∨ mode = (if neg then .rdn else .rup) then f.infPat neg else f.signBit neg + f.maxPat := by
  unfold overflowPat
  rw [if_neg Bool.false_ne_true, if_pos h]
  cases mode <;> cases neg <;> rfl

theorem overflowPat_sat (f : FloatFmt) (mode : Rm) (neg : Bool) : overflowPat f mode true neg = f.signBit neg + f.maxPat := if_pos rfl

theorem overflowPat_plain {f : FloatFmt} (h : f.hasNan = false) (mode : Rm) (sat neg : Bool) :
    overflowPat f mode sat neg = f.signBit neg + f.maxPat := by
  obtain ⟨hi, ho⟩ := Bool.or_eq_false_iff.mp h
  unfold overflowPat
  rw [hi, ho]
  simp

/-- One rounding, in the words of RoundedResults: up to the largest finite value the rounded value itself is delivered, with its sign and
flags, and beyond it R97's pattern. -/
theorem roundFin_delivers {f : FloatFmt} (hf : f.Sound) (mode : Rm) (sat neg : Bool) {m : Nat} (hm : m ≠ 0) (e : Int) :
    let r := roundFin f mode sat neg m e false
    let x : ℚ := (if neg then -1 else 1) * m * (2 : ℚ) ^ e
    ∃ v w : ℚ, RoundsTo mode f.mbits (some f.gmin) x v ∧ RoundsTo mode f.mbits none x w ∧
      (|v| ≤ f.mag f.maxPat → (f.value r.1).real = some v ∧ r.1 / 2 ^ (f.width - 1) = (if neg then 1 else 0)
        ∧ r.2 = (if v = x then 0 else if |w| < (2 : ℚ) ^ (f.gmin + f.mbits) then flagUF ||| flagNX else flagNX)) ∧
      (f.mag f.maxPat < |v| → r.2 = flagOF ||| flagNX ∧ r.1 = overflowPat f mode sat neg) := by
  intro r x
  obtain ⟨pat, w, hw0, hv, hw, hfin, hover⟩ := roundFin_spec hf mode neg hm e sat
  have hx : x = signOf neg * (m * 2 ^ e) := mul_assoc ..
  have habs : |signOf neg * f.mag pat| = f.mag pat := by rw [abs_signOf_mul, abs_of_nonneg (FloatFmt.mag_nonneg pat)]
  refine ⟨signOf neg * f.mag pat, signOf neg * w, hx ▸ hv, hx ▸ hw, fun hle => ?_, fun hlt => ?_⟩
  · rw [habs, FloatFmt.mag_le_mag] at hle
    have hr : r = _ := hfin hle
    refine ⟨by rw [hr, real_value_finite hf neg hle], by rw [hr, FloatFmt.signBit_div neg (hle.trans_lt (FloatFmt.maxPat_lt hf))], ?_⟩
    rw [hr, hx, abs_signOf_mul, abs_of_nonneg hw0]
    simp only [mul_right_inj' (signOf_ne_zero neg)]
  · rw [habs, FloatFmt.mag_lt_mag] at hlt
    have hr : r = _ := hover hlt
    exact ⟨by rw [hr], by rw [hr]⟩

theorem mag_of_parts {f : FloatFmt} {x s : Nat} {k : Int} (hs : f.sig x = s) (he : f.expo x = k) : f.mag x = s * 2 ^ k := by
  rw [FloatFmt.mag, hs, he]

/-- The formats of RoundedResults have the fraction bits, the smallest subnormal and the largest finite value that it gives them. -/
theorem format_table {f : FloatFmt} {p : Nat} {g : ℤ} {big : ℚ} (h : (f, p, g, big) ∈
      [(FloatFmt.fp32, 23, (-149 : ℤ), (2 - 2 ^ (-23 : ℤ)) * 2 ^ 127), (.bf16, 7, -133, (2 - 2 ^ (-7 : ℤ)) * 2 ^ 127), (.fp16, 10, -24, 65504),
      (.e5m2, 2, -16, 57344), (.e4m3, 3, -9, 448), (.e3m2, 2, -4, 28),
      (.e2m3, 3, -3, 15 / 2), (.e2m1, 1, -1, 6), (.fx48, 37, -547, (2 - 2 ^ (-37 : ℤ)) * (2 : ℚ) ^ 511)]) :
    f.Sound ∧ f.mbits = p ∧ f.gmin = g ∧ f.mag f.maxPat = big := by
  simp only [List.mem_cons, List.not_mem_nil, or_false, Prod.mk.injEq] at h
  rcases h with h | h | h | h | h | h | h | h | h <;> obtain ⟨rfl, rfl, rfl, rfl⟩ := h <;>
    refine ⟨⟨by decide, by decide, by decide⟩, rfl, rfl, ?_⟩
  · exact (mag_of_parts (s := 2 ^ 24 - 1) (k := 104) (by decide) (by decide)).trans (by norm_num)
  · exact (mag_of_parts (s := 2 ^ 8 - 1) (k := 120) (by decide) (by decide)).trans (by norm_num)
  · exact (mag_of_parts (s := 2 ^ 11 - 1) (k := 5) (by decide) (by decide)).trans (by norm_num)
  · exact (mag_of_parts (s := 7) (k := 13) (by decide) (by decide)).trans (by norm_num)
  · exact (mag_of_parts (s := 14) (k := 5) (by decide) (by decide)).trans (by norm_num)
  · exact (mag_of_parts (s := 7) (k := 2) (by decide) (by decide)).trans (by norm_num)
  · exact (mag_of_parts (s := 15) (k := -1) (by decide) (by decide)).trans (by norm_num)
  · exact (mag_of_parts (s := 3) (k := 1) (by decide) (by decide)).trans (by norm_num)
  · exact (mag_of_parts (s := 2 ^ 38 - 1) (k := 474) (by decide) (by decide)).trans (by
      rw [show 511 = 474 + 37 from rfl, pow_add, show (2 : ℚ) ^ (474 : ℤ) = 2 ^ 474 from zpow_natCast 2 474]
      generalize (2 : ℚ) ^ 474 = t
      norm_num
      ring)

/-- Settles O5: the one rounding of `roundFin_delivers`, with each format's figures from `format_table` and R97's table from the lemmas about
`overflowPat`. -/
theorem roundedResults : Obligations.RoundedResults := by
  unfold Obligations.RoundedResults
  intro f p g big hmem mode sat neg far largest
  obtain ⟨hf, rfl, rfl, rfl⟩ := format_table hmem
  have hmax : largest (f.signBit neg + f.maxPat) := largest_pattern hf neg
  have hinf (h : f.ieee = true) : f.infPat neg < 2 ^ f.width ∧ f.value (f.infPat neg) = .inf neg :=
    ⟨infPat_lt neg, FloatFmt.value_infPat hf h neg⟩
  constructor
  · intro m e hm r x
    obtain ⟨v, w, hv, hw, hfin, hover⟩ := roundFin_delivers hf mode sat neg hm e
    refine ⟨v, w, hv, hw, hfin, fun hlt => ?_⟩
    obtain ⟨hfl, hr⟩ := hover hlt
    change r.1 = _ at hr
    refine ⟨hfl, fun hl hs => ?_, ?_, ?_, ?_⟩
    · have hi : f.ieee = true := by
        simp only [List.mem_cons, List.not_mem_nil, or_false] at hl
        rcases hl with rfl | rfl | rfl | rfl <;> rfl
      rw [hr, hs, overflowPat_ieee hi]
      by_cases ht : mode = .rne ∨ mode = (if neg then .rdn else .rup)
      · rw [if_pos ht, if_pos ht]; exact hinf hi
      · rw [if_neg ht, if_neg ht]; exact hmax
    · rintro rfl hs
      rw [hr, hs]; rfl
    · rintro (hl | ⟨hs, -⟩)
      · have hn : f.hasNan = false := by
          simp only [List.mem_cons, List.not_mem_nil, or_false] at hl
          rcases hl with rfl | rfl | rfl <;> rfl
        rw [hr, overflowPat_plain hn]; exact hmax
      · rw [hr, hs, overflowPat_sat]; exact hmax
    · rintro rfl hmode hs
      rw [hr, hs, overflowPat_ieee rfl, if_pos (.inl hmode)]
      exact hinf rfl
  · exact fun _ => ⟨_, rfl, hmax⟩

end Sys2Proof.Machine
end

section
namespace Sys2Proof.Machine
open Sys2Proof

/-! ## Exact operations (R96, R98, R111) -/

/-- The signed numerator on a finer grid is the number in units of that grid. -/
theorem signedAt_mul (neg : Bool) (m : Nat) {e g : Int} (h : g ≤ e) : (signedAt neg m e g : ℚ) * 2 ^ g = signOf neg * m * 2 ^ e := by
  have hm : ((signedAt neg m e g : ℤ) : ℚ) = signOf neg * (m * 2 ^ (e - g)) := by
    rw [scaled_fine m h]
    cases neg <;> simp [signedAt, signOf]
  rw [hm, mul_assoc, scaled_mul, mul_assoc]

theorem ofSigned_is (i g : Int) (zneg : Bool) : (ofSigned i g zneg).Is (i * 2 ^ g) := by
  unfold ofSigned
  split
  · next h => exact is_fin_iff.mpr (by simp [h])
  · refine is_fin_iff.mpr ?_
    rcases lt_or_ge i 0 with h | h
    · simp [signOf, h, Nat.cast_natAbs, abs_of_neg h]
    · simp [signOf, not_lt.mpr h, Nat.cast_natAbs, abs_of_nonneg h]

theorem ofInt_is (i : Int) : (ofInt i).Is i := by simpa [ofInt] using ofSigned_is i 0 false

theorem addNum_fin (rm : Rm) (p q : Bool) (m n : Nat) (e g : Int) (st st' : Bool) : addNum rm (.fin p m e st) (.fin q n g st') =
    (ofSigned (signedAt p m e (min e g) + signedAt q n g (min e g)) (min e g) (if m = 0 ∧ n = 0 ∧ p = q then p else rm == .rdn), 0) := rfl

theorem mulNum_fin (p q : Bool) (m n : Nat) (e g : Int) (st st' : Bool) :
    mulNum (.fin p m e st) (.fin q n g st') = (.fin (p != q) (m * n) (e + g) false, 0) := rfl

section Exact
variable {a b c : Num} {x y z : ℚ} (ha : a.Is x) (hb : b.Is y) (hc : c.Is z)
include ha

theorem neg_is : a.neg.Is (-x) := by
  obtain ⟨p, m, e, rfl, rfl⟩ := ha
  exact is_fin_iff.mpr (by cases p <;> simp [signOf])

theorem abs_is : a.abs.Is |x| := by
  obtain ⟨p, m, e, rfl, rfl⟩ := ha
  refine is_fin_iff.mpr ?_
  have h : (0 : ℚ) ≤ m * 2 ^ e := by positivity
  cases p <;> simp [signOf, abs_of_nonneg h]

theorem scale_is (k : ℤ) : (a.scale k).Is (x * 2 ^ k) := by
  obtain ⟨p, m, e, rfl, rfl⟩ := ha
  exact is_fin_iff.mpr (by rw [zpow_add₀ two_ne_zero, ← mul_assoc]; rfl)

include hb

theorem mulNum_is : (mulNum a b).1.Is (x * y) ∧ (mulNum a b).2 = 0 := by
  obtain ⟨p, m, e, rfl, rfl⟩ := ha
  obtain ⟨q, n, g, rfl, rfl⟩ := hb
  refine ⟨is_fin_iff.mpr ?_, rfl⟩
  rw [zpow_add₀ two_ne_zero]
  cases p <;> cases q <;> simp [signOf] <;> ring

theorem addNum_is (rm : Rm) : (addNum rm a b).1.Is (x + y) ∧ (addNum rm a b).2 = 0 := by
  obtain ⟨p, m, e, rfl, rfl⟩ := ha
  obtain ⟨q, n, g, rfl, rfl⟩ := hb
  have h := ofSigned_is (signedAt p m e (min e g) + signedAt q n g (min e g)) (min e g) (if m = 0 ∧ n = 0 ∧ p = q then p else rm == .rdn)
  rw [Int.cast_add, add_mul, signedAt_mul p m (min_le_left e g), signedAt_mul q n (min_le_right e g)] at h
  exact ⟨h, rfl⟩

/-- A sum of numbers that cancel each other is a zero with R111's sign. -/
theorem addNum_cancel (rm : Rm) (h0 : x + y = 0) (hx : x ≠ 0) : ∃ e, (addNum rm a b).1 = .fin (decide (rm = .rdn)) 0 e false := by
  obtain ⟨p, m, e, rfl, rfl⟩ := ha
  obtain ⟨q, n, g, rfl, rfl⟩ := hb
  have hm : m ≠ 0 := by rintro rfl; simp at hx
  have h : ((signedAt p m e (min e g) + signedAt q n g (min e g) : ℤ) : ℚ) * 2 ^ min e g = 0 := by
    rw [Int.cast_add, add_mul, signedAt_mul p m (min_le_left e g), signedAt_mul q n (min_le_right e g)]; exact h0
  have hi := Int.cast_eq_zero.mp ((mul_eq_zero.mp h).resolve_right (by positivity))
  rw [addNum_fin, hi, if_neg fun h => hm h.1]
  exact ⟨0, by cases rm <;> rfl⟩

theorem cmpNum_is : cmpNum a b = some (if x < y then -1 else if x = y then 0 else 1) := by
  obtain ⟨p, m, e, rfl, rfl⟩ := ha
  obtain ⟨q, n, g, rfl, rfl⟩ := hb
  have h : ((signedAt p m e (min e g) - signedAt q n g (min e g) : ℤ) : ℚ) * 2 ^ min e g = signOf p * m * 2 ^ e - signOf q * n * 2 ^ g := by
    rw [Int.cast_sub, sub_mul, signedAt_mul p m (min_le_left e g), signedAt_mul q n (min_le_right e g)]
  have hz : (0 : ℚ) < 2 ^ min e g := by positivity
  have hlt : signedAt p m e (min e g) - signedAt q n g (min e g) < 0 ↔ signOf p * m * 2 ^ e < signOf q * n * 2 ^ g := by
    rw [← sub_neg (a := signOf p * m * 2 ^ e), ← h, mul_neg_iff]
    simp [hz, hz.le.not_gt]
  have heq : signedAt p m e (min e g) - signedAt q n g (min e g) = 0 ↔ signOf p * m * 2 ^ e = signOf q * n * 2 ^ g := by
    rw [← sub_eq_zero (a := signOf p * m * 2 ^ e), ← h, mul_eq_zero_iff_right hz.ne', Int.cast_eq_zero]
  change some _ = some _
  simp only [hlt, heq]
  rfl

end Exact

theorem mulNum_flags (a b : Num) : (mulNum a b).2 = 0 ∨ (mulNum a b).2 = flagNV := by
  unfold mulNum
  split <;> (try split) <;> simp

theorem fmaNum_eq (rm : Rm) (a b c : Num) :
    fmaNum rm a b c = if (mulNum a b).2 = flagNV then (.nan, flagNV) else addNum rm (mulNum a b).1 c := by
  rcases mulNum_flags a b with h | h
  · simp [fmaNum, h, flagNV]
  · simp [fmaNum, h, flagNV]

theorem fmaNum_is {a b c : Num} {x y z : ℚ} (ha : a.Is x) (hb : b.Is y) (hc : c.Is z) (rm : Rm) :
    (fmaNum rm a b c).1.Is (x * y + z) ∧ (fmaNum rm a b c).2 = 0 := by
  obtain ⟨hp, hfl⟩ := mulNum_is ha hb
  rw [fmaNum_eq, hfl, if_neg (by decide)]
  exact addNum_is hp hc rm

/-! ## A value of a format rounds to its own pattern (R86, R96) -/

/-- A number of the grid is rounded to itself. -/
theorem RoundsTo.eq_of_onGrid {mode : Rm} {p : Nat} {finest : Option ℤ} {x v : ℚ} (h : RoundsTo mode p finest x v) (hx : OnGrid p finest x) :
    v = x := by
  cases mode with
  | rne =>
    have h1 := (h.rne rfl x hx).1
    rw [sub_self, abs_zero] at h1
    exact (sub_eq_zero.mp (abs_eq_zero.mp (le_antisymm h1 (abs_nonneg _)))).symm
  | rtz =>
    obtain ⟨h1, h2, h3⟩ := h.rtz rfl
    have h4 : |v| = |x| := le_antisymm h1 (h3 x hx le_rfl)
    rcases abs_eq_abs.mp h4 with h5 | h5
    · exact h5
    · rw [h5, neg_mul] at h2
      have h6 : x = 0 := mul_self_eq_zero.mp (le_antisymm (by linarith) (mul_self_nonneg x))
      simp [h5, h6]
  | rup => exact le_antisymm ((h.rup rfl).2 x hx le_rfl) (h.rup rfl).1
  | rdn => exact le_antisymm (h.rdn rfl).1 ((h.rdn rfl).2 x hx le_rfl)

namespace FloatFmt
variable {f : FloatFmt}

theorem onGrid_mag (neg : Bool) (x : Nat) : OnGrid f.mbits (some f.gmin) (signOf neg * f.mag x) := by
  have hs : f.sig x < 2 ^ (f.mbits + 1) := by
    have h2 := Nat.mod_lt x (Nat.two_pow_pos f.mbits)
    rw [sig, pow_succ]
    split <;> omega
  have hs' : (f.sig x : ℤ) < 2 ^ (f.mbits + 1) := by exact_mod_cast hs
  have he : f.gmin ≤ f.expo x := by rw [expo]; split <;> omega
  cases neg with
  | false => exact ⟨f.sig x, f.expo x, by simp [signOf, mag], by rwa [abs_of_nonneg (by omega)], by simpa using he⟩
  | true => exact ⟨-f.sig x, f.expo x, by simp [signOf, mag], by rwa [abs_neg, abs_of_nonneg (by omega)], by simpa using he⟩

theorem sig_eq_zero {x : Nat} (h : f.sig x = 0) : x = 0 := by
  have h1 : f.mag x = f.mag 0 := by rw [mag_zero, mag, h]; simp
  exact mag_inj.mp h1

/-- A finite value is delivered as its pattern, without flags. -/
theorem roundFin_value (hf : f.Sound) (mode : Rm) (sat neg : Bool) {x : Nat} (hx : x ≤ f.maxPat) :
    roundFin f mode sat neg (f.sig x) (f.expo x) false = (f.signBit neg + x, 0) := by
  by_cases hm : f.sig x = 0
  · rw [hm, sig_eq_zero hm]; rfl
  · obtain ⟨pat, w, -, hv, -, hfin, -⟩ := roundFin_spec hf mode neg hm (f.expo x) sat
    have hp : f.mag pat = f.mag x := mul_left_cancel₀ (signOf_ne_zero neg) (hv.eq_of_onGrid (onGrid_mag neg x))
    obtain rfl := mag_inj.mp hp
    rw [hfin hx, if_pos (show f.mag pat = f.sig pat * 2 ^ f.expo pat from rfl)]

/-- The patterns of a format: finite ones, infinities, NaNs. -/
theorem pattern_cases (hf : f.Sound) {x : Nat} (hx : x < 2 ^ f.width) :
    (∃ neg y, y ≤ f.maxPat ∧ x = f.signBit neg + y) ∨ (f.ieee = true ∧ ∃ neg, x = f.infPat neg) ∨ f.value x = .nan := by
  obtain ⟨neg, y, hy, rfl⟩ := exists_signBit_add hx
  by_cases hle : y ≤ f.maxPat
  · exact .inl ⟨neg, y, hle, rfl⟩
  · right
    by_cases hi : f.ieee = true
    · by_cases heq : y = f.maxPat + 1
      · exact .inl ⟨hi, neg, by rw [heq, maxPat_ieee hf hi]; rfl⟩
      · exact .inr (value_above_inf hf hi neg (by omega) hy)
    · right
      have ho : f.oneNan = true ∧ y = 2 ^ (f.ebits + f.mbits) - 1 := by
        rw [maxPat, if_neg hi] at hle
        split at hle
        · exact ⟨‹_›, by omega⟩
        · omega
      rw [value_signBit_add neg hy, if_neg fun h => hi h.1, if_pos ho]

theorem infPat_eq (hf : f.Sound) (h : f.ieee = true) (neg : Bool) : f.infPat neg = f.signBit neg + (f.maxPat + 1) := by
  rw [maxPat_ieee hf h]; rfl

/-- Every value that is no NaN is delivered as its pattern, without flags. -/
theorem roundNum_value (hf : f.Sound) (mode : Rm) (sat : Bool) {x : Nat} (hx : x < 2 ^ f.width) (hn : f.value x ≠ .nan) :
    roundNum f mode sat (f.value x) = (x, 0) := by
  rcases pattern_cases hf hx with ⟨neg, y, hy, rfl⟩ | ⟨hi, neg, rfl⟩ | h
  · rw [value_finite hf neg hy]; exact roundFin_value hf mode sat neg hy
  · rw [value_infPat hf hi]; rfl
  · exact absurd h hn

/-! ## The order of values (R111) -/

/-- The magnitude of a signed pattern number, odd and increasing. -/
def signedMag (f : FloatFmt) (z : ℤ) : ℚ := if z < 0 then -f.mag z.natAbs else f.mag z.natAbs

theorem signedMag_strictMono : StrictMono f.signedMag := by
  intro a b h
  unfold signedMag
  rcases lt_or_ge a 0 with ha | ha <;> rcases lt_or_ge b 0 with hb | hb
  · rw [if_pos ha, if_pos hb, neg_lt_neg_iff, mag_lt_mag]; omega
  · rw [if_pos ha, if_neg (by omega)]
    have h1 : f.mag 0 < f.mag a.natAbs := mag_lt_mag.mpr (by omega)
    rw [mag_zero] at h1
    linarith [mag_nonneg (f := f) b.natAbs]
  · omega
  · rw [if_neg (by omega), if_neg (by omega), mag_lt_mag]; omega

/-- A pattern's place in the order in which the zeros of both signs are one. -/
def place (neg : Bool) (x : Nat) : ℤ := if neg then -x else x

theorem signOf_mul_mag (neg : Bool) (x : Nat) : signOf neg * f.mag x = f.signedMag (place neg x) := by
  cases neg with
  | false => simp [signOf, signedMag, place]
  | true =>
    rcases Nat.eq_zero_or_pos x with rfl | h
    · simp [signOf, signedMag, place]
    · simp [signOf, signedMag, place, h]

theorem is_value_finite (hf : f.Sound) (neg : Bool) {x : Nat} (hx : x ≤ f.maxPat) :
    (f.value (f.signBit neg + x)).Is (f.signedMag (place neg x)) := by
  rw [value_finite hf neg hx, is_fin_iff, ← signOf_mul_mag, mag, mul_assoc]

/-- Two values that are no NaNs compare as their patterns do by sign and magnitude. -/
theorem cmpNum_value (hf : f.Sound) (s t : Bool) {x y : Nat} (hx : x ≤ f.maxPat ∨ (f.ieee = true ∧ x = f.maxPat + 1))
    (hy : y ≤ f.maxPat ∨ (f.ieee = true ∧ y = f.maxPat + 1)) :
    cmpNum (f.value (f.signBit s + x)) (f.value (f.signBit t + y)) =
      some (if place s x < place t y then -1 else if place s x = place t y then 0 else 1) := by
  rcases hx with hx | ⟨hi, rfl⟩ <;> rcases hy with hy | ⟨hi', rfl⟩
  · rw [cmpNum_is (is_value_finite hf s hx) (is_value_finite hf t hy)]
    simp only [signedMag_strictMono.lt_iff_lt, signedMag_strictMono.injective.eq_iff]
  · rw [← infPat_eq hf hi', value_infPat hf hi', value_finite hf s hx]
    cases s <;> cases t <;> simp [cmpNum, place] <;> omega
  · rw [← infPat_eq hf hi, value_infPat hf hi, value_finite hf t hy]
    cases s <;> cases t <;> simp [cmpNum, place] <;> omega
  · rw [← infPat_eq hf hi, ← infPat_eq hf hi, value_infPat hf hi, value_infPat hf hi]
    cases s <;> cases t <;> simp [cmpNum, place] <;> omega

end FloatFmt

end Sys2Proof.Machine
end

section
namespace Sys2Proof.Machine
open Sys2Proof

/-! ## Minimum and maximum on patterns (R111) -/

namespace FloatFmt
variable {f : FloatFmt}

/-- The place of a pattern in the order in which −0 lies just below +0. -/
def key (f : FloatFmt) (u : Nat) : ℤ := if u < 2 ^ (f.width - 1) then (u : ℤ) else -1 - ((u : ℤ) - 2 ^ (f.width - 1))

theorem key_signBit_add (neg : Bool) {x : Nat} (hx : x < 2 ^ (f.ebits + f.mbits)) :
    f.key (f.signBit neg + x) = if neg then -1 - (x : ℤ) else x := by
  have hw : f.width - 1 = f.ebits + f.mbits := by rw [width]; omega
  rw [key, hw]
  cases neg
  · simp [signBit, hx]
  · simp [signBit]

theorem isNeg_value (hf : f.Sound) (neg : Bool) {x : Nat} (hx : x ≤ f.maxPat ∨ (f.ieee = true ∧ x = f.maxPat + 1)) :
    (f.value (f.signBit neg + x)).isNeg = neg := by
  rcases hx with hx | ⟨hi, rfl⟩
  · rw [value_finite hf neg hx]; rfl
  · rw [← infPat_eq hf hi, value_infPat hf hi]; rfl

/-- A pattern whose value is no NaN, as its sign and magnitude. -/
theorem exists_of_not_nan (hf : f.Sound) {u : Nat} (hu : u < 2 ^ f.width) (hn : f.value u ≠ .nan) :
    ∃ neg x, u = f.signBit neg + x ∧ x < 2 ^ (f.ebits + f.mbits) ∧ (x ≤ f.maxPat ∨ (f.ieee = true ∧ x = f.maxPat + 1)) := by
  rcases pattern_cases hf hu with ⟨neg, x, hx, rfl⟩ | ⟨hi, neg, rfl⟩ | h
  · exact ⟨neg, x, rfl, hx.trans_lt (maxPat_lt hf), .inl hx⟩
  · refine ⟨neg, _, infPat_eq hf hi neg, ?_, .inr ⟨hi, rfl⟩⟩
    rw [maxPat_ieee hf hi, pow_add]
    exact Nat.mul_lt_mul_of_pos_right (Nat.sub_lt (Nat.two_pow_pos _) one_pos) (Nat.two_pow_pos _)
  · exact absurd h hn

theorem leTotal_value (hf : f.Sound) {u v : Nat} (hu : u < 2 ^ f.width) (hv : v < 2 ^ f.width) (hnu : f.value u ≠ .nan) (hnv : f.value v ≠ .nan) :
    leTotal (f.value u) (f.value v) = true ↔ f.key u ≤ f.key v := by
  obtain ⟨s, x, rfl, hxlt, hx⟩ := exists_of_not_nan hf hu hnu
  obtain ⟨t, y, rfl, hylt, hy⟩ := exists_of_not_nan hf hv hnv
  rw [leTotal, cmpNum_value hf s t hx hy, isNeg_value hf s hx, isNeg_value hf t hy, key_signBit_add s hxlt, key_signBit_add t hylt]
  have h : (if place s x < place t y then (-1 : ℤ) else if place s x = place t y then 0 else 1) < 0 ↔ place s x < place t y := by
    split
    · simp [*]
    · split <;> simp [*]
  have h' : (if place s x < place t y then (-1 : ℤ) else if place s x = place t y then 0 else 1) = 0 ↔ place s x = place t y := by
    split
    · simp; omega
    · split <;> simp [*]
  simp only [Bool.or_eq_true, decide_eq_true_eq, h, Bool.and_eq_true, beq_iff_eq, h']
  cases s <;> cases t <;> simp [place] <;> omega

theorem minNum_of_not_nan {a b : Num} (ha : a ≠ .nan) (hb : b ≠ .nan) : minNum a b = if leTotal a b then a else b := by
  cases a <;> cases b <;> first | rfl | contradiction
theorem maxNum_of_not_nan {a b : Num} (ha : a ≠ .nan) (hb : b ≠ .nan) : maxNum a b = if leTotal a b then b else a := by
  cases a <;> cases b <;> first | rfl | contradiction
theorem minNum_nan_left (b : Num) : minNum .nan b = b := rfl
theorem minNum_nan_right (a : Num) : minNum a .nan = a := by cases a <;> rfl
theorem maxNum_nan_left (b : Num) : maxNum .nan b = b := rfl
theorem maxNum_nan_right (a : Num) : maxNum a .nan = a := by cases a <;> rfl

section
variable (hf : f.Sound) {p q : Nat} (hp : p < 2 ^ f.width) (hq : q < 2 ^ f.width)
include hf

include hq in
theorem fMin_nan_left (h : f.value p = .nan) (h' : f.value q ≠ .nan) : fMin f p q = q ∧ fMax f p q = q := by
  rw [fMin, fMax, h, minNum_nan_left, maxNum_nan_left, roundNum_value hf .rne false hq h']
  exact ⟨rfl, rfl⟩

include hp in
theorem fMin_nan_right (h : f.value p ≠ .nan) (h' : f.value q = .nan) : fMin f p q = p ∧ fMax f p q = p := by
  rw [fMin, fMax, h', minNum_nan_right, maxNum_nan_right, roundNum_value hf .rne false hp h]
  exact ⟨rfl, rfl⟩

include hp hq in
theorem fMin_of_not_nan (h : f.value p ≠ .nan) (h' : f.value q ≠ .nan) :
    fMin f p q = (if f.key p ≤ f.key q then p else q) ∧ fMax f p q = if f.key p ≤ f.key q then q else p := by
  rw [fMin, fMax, minNum_of_not_nan h h', maxNum_of_not_nan h h']
  simp only [leTotal_value hf hp hq h h']
  split
  · rw [roundNum_value hf .rne false hp h, roundNum_value hf .rne false hq h']; exact ⟨rfl, rfl⟩
  · rw [roundNum_value hf .rne false hp h, roundNum_value hf .rne false hq h']; exact ⟨rfl, rfl⟩

end

/-- A value is never marked as cut off. -/
theorem value_uncut {p : Nat} {neg : Bool} {m : Nat} {e : Int} {st : Bool} (h : f.value p = .fin neg m e st) : st = false := by
  unfold value at h
  dsimp only at h
  split_ifs at h <;> (cases h; rfl)

theorem value_is {p : Nat} {u : ℚ} (h : (f.value p).real = some u) : (f.value p).Is u := by
  cases hv : f.value p with
  | nan => rw [hv] at h; cases h
  | inf neg => rw [hv] at h; cases h
  | fin neg m e st =>
    obtain rfl := value_uncut hv
    rw [hv] at h
    exact ⟨neg, m, e, rfl, (Option.some.inj h).symm⟩

end FloatFmt

theorem sound_of_mem {f : FloatFmt} (h : f ∈ [FloatFmt.fp32, .bf16, .fp16, .e5m2, .e4m3, .e3m2, .e2m3, .e2m1, .fx48]) : f.Sound := by
  simp only [List.mem_cons, List.not_mem_nil, or_false] at h
  rcases h with rfl | rfl | rfl | rfl | rfl | rfl | rfl | rfl | rfl <;> exact ⟨by decide, by decide, by decide⟩

/-- The clauses about zeros, infinities and NaNs hold by the definitions of the operations, one case of each. -/
theorem special_operands (rm : Rm) (p q r : Bool) (m n : Nat) (e g : ℤ) :
    let a : Num := .fin p m e false
    let b : Num := .fin q n g false
    (m = 0 → n = 0 → ∃ k, (addNum rm a b).1 = .fin (if p = q then p else decide (rm = .rdn)) 0 k false) ∧
    (m = 0 ∨ n = 0 → ∃ k, (mulNum a b).1 = .fin (p != q) 0 k false) ∧
    addNum rm (.inf p) b = (.inf p, 0) ∧ addNum rm a (.inf q) = (.inf q, 0) ∧
    addNum rm (.inf p) (.inf q) = (if p = q then (.inf p, 0) else (.nan, flagNV)) ∧
    mulNum (.inf p) b = (if n = 0 then (.nan, flagNV) else (.inf (p != q), 0)) ∧
    mulNum a (.inf q) = (if m = 0 then (.nan, flagNV) else (.inf (p != q), 0)) ∧ mulNum (.inf p) (.inf q) = (.inf (p != q), 0) ∧
    cmpNum (.inf p) (.inf q) = some (if p = q then 0 else if p then -1 else 1) ∧
    cmpNum (.inf p) b = some (if p then -1 else 1) ∧ cmpNum a (.inf q) = some (if q then 1 else -1) ∧
    ∀ c : Num, addNum rm .nan c = (.nan, 0) ∧ addNum rm c .nan = (.nan, 0) ∧ mulNum .nan c = (.nan, 0) ∧ mulNum c .nan = (.nan, 0) ∧
      cmpNum .nan c = none ∧ cmpNum c .nan = none ∧ (Num.inf r).neg = .inf (!r) ∧ (Num.inf r).abs = .inf false ∧
      ∀ u v, fmaNum rm u v c = if (mulNum u v).2 = flagNV then (.nan, flagNV) else addNum rm (mulNum u v).1 c := by
  refine ⟨?_, ?_, rfl, rfl, rfl, rfl, rfl, rfl, rfl, rfl, rfl, fun c => ⟨rfl, by cases c <;> rfl, rfl, by cases c <;> rfl, rfl,
    by cases c <;> rfl, rfl, rfl, fun u v => fmaNum_eq rm u v c⟩⟩
  · rintro rfl rfl
    rw [addNum_fin]
    refine ⟨0, ?_⟩
    cases p <;> cases q <;> cases rm <;> simp [ofSigned, signedAt]
  · rintro (rfl | rfl)
    · exact ⟨_, by rw [mulNum_fin, Nat.zero_mul]⟩
    · exact ⟨_, by rw [mulNum_fin, Nat.mul_zero]⟩

theorem exactArithmetic : Claims.ExactArithmetic := by
  unfold Claims.ExactArithmetic
  refine ⟨fun rm a b c x y z ha hb hc => ?_, special_operands, fun f can hmem => ?_, fun f _ p u => FloatFmt.value_is, ofInt_is⟩
  · exact ⟨(addNum_is ha hb rm).1, (addNum_is ha hb rm).2, (mulNum_is ha hb).1, (mulNum_is ha hb).2, (fmaNum_is ha hb hc rm).1,
      (fmaNum_is ha hb hc rm).2, neg_is ha, abs_is ha, scale_is ha, cmpNum_is ha hb, addNum_cancel ha hb rm⟩
  · have hf : f.Sound ∧ f.nanPat = can := by
      simp only [List.mem_cons, List.not_mem_nil, or_false, Prod.mk.injEq] at hmem
      rcases hmem with ⟨rfl, rfl⟩ | ⟨rfl, rfl⟩ | ⟨rfl, rfl⟩ <;> exact ⟨sound_of_mem (by decide), by decide⟩
    obtain ⟨hf, rfl⟩ := hf
    refine ⟨fun rm sat => rfl, fun p q hp hq => ?_⟩
    intro key
    refine ⟨fun h h' => ?_, FloatFmt.fMin_nan_left hf hq, FloatFmt.fMin_nan_right hf hp, FloatFmt.fMin_of_not_nan hf hp hq⟩
    rw [fMin, fMax, h, h']
    exact ⟨rfl, rfl⟩

/-! ## Class S floating words (R101, R119) -/

theorem givesFloat_advance (s : State) (d : XReg) (v : Word) (lat : Nat) (fl : BitVec 5) :
    GivesFloat s d v lat fl (.next (s.resultF (.x d v) lat fl).advance) := ⟨_, rfl, moves_advance s _⟩

section Words
variable {s : State} (h : s.ready)
include h

/-- A word that is one scalar floating result. -/
theorem givesFloat_of_eq {o : Out} {d : XReg} {f : State → Nat × FlagSet} (e : o = onCore s fun s => scalarF s d (f s)) :
    GivesFloat s d (BitVec.ofNat 64 (f s).1) 4 (f s).2 o := by
  rw [e, onCore_ready h]
  exact givesFloat_advance s d _ 4 _

omit h in
theorem toNat_eq_ite (b : Bool) {p : Prop} [Decidable p] (hb : b = true ↔ p) : b.toNat = if p then 1 else 0 := by
  cases b <;> simp_all

omit h in
theorem fEq_iff (f : FloatFmt) (x y : Nat) : fEq f x y = true ↔ cmpNum (f.value x) (f.value y) = some 0 := beq_iff_eq
omit h in
theorem fLt_iff (f : FloatFmt) (x y : Nat) : fLt f x y = true ↔ cmpNum (f.value x) (f.value y) = some (-1) := beq_iff_eq
omit h in
theorem fLe_iff (f : FloatFmt) (x y : Nat) : fLe f x y = true ↔
    cmpNum (f.value x) (f.value y) = some 0 ∨ cmpNum (f.value x) (f.value y) = some (-1) := by
  rw [fLe, Bool.or_eq_true, fEq_iff, fLt_iff]

omit h in
theorem toInt32_fin (rm : Rm) (neg : Bool) (m : Nat) (e : Int) (st : Bool) : toInt32 rm (.fin neg m e st) =
    let r := roundInt rm neg m e st
    if r.1 < -2 ^ 31 then (BitVec.ofInt 64 (-2 ^ 31), flagNV) else if 2 ^ 31 ≤ r.1 then (0x7FFFFFFF, flagNV)
    else (BitVec.ofInt 64 r.1, if r.2 then flagNX else 0) := rfl

/-- FCVT.W.S gives the integer of its operand's case. -/
theorem exec_fcvtWS_gives (d a : XReg) {i : Int} {fl : FlagSet}
    (e : toInt32 s.me.rm (FloatFmt.fp32.value (s.fp a)) = (BitVec.ofInt 64 i, fl)) :
    GivesFloat s d (BitVec.ofInt 64 i) 4 fl (exec (.fcvtWS d a) s) := by
  rw [exec_fcvtWS, execFcvtWS, onCore_ready h, e]
  exact givesFloat_advance s d _ 4 _

end Words

theorem scalarFloatWords : Claims.ScalarFloatWords := by
  unfold Claims.ScalarFloatWords
  intro s h d a b x y z rm F gives
  have hx : (BitVec.ofNat 32 x) = (s.rx a).setWidth 32 := by
    apply BitVec.eq_of_toNat_eq
    simp [x]
  refine ⟨givesFloat_of_eq h (exec_faddS ..), givesFloat_of_eq h (exec_fsubS ..), givesFloat_of_eq h (exec_fmulS ..),
    givesFloat_of_eq h (exec_fmaS ..), givesFloat_of_eq h (exec_fminS ..), givesFloat_of_eq h (exec_fmaxS ..), ?_, ?_, ?_, ?_,
    givesFloat_of_eq h (exec_fcvtSBf ..), givesFloat_of_eq h (exec_fcvtBfS ..), ?_⟩
  · have e := givesFloat_of_eq h (exec_feqS d a b s)
    rwa [toNat_eq_ite _ (fEq_iff ..)] at e
  · have e := givesFloat_of_eq h (exec_fltS d a b s)
    rwa [toNat_eq_ite _ (fLt_iff ..)] at e
  · have e := givesFloat_of_eq h (exec_fleS d a b s)
    rwa [toNat_eq_ite _ (fLe_iff ..)] at e
  · rw [hx]; exact givesFloat_of_eq h (exec_fcvtSW ..)
  · intro w
    have gives (i : Int) (fl : FlagSet) (e : toInt32 rm (F.value x) = (BitVec.ofInt 64 i, fl)) : w i fl := exec_fcvtWS_gives h d a e
    cases hv : F.value x with
    | nan => exact gives _ _ (by rw [hv]; rfl)
    | inf neg => exact gives _ _ (by rw [hv]; cases neg <;> rfl)
    | fin neg m e st =>
      dsimp only
      split
      · exact gives _ _ (by rw [hv, toInt32_fin, if_pos ‹_›])
      · split
        · exact gives _ _ (by rw [hv, toInt32_fin, if_neg ‹_›, if_pos (by omega)]; rfl)
        · exact gives _ _ (by rw [hv, toInt32_fin, if_neg ‹_›, if_neg (by omega)])

/-- Settles O11: each word is one floating result (`givesFloat_of_eq`), and the operations are those of the exact numbers. -/
theorem scalarFloating : Obligations.ScalarFloating := ⟨scalarFloatWords, exactArithmetic⟩

end Sys2Proof.Machine
end

section
namespace Sys2Proof.Machine
open Sys2Proof

/-! ## Quotients (R157) -/

theorem ne_zero_of_is {neg : Bool} {m : Nat} {e : Int} {x : ℚ} (h : x = signOf neg * m * 2 ^ e) (hx : x ≠ 0) : m ≠ 0 := by
  rintro rfl
  simp [h] at hx

theorem neg_iff_of_is {neg : Bool} {m : Nat} {e : Int} {x : ℚ} (h : x = signOf neg * m * 2 ^ e) (hx : x ≠ 0) : x < 0 ↔ neg = true := by
  have hm : (0 : ℚ) < m := by exact_mod_cast Nat.pos_of_ne_zero (ne_zero_of_is h hx)
  have hp : (0 : ℚ) < m * 2 ^ e := by positivity
  subst h
  rw [mul_assoc]
  cases neg <;> simp [signOf, hp, hp.le]

theorem abs_of_is {neg : Bool} {m : Nat} {e : Int} {x : ℚ} (h : x = signOf neg * m * 2 ^ e) : |x| = m * 2 ^ e := by
  rw [h, mul_assoc, abs_signOf_mul, abs_of_nonneg (by positivity)]

/-- The floor of a scaled quotient and its sticky mark stand for the quotient. -/
theorem stands_floor {neg : Bool} {t n k : Nat} {e : Int} (hn : n ≠ 0) (hbig : t % n ≠ 0 → 2 ^ 128 ≤ t / n) {y : ℚ}
    (hy : y = (t : ℚ) / n * 2 ^ (e - k)) :
    (Num.fin neg (t / n) (e - k) (t % n != 0)).Stands neg (fun u => u = y) (fun u => u < y) (fun u => y < u) := by
  have hz : (0 : ℚ) < 2 ^ (e - k) := by positivity
  have hn0 : (0 : ℚ) < n := by exact_mod_cast Nat.pos_of_ne_zero hn
  have hdiv : (t : ℚ) = n * (t / n : Nat) + (t % n : Nat) := by exact_mod_cast (Nat.div_add_mod t n).symm
  refine ⟨_, _, _, rfl, fun hst => ?_, fun hst => ?_⟩
  · have h0 : t % n = 0 := by simpa using hst
    rw [hy, hdiv, h0]
    field_simp
    simp
  · have h0 : t % n ≠ 0 := by simpa using hst
    have hr0 : (0 : ℚ) < (t % n : Nat) := by exact_mod_cast Nat.pos_of_ne_zero h0
    have hr1 : ((t % n : Nat) : ℚ) < n := by exact_mod_cast Nat.mod_lt t (Nat.pos_of_ne_zero hn)
    refine ⟨hbig h0, ?_, ?_⟩
    · rw [hy]
      refine mul_lt_mul_of_pos_right ?_ hz
      rw [lt_div_iff₀ hn0, hdiv]; linarith
    · rw [hy]
      refine mul_lt_mul_of_pos_right ?_ hz
      rw [div_lt_iff₀ hn0, hdiv]; linarith

theorem quotient_stands (neg : Bool) {m n : Nat} (hn : n ≠ 0) (e : Int) {y : ℚ} (hy : y = (m : ℚ) / n * 2 ^ e) :
    (quotient neg m n e).Stands neg (fun u => u = y) (fun u => u < y) (fun u => y < u) := by
  refine stands_floor hn (fun hr => ?_) ?_
  · have hm : 1 ≤ m := Nat.one_le_iff_ne_zero.mpr (by rintro rfl; simp at hr)
    rw [Nat.le_div_iff_mul_le (Nat.pos_of_ne_zero hn)]
    calc 2 ^ 128 * n ≤ 2 ^ 128 * 2 ^ (Nat.log2 n + 1) := Nat.mul_le_mul_left _ Nat.lt_log2_self.le
      _ = 2 ^ (129 + Nat.log2 n) := by rw [← pow_add]; congr 1; omega
      _ ≤ 2 ^ (160 + Nat.log2 n) := Nat.pow_le_pow_right (by omega) (by omega)
      _ ≤ m * 2 ^ (160 + Nat.log2 n) := Nat.le_mul_of_pos_left _ hm
  · rw [hy, zpow_sub₀ two_ne_zero, zpow_natCast]
    push_cast
    field_simp

theorem div_neg_iff_ne {x y : ℚ} (hx : x ≠ 0) (hy : y ≠ 0) : x / y < 0 ↔ ¬ (x < 0 ↔ y < 0) := by
  rw [div_neg_iff]
  rcases lt_or_gt_of_ne hx with h | h <;> rcases lt_or_gt_of_ne hy with h' | h' <;> simp [h, h', h.not_gt, h'.not_gt]

theorem divNum_stands {a b : Num} {x y : ℚ} (ha : a.Is x) (hb : b.Is y) (hy : y ≠ 0) : ∃ neg, (divNum a b).2 = 0 ∧
    (x / y ≠ 0 → (neg = true ↔ x / y < 0)) ∧
    (divNum a b).1.Stands neg (fun u => u = |x / y|) (fun u => u < |x / y|) (fun u => |x / y| < u) := by
  obtain ⟨p, m, e, rfl, hx⟩ := ha
  obtain ⟨q, n, g, rfl, hy'⟩ := hb
  have hn := ne_zero_of_is hy' hy
  have hd : divNum (.fin p m e false) (.fin q n g false) = (quotient (p != q) m n (e - g), 0) := if_neg hn
  have habs : |x / y| = (m : ℚ) / n * 2 ^ (e - g) := by
    rw [abs_div, abs_of_is hx, abs_of_is hy', zpow_sub₀ two_ne_zero]
    field_simp
  refine ⟨p != q, by rw [hd], fun h0 => ?_, by rw [hd, habs]; exact quotient_stands _ hn _ rfl⟩
  have hx0 : x ≠ 0 := fun h => h0 (by rw [h, zero_div])
  rw [div_neg_iff_ne hx0 hy, neg_iff_of_is hx hx0, neg_iff_of_is hy' hy]
  cases p <;> cases q <;> simp

theorem rcpNum_stands {a : Num} {x : ℚ} (ha : a.Is x) (hx : x ≠ 0) : (rcpNum a).2 = 0 ∧
    (rcpNum a).1.Stands (decide (x < 0)) (fun u => u * |x| = 1) (fun u => u * |x| < 1) (fun u => 1 < u * |x|) := by
  obtain ⟨p, m, e, rfl, hx'⟩ := ha
  have hm := ne_zero_of_is hx' hx
  have hr : rcpNum (.fin p m e false) = (quotient p 1 m (-e), 0) := if_neg hm
  have hp : decide (x < 0) = p := by rw [Bool.eq_iff_iff, decide_eq_true_eq, neg_iff_of_is hx' hx]
  have hpos : (0 : ℚ) < |x| := abs_pos.mpr hx
  have hy : 1 / |x| = ((1 : Nat) : ℚ) / m * 2 ^ (-e) := by
    rw [abs_of_is hx', zpow_neg]; push_cast; field_simp
  obtain ⟨M, E, st, h, h1, h2⟩ := quotient_stands p hm (-e) hy
  rw [hr, hp]
  refine ⟨rfl, M, E, st, h, fun hs => ?_, fun hs => ?_⟩
  · exact (eq_div_iff hpos.ne').mp (h1 hs)
  · obtain ⟨h3, h4, h5⟩ := h2 hs
    exact ⟨h3, (lt_div_iff₀ hpos).mp h4, (div_lt_iff₀ hpos).mp h5⟩

/-! ## Roots (R157) -/

/-- isqrt is the floor of the root where its fuel covers the number. -/
theorem isqrt_spec (fuel : Nat) {n : Nat} (h : n < 4 ^ fuel) : isqrt fuel n * isqrt fuel n ≤ n ∧ n < (isqrt fuel n + 1) * (isqrt fuel n + 1) := by
  induction fuel generalizing n with
  | zero => simp at h; simp [h, isqrt]
  | succ fuel ih =>
    obtain ⟨h1, h2⟩ := ih (n := n / 4) (by rw [pow_succ] at h; omega)
    rw [isqrt]
    generalize isqrt fuel (n / 4) = r at h1 h2
    have h3 := Nat.div_add_mod n 4
    have h4 := Nat.mod_lt n (show 0 < 4 by omega)
    split
    · next hle => exact ⟨hle, by nlinarith⟩
    · next hlt =>
      have h5 : 2 * r * (2 * r) = 4 * (r * r) := by ring
      exact ⟨by omega, by omega⟩

theorem lt_four_pow (n : Nat) : n < 4 ^ (Nat.log2 n / 2 + 1) := by
  calc n < 2 ^ (Nat.log2 n + 1) := Nat.lt_log2_self
    _ ≤ 2 ^ (2 * (Nat.log2 n / 2 + 1)) := Nat.pow_le_pow_right (by omega) (by omega)
    _ = 4 ^ (Nat.log2 n / 2 + 1) := pow_mul 2 2 _

/-- The floor of the root of a long number has half as many bits. -/
theorem isqrt_long {n k : Nat} (h : 2 ^ (2 * k) ≤ n) : 2 ^ k ≤ isqrt (Nat.log2 n / 2 + 1) n := by
  obtain ⟨-, h2⟩ := isqrt_spec _ (lt_four_pow n)
  by_contra hlt
  have h3 : isqrt (Nat.log2 n / 2 + 1) n + 1 ≤ 2 ^ k := by omega
  have h4 := Nat.mul_le_mul h3 h3
  rw [← pow_add, ← two_mul] at h4
  omega

theorem is_pos_cases {a : Num} {x : ℚ} (ha : a.Is x) (hx : 0 < x) : ∃ m e, m ≠ 0 ∧ a = .fin false m e false ∧ x = m * 2 ^ e := by
  obtain ⟨p, m, e, rfl, hx'⟩ := ha
  have hp : ¬ p = true := fun h => hx.le.not_gt ((neg_iff_of_is hx' hx.ne').mpr h)
  obtain rfl : p = false := by simpa using hp
  exact ⟨m, e, ne_zero_of_is hx' hx.ne', rfl, by simpa using hx'⟩

theorem is_neg_cases {a : Num} {x : ℚ} (ha : a.Is x) (hx : x < 0) : ∃ m e, m ≠ 0 ∧ a = .fin true m e false := by
  obtain ⟨p, m, e, rfl, hx'⟩ := ha
  obtain rfl := (neg_iff_of_is hx' hx.ne).mp hx
  exact ⟨m, e, ne_zero_of_is hx' hx.ne, rfl⟩

theorem sqrtNum_neg {a : Num} {x : ℚ} (ha : a.Is x) (hx : x < 0) : sqrtNum a = (.nan, flagNV) ∧ rsqNum a = (.nan, flagNV) := by
  obtain ⟨m, e, hm, rfl⟩ := is_neg_cases ha hx
  exact ⟨by rw [sqrtNum, if_neg hm]; rfl, by rw [rsqNum, if_neg hm]; rfl⟩

theorem sq_mul_zpow (m : ℚ) (j : Int) : (m * 2 ^ j) ^ 2 = m ^ 2 * 2 ^ (2 * j) := by
  rw [mul_pow, two_mul, zpow_add₀ two_ne_zero, sq (2 ^ j : ℚ)]

theorem sqrtNum_stands {a : Num} {x : ℚ} (ha : a.Is x) (hx : 0 < x) : (sqrtNum a).2 = 0 ∧
    (sqrtNum a).1.Stands false (fun u => u ^ 2 = x) (fun u => u ^ 2 < x) (fun u => x < u ^ 2) := by
  obtain ⟨m, e, hm, rfl, rfl⟩ := is_pos_cases ha hx
  obtain ⟨j, hj⟩ : ∃ j, j = (e - 320) / 2 := ⟨_, rfl⟩
  obtain ⟨n, hn⟩ : ∃ n, n = m * 2 ^ (e - 2 * j).toNat := ⟨_, rfl⟩
  obtain ⟨r, hr⟩ : ∃ r, r = isqrt (Nat.log2 n / 2 + 1) n := ⟨_, rfl⟩
  have hs : sqrtNum (.fin false m e false) = (.fin false r j (r * r != n), 0) := by
    subst hr hn hj
    rw [sqrtNum, if_neg hm, if_neg Bool.false_ne_true]
  have hval : (m : ℚ) * 2 ^ e = n * 2 ^ (2 * j) := by
    rw [← scaled_mul m e (2 * j), scaled_fine m (by omega), ← hn]
  have hz : (0 : ℚ) < 2 ^ (2 * j) := by positivity
  obtain ⟨h1, h2⟩ := isqrt_spec _ (lt_four_pow n)
  rw [← hr] at h1 h2
  rw [hs]
  refine ⟨rfl, r, j, _, rfl, fun hst => ?_, fun hst => ?_⟩
  · have he : r * r = n := by simpa using hst
    dsimp only
    rw [sq_mul_zpow, hval, ← he]; push_cast; ring
  · have hne : r * r ≠ n := by simpa using hst
    have hlong : 2 ^ (2 * 128) ≤ n := by
      rw [hn]
      exact (Nat.pow_le_pow_right (by omega) (by omega)).trans (Nat.le_mul_of_pos_left _ (Nat.pos_of_ne_zero hm))
    refine ⟨hr ▸ isqrt_long hlong, ?_, ?_⟩
    · dsimp only
      rw [sq_mul_zpow, hval]
      refine mul_lt_mul_of_pos_right ?_ hz
      rw [sq]; exact_mod_cast lt_of_le_of_ne h1 hne
    · dsimp only
      rw [sq_mul_zpow, hval]
      refine mul_lt_mul_of_pos_right ?_ hz
      rw [sq]; exact_mod_cast h2

theorem rsqNum_stands {a : Num} {x : ℚ} (ha : a.Is x) (hx : 0 < x) : (rsqNum a).2 = 0 ∧
    (rsqNum a).1.Stands false (fun u => u ^ 2 * x = 1) (fun u => u ^ 2 * x < 1) (fun u => 1 < u ^ 2 * x) := by
  obtain ⟨m, e, hm, rfl, rfl⟩ := is_pos_cases ha hx
  obtain ⟨n, hn⟩ : ∃ n, n = if e % 2 = 0 then m else 2 * m := ⟨_, rfl⟩
  obtain ⟨k, hk⟩ : ∃ k, k = 200 + Nat.log2 n := ⟨_, rfl⟩
  obtain ⟨q, hq⟩ : ∃ q, q = 2 ^ (2 * k) / n := ⟨_, rfl⟩
  obtain ⟨r, hr⟩ : ∃ r, r = isqrt (Nat.log2 q / 2 + 1) q := ⟨_, rfl⟩
  have hs : rsqNum (.fin false m e false) = (.fin false r (-(e / 2) - k) (r * r * n != 2 ^ (2 * k)), 0) := by
    subst hr hq hk hn
    rw [rsqNum, if_neg hm, if_neg Bool.false_ne_true]
  have hn0 : n ≠ 0 := by rw [hn]; split <;> omega
  have hval : (m : ℚ) * 2 ^ e = n * 2 ^ (2 * (e / 2)) := by
    rw [hn]
    split
    · congr 2; omega
    · nth_rw 1 [show e = 2 * (e / 2) + 1 by omega]
      rw [zpow_add_one₀ two_ne_zero]; push_cast; ring
  -- in units of 2^(-2k) the square of a number u × 2^(-e/2 - k), times x, is u² n
  have hsq : ∀ u : ℚ, (u * 2 ^ (-(e / 2) - k : ℤ)) ^ 2 * (m * 2 ^ e) = u ^ 2 * n / 2 ^ (2 * k) := fun u => by
    have hp : (2 : ℚ) ^ (2 * (-(e / 2) - (k : ℤ))) * 2 ^ (2 * (e / 2)) = (2 ^ (2 * k))⁻¹ := by
      rw [← zpow_add₀ two_ne_zero, ← zpow_natCast, ← zpow_neg]
      congr 1; push_cast; ring
    rw [sq_mul_zpow, hval, div_eq_mul_inv, ← hp]; ring
  have h2k : (0 : ℚ) < 2 ^ (2 * k) := by positivity
  obtain ⟨h1, h2⟩ := isqrt_spec _ (lt_four_pow q)
  rw [← hr] at h1 h2
  have hlo : r * r * n ≤ 2 ^ (2 * k) := (Nat.mul_le_mul_right n h1).trans (hq ▸ Nat.div_mul_le_self _ _)
  have hhi : 2 ^ (2 * k) < (r + 1) * (r + 1) * n := by
    refine (Nat.div_lt_iff_lt_mul (Nat.pos_of_ne_zero hn0)).mp ?_
    rwa [← hq]
  rw [hs]
  refine ⟨rfl, r, _, _, rfl, fun hst => ?_, fun hst => ?_⟩
  · have he : r * r * n = 2 ^ (2 * k) := by simpa using hst
    dsimp only
    rw [hsq, div_eq_one_iff_eq h2k.ne', sq]; exact_mod_cast he
  · have hne : r * r * n ≠ 2 ^ (2 * k) := by simpa using hst
    have hlong : 2 ^ (2 * 128) ≤ q := by
      rw [hq, Nat.le_div_iff_mul_le (Nat.pos_of_ne_zero hn0)]
      calc 2 ^ (2 * 128) * n ≤ 2 ^ (2 * 128) * 2 ^ (Nat.log2 n + 1) := Nat.mul_le_mul_left _ Nat.lt_log2_self.le
        _ = 2 ^ (2 * 128 + (Nat.log2 n + 1)) := (pow_add ..).symm
        _ ≤ 2 ^ (2 * k) := Nat.pow_le_pow_right (by omega) (by omega)
    refine ⟨hr ▸ isqrt_long hlong, ?_, ?_⟩
    · dsimp only
      rw [hsq, div_lt_one h2k, sq]; exact_mod_cast lt_of_le_of_ne hlo hne
    · dsimp only
      rw [hsq, one_lt_div h2k, sq]; exact_mod_cast hhi

/-! ## Exact cases of the functions (R157) -/

theorem fixOne_pos : 0 < fixOne := Nat.two_pow_pos _

/-- An integer in fixed point. -/
theorem toFix_of_int {m : Nat} {e : Int} {k : Nat} (h : (m : ℚ) * 2 ^ e = k) : toFix m e = k * fixOne := by
  have hk : (m : ℚ) * 2 ^ (e - -(fixBits : ℤ)) = ((k * fixOne : Nat) : ℚ) := by
    rw [sub_neg_eq_add, zpow_add₀ two_ne_zero, ← mul_assoc, h, zpow_natCast]; push_cast; rw [fixOne]; push_cast; rfl
  unfold toFix
  split
  · next h0 =>
    rw [scaled_fine m (by omega), Nat.cast_inj, sub_neg_eq_add] at hk
    exact hk
  · next h0 =>
    obtain ⟨d, hd⟩ : ∃ d : Nat, -(e + fixBits) = d := ⟨(-(e + fixBits)).toNat, by omega⟩
    rw [show e - -(fixBits : ℤ) = -(d : ℤ) by omega, zpow_neg, zpow_natCast, ← div_eq_mul_inv, div_eq_iff (by positivity)] at hk
    have hm : m = k * fixOne * 2 ^ d := by exact_mod_cast hk
    rw [hd, Int.toNat_natCast, hm, Nat.mul_div_cancel _ (Nat.two_pow_pos _)]

theorem exp2Num_int {a : Num} {x : ℤ} (ha : a.Is x) (hx : |x| < 2 ^ 12) : (exp2Num a).1.Is (2 ^ x) ∧ (exp2Num a).2 = 0 := by
  obtain ⟨p, m, e, rfl, hv⟩ := ha
  have habs := abs_of_is hv
  have hnat : (m : ℚ) * 2 ^ e = (x.natAbs : ℚ) := by rw [← habs, Nat.cast_natAbs, Int.cast_abs]
  by_cases hm : m = 0
  · obtain rfl : x = 0 := by subst hm; simpa using hv
    rw [exp2Num, if_pos hm]
    exact ⟨is_fin_iff.mpr (by simp [signOf]), rfl⟩
  · have hsmall : ¬ 12 ≤ (Nat.log2 m : Int) + e := fun h => by
      have h1 : (2 : ℚ) ^ (12 : ℤ) ≤ 2 ^ ((Nat.log2 m : Int) + e) := zpow_le_zpow_right₀ one_le_two h
      rw [zpow_add₀ two_ne_zero, zpow_natCast] at h1
      have h2 := h1.trans (mul_le_mul_of_nonneg_right (two_pow_log2_le hm) (by positivity))
      rw [← habs] at h2
      have h3 : |(x : ℚ)| < 2 ^ 12 := by exact_mod_cast hx
      exact absurd (h2.trans_lt h3) (by norm_num)
    have hX : (if p then -1 else 1) * (toFix m e : Int) = x * fixOne := by
      have hxs : x = (if p then -1 else 1) * (x.natAbs : ℤ) := by
        have hq : (x : ℚ) = (((if p then -1 else 1) * (x.natAbs : ℤ) : ℤ) : ℚ) := by
          rw [hv, mul_assoc, hnat]
          cases p <;> simp
        exact_mod_cast hq
      rw [toFix_of_int hnat]
      nth_rw 2 [hxs]
      push_cast; ring
    have hpos : (0 : ℤ) < fixOne := by exact_mod_cast fixOne_pos
    have he : exp2Num (.fin p m e false) = (.fin false 1 x false, 0) := by
      rw [exp2Num, if_neg hm, if_neg hsmall, hX]
      dsimp only
      rw [Int.mul_ediv_cancel _ hpos.ne', Int.mul_emod_left, Int.toNat_zero, if_pos rfl]
    rw [he]
    exact ⟨is_fin_iff.mpr (by simp [signOf]), rfl⟩

theorem value_sig_lt {f : FloatFmt} {p : Nat} {neg : Bool} {m : Nat} {e : Int} {st : Bool} (h : f.value p = .fin neg m e st) :
    m < 2 ^ (f.mbits + 1) := by
  have h2 := Nat.mod_lt p (Nat.two_pow_pos f.mbits)
  rw [pow_succ]
  unfold FloatFmt.value at h
  dsimp only at h
  split_ifs at h <;> cases h <;> omega

/-- The significand of a power of two is a power of two. -/
theorem sig_of_two_pow {m : Nat} {e k : ℤ} (h : (m : ℚ) * 2 ^ e = 2 ^ k) : m = 2 ^ Nat.log2 m ∧ (Nat.log2 m : ℤ) + e = k := by
  have hm : (m : ℚ) = 2 ^ (k - e) := by rw [zpow_sub₀ two_ne_zero, ← h]; field_simp
  have h0 : m ≠ 0 := by rintro rfl; exact absurd hm (by simp; positivity)
  have hk : 0 ≤ k - e := by
    by_contra hlt
    have h1 : (2 : ℚ) ^ (k - e) < 1 := zpow_lt_one_of_neg₀ one_lt_two (by omega)
    have h2 : (1 : ℚ) ≤ m := by exact_mod_cast Nat.one_le_iff_ne_zero.mpr h0
    linarith
  obtain ⟨d, hd⟩ := Int.eq_ofNat_of_zero_le hk
  rw [hd, zpow_natCast] at hm
  have hm' : m = 2 ^ d := by exact_mod_cast hm
  rw [hm', Nat.log2_two_pow]
  exact ⟨rfl, by omega⟩

theorem log2Num_two_pow {p : Nat} {k : ℤ} (ha : (value32 p).Is (2 ^ k)) : log2Num (value32 p) = (ofInt k, 0) := by
  obtain ⟨m, e, hm, hv, hx⟩ := is_pos_cases ha (by positivity)
  obtain ⟨hpow, hlog⟩ := sig_of_two_pow hx.symm
  have hlt : m < 2 ^ 24 := value_sig_lt hv
  have hl : Nat.log2 m ≤ fixBits := by
    have h1 := (Nat.log2_lt hm).mpr hlt
    have h2 : 24 ≤ fixBits := by decide
    omega
  have hy : m * 2 ^ (fixBits - Nat.log2 m) = fixOne := by
    nth_rw 1 [hpow]
    rw [← pow_add, Nat.add_sub_cancel' hl, fixOne]
  rw [hv, log2Num, if_neg hm, if_neg Bool.false_ne_true]
  dsimp only
  rw [if_pos hy, hlog]

theorem tanhNum_zero {a : Num} (ha : a.Is 0) : (tanhNum a).1.Is 0 ∧ (sigmNum a).1.Is (1 / 2) := by
  have hz := ha
  obtain ⟨p, m, e, rfl, hx⟩ := ha
  have hm : m = 0 := by
    have h := (abs_of_is hx).symm
    rw [abs_zero] at h
    exact_mod_cast (mul_eq_zero.mp h).resolve_right (by positivity)
  rw [tanhNum, sigmNum, if_pos hm, if_pos hm]
  exact ⟨hz, is_fin_iff.mpr (by norm_num [signOf])⟩

/-! ## Special operands (R157) -/

theorem sound_fp32 : FloatFmt.fp32.Sound := sound_of_mem (by decide)

/-- What a pattern of FP32 is, by its sign and its other bits. -/
theorem value32_split {p : Nat} (hp : p < 2 ^ 32) : ∃ s : Bool, p / 2 ^ 31 = s.toNat ∧
    (p % 2 ^ 31 < 0x7F800000 → ∃ m e, value32 p = .fin s m e false ∧ (m = 0 ↔ p % 2 ^ 31 = 0)) ∧
    (p % 2 ^ 31 = 0x7F800000 → value32 p = .inf s) ∧ (0x7F800000 < p % 2 ^ 31 → value32 p = .nan) := by
  obtain ⟨s, x, hx, rfl⟩ := FloatFmt.exists_signBit_add (f := .fp32) hp
  have hx31 : x < 2 ^ 31 := hx
  have hs : FloatFmt.fp32.signBit s = 2 ^ 31 * s.toNat := by cases s <;> rfl
  have hmod : (FloatFmt.fp32.signBit s + x) % 2 ^ 31 = x := by rw [hs, Nat.mul_add_mod, Nat.mod_eq_of_lt hx31]
  have hmax : FloatFmt.fp32.maxPat = 0x7F7FFFFF := by decide
  rw [hmod]
  refine ⟨s, by rw [hs, Nat.mul_add_div (by norm_num), Nat.div_eq_of_lt hx31, Nat.add_zero], fun h => ?_, ?_, fun h => ?_⟩
  · refine ⟨_, _, FloatFmt.value_finite sound_fp32 s (by omega), FloatFmt.sig_eq_zero, ?_⟩
    rintro rfl; decide
  · rintro rfl
    exact FloatFmt.value_infPat sound_fp32 rfl s
  · exact FloatFmt.value_above_inf sound_fp32 rfl s (by omega) hx

/-- The sign bit of FP32. -/
def bit31 (s : Bool) : Nat := if s then 2 ^ 31 else 0

theorem fp32Of_nan (rm : Rm) (fl : FlagSet) : fp32Of rm (.nan, fl) = (0x7FC00000, fl) := congrArg _ (BitVec.or_zero ..)
theorem fp32Of_inf (rm : Rm) (s : Bool) (fl : FlagSet) : fp32Of rm (.inf s, fl) = (bit31 s + 0x7F800000, fl) := by
  refine Prod.ext ?_ (BitVec.or_zero ..)
  cases s <;> rfl
theorem fp32Of_zero (rm : Rm) (s : Bool) (e : Int) (fl : FlagSet) : fp32Of rm (.fin s 0 e false, fl) = (bit31 s, fl) := by
  refine Prod.ext ?_ (BitVec.or_zero ..)
  cases s <;> rfl

theorem bit31_xor {p q : Nat} {s t : Bool} (hs : p / 2 ^ 31 = s.toNat) (ht : q / 2 ^ 31 = t.toNat) :
    bit31 (s != t) = if p / 2 ^ 31 = q / 2 ^ 31 then 0 else 2 ^ 31 := by
  rw [hs, ht]
  cases s <;> cases t <;> rfl

/-- The special operands of VFDIV. -/
theorem divNum_special (rm : Rm) {p q : Nat} (hp : p < 2 ^ 32) (hq : q < 2 ^ 32) :
    let a := p % 2 ^ 31
    let b := q % 2 ^ 31
    let z0 := if p / 2 ^ 31 = q / 2 ^ 31 then 0 else 2 ^ 31
    let r := fp32Of rm (divNum (value32 p) (value32 q))
    (0 < a → a < 0x7F800000 → b = 0 → r = (z0 + 0x7F800000, flagDZ)) ∧
    ((a = 0 ∧ b = 0) ∨ (a = 0x7F800000 ∧ b = 0x7F800000) → r = (0x7FC00000, flagNV)) ∧
    (0x7F800000 < a ∨ 0x7F800000 < b → r = (0x7FC00000, 0)) ∧
    (a = 0x7F800000 → b < 0x7F800000 → r = (z0 + 0x7F800000, 0)) ∧
    (a < 0x7F800000 → b = 0x7F800000 → r = (z0, 0)) ∧ (a = 0 → 0 < b → b < 0x7F800000 → r = (z0, 0)) := by
  intro a b z0 r
  obtain ⟨s, hs, hfin, hinf, hnan⟩ := value32_split hp
  obtain ⟨t, ht, hfin', hinf', hnan'⟩ := value32_split hq
  have hz : z0 = bit31 (s != t) := (bit31_xor hs ht).symm
  simp only [hz, r]
  refine ⟨fun h0 ha hb => ?_, ?_, ?_, fun ha hb => ?_, fun ha hb => ?_, fun h0 hb0 hb => ?_⟩
  · obtain ⟨m, e, hv, hm⟩ := hfin ha
    obtain ⟨n, g, hv', hn⟩ := hfin' (hb.trans_lt (by norm_num))
    rw [hv, hv', divNum, if_pos (hn.mpr hb), if_neg fun h => h0.ne' (hm.mp h), fp32Of_inf]
  · rintro (⟨ha, hb⟩ | ⟨ha, hb⟩)
    · obtain ⟨m, e, hv, hm⟩ := hfin (ha.trans_lt (by norm_num))
      obtain ⟨n, g, hv', hn⟩ := hfin' (hb.trans_lt (by norm_num))
      rw [hv, hv', divNum, if_pos (hn.mpr hb), if_pos (hm.mpr ha), fp32Of_nan]
    · rw [hinf ha, hinf' hb]; exact fp32Of_nan ..
  · rintro (ha | hb)
    · rw [hnan ha]; exact fp32Of_nan ..
    · rw [hnan' hb, show divNum (value32 p) .nan = (.nan, 0) by cases value32 p <;> rfl, fp32Of_nan]
  · obtain ⟨n, g, hv', hn⟩ := hfin' hb
    rw [hinf ha, hv']; exact fp32Of_inf ..
  · obtain ⟨m, e, hv, hm⟩ := hfin ha
    rw [hinf' hb, hv]; exact fp32Of_zero ..
  · obtain ⟨m, e, hv, hm⟩ := hfin (h0.trans_lt (by norm_num))
    obtain ⟨n, g, hv', hn⟩ := hfin' hb
    rw [hv, hv', divNum, if_neg fun h => hb0.ne' (hn.mp h), hm.mpr h0, quotient, Nat.zero_mul, Nat.zero_div, Nat.zero_mod]
    exact fp32Of_zero ..

theorem exactQuotientsAndRoots : Claims.ExactQuotientsAndRoots := by
  unfold Claims.ExactQuotientsAndRoots
  refine ⟨fun a b x y => divNum_stands, fun a x => sqrtNum_stands, fun a x => sqrtNum_neg, fun a x => rcpNum_stands, fun a x => rsqNum_stands,
    fun a x => exp2Num_int, fun p k h => ?_, fun a => tanhNum_zero, fun rm => ?_⟩
  · rw [log2Num_two_pow h]; exact ⟨ofInt_is k, rfl⟩
  intro can row
  refine ⟨?_, ?_, ?_, ?_, ?_, fun p hlt hp => ?_, fun p hlo hhi f hf => ?_, fun p q hp hq => ?_⟩
  · cases rm <;> decide
  · cases rm <;> decide
  · cases rm <;> decide
  · cases rm <;> decide
  · have h1 : (value32 0x3F800000).Is (2 ^ (0 : ℤ)) := by
      rw [show value32 0x3F800000 = .fin false (2 ^ 23) (-23) false by decide]
      exact is_fin_iff.mpr (by norm_num [signOf])
    rw [log2Num_two_pow h1]
    exact fp32Of_zero ..
  · obtain ⟨s, -, -, -, hnan⟩ := value32_split hp
    simp only [row, hnan hlt, List.map_cons, List.map_nil]
    exact congrArg (List.replicate 7) (fp32Of_nan rm 0)
  · obtain ⟨s, hs, hfin, -, -⟩ := value32_split (p := p) (by omega)
    obtain ⟨m, e, hv, hm⟩ := hfin (by omega)
    obtain rfl : s = true := by cases s <;> simp at hs ⊢; omega
    have hm0 : m ≠ 0 := fun h => by have := hm.mp h; omega
    have hn : f (value32 p) = (.nan, flagNV) := by
      simp only [List.mem_cons, List.not_mem_nil, or_false] at hf
      rcases hf with rfl | rfl | rfl
      · rw [hv, sqrtNum, if_neg hm0]; rfl
      · rw [hv, rsqNum, if_neg hm0]; rfl
      · rw [hv, log2Num, if_neg hm0]; rfl
    rw [hn]; exact fp32Of_nan ..
  · exact divNum_special rm hp hq

end Sys2Proof.Machine
end

section
namespace Sys2Proof.Machine
open Sys2Proof

/-! ## A class V word that issues (R69, R76, R79, R171) -/

theorem nodup_eraseDups {α : Type} [BEq α] [LawfulBEq α] (l : List α) : l.eraseDups.Nodup := by
  induction h : l.length using Nat.strong_induction_on generalizing l with
  | _ n ih =>
    cases l with
    | nil => simp
    | cons a l =>
      rw [List.eraseDups_cons, List.nodup_cons]
      refine ⟨by simp, ih _ ?_ _ rfl⟩
      subst h
      exact Nat.lt_succ_of_le (List.length_filter_le _ _)

/-- s' is s but for its moving strand or core, which is y there. -/
structure ButMe (s s' : State) (y : Hart) : Prop where
  cur : s'.cur = s.cur
  me : s'.hart s.cur = y
  put : ∀ z, s'.setHart s.cur z = s.setHart s.cur z

theorem ButMe.refl (s : State) : ButMe s s s.me := ⟨rfl, rfl, fun _ => rfl⟩
theorem ButMe.setMe {s s' : State} {y : Hart} (h : ButMe s s' y) (z : Hart) : s'.setMe z = s.setHart s.cur z := by
  rw [setMe_eq, h.cur, h.put]

/-- The ports that a list names, popped in turn. -/
def popPorts (rs : List PortNo) (v : Vector PortCtx 8) : Vector PortCtx 8 := rs.foldl (fun v (p : PortNo) => v.set p v[p].popped) v

theorem popPorts_get {rs : List PortNo} (h : rs.Nodup) (v : Vector PortCtx 8) (p : PortNo) :
    (popPorts rs v)[p] = if p ∈ rs then v[p].popped else v[p] := by
  induction rs generalizing v with
  | nil => simp [popPorts]
  | cons r rs ih =>
    obtain ⟨hr, hn⟩ := List.nodup_cons.mp h
    have e : popPorts (r :: rs) v = popPorts rs (v.set r v[r].popped) := rfl
    rw [e, ih hn]
    by_cases hp : p = r
    · subst hp; simp [hr]
    · rw [show (v.set r v[r].popped)[p] = v[p] from getElem_set_other v _ hp]
      simp [hp]

theorem butMe_popAll (s : State) (rs : List PortNo) : ButMe s (rs.foldl (fun s p => s.setPort s.cur p (s.port s.cur p).popped) s)
    { s.me with ports := popPorts rs s.me.ports } := by
  suffices h : ∀ (s' : State) (y : Hart), ButMe s s' y →
      ButMe s (rs.foldl (fun s p => s.setPort s.cur p (s.port s.cur p).popped) s') { y with ports := popPorts rs y.ports } from
    h s s.me (ButMe.refl s)
  induction rs with
  | nil => exact fun s' y h => h
  | cons r rs ih =>
    intro s' y h
    refine ih (s'.setPort s'.cur r (s'.port s'.cur r).popped) { y with ports := y.ports.set r y.ports[r].popped } ?_
    have e : s'.setPort s'.cur r (s'.port s'.cur r).popped = s.setHart s.cur { y with ports := y.ports.set r y.ports[r].popped } := by
      rw [State.setPort, State.port, mapHart_eq, h.cur, h.put, h.me]
    rw [e]
    exact ⟨rfl, hart_setHart_self .., fun z => setHart_setHart ..⟩

theorem portOf_eq_some {r : VReg} {p : PortNo} : portOf r = some p ↔ r.val = 24 + p.val := by
  unfold portOf
  split
  · simp; omega
  · rw [Option.some.injEq, Fin.ext_iff]; simp only [Fin.ofNat]; omega

theorem portOf_eq_none {r : VReg} : portOf r = none ↔ r.val < 24 := by
  unfold portOf
  split <;> simp [*]

/-- The ports that vector fields name. -/
def portsOf (reads : List VReg) : List PortNo := (reads.filterMap portOf).eraseDups

theorem mem_portsOf {reads : List VReg} {p : PortNo} : p ∈ portsOf reads ↔ ∃ r ∈ reads, r.val = 24 + p.val := by
  rw [portsOf, List.mem_eraseDups, List.mem_filterMap]
  simp only [portOf_eq_some]

theorem look_ports (p : PortNo) (rs : List PortNo) (f : PortNo → VWord) (h : p ∈ rs) :
    look 0 (rs.map fun p => (p.val, f p)) p.val = f p := by
  induction rs with
  | nil => cases h
  | cons r rs ih =>
    by_cases e : r = p
    · subst e; simp [look]
    · have e' : r.val ≠ p.val := fun h => e (Fin.ext h)
      simp only [List.map_cons, look, if_neg e']
      exact ih ((List.mem_cons.mp h).resolve_left (Ne.symm e))

/-- The values that a word reads, as withPorts gives them. -/
def State.values (s : State) (reads : List VReg) (r : VReg) : VWord :=
  match portOf r with
  | some p => look 0 ((portsOf reads).map (fun p => (p.val, s.me.ports[p].next))) p.val
  | none => s.me.rv r

theorem values_eq {s : State} {reads : List VReg} {r : VReg} (h : r ∈ reads) : s.values reads r = s.operand r := by
  unfold State.values
  cases hp : portOf r with
  | none =>
    have hlt := portOf_eq_none.mp hp
    simp [-me_eq, State.operand, Hart.rv, hlt]
  | some p =>
    have he := portOf_eq_some.mp hp
    have hlt : ¬ r.val < 24 := by omega
    dsimp only
    rw [look_ports p (portsOf reads) (fun p => s.me.ports[p].next) (mem_portsOf.mpr ⟨r, h, he⟩)]
    have hi : r.val - 24 = p.val := by omega
    simp only [State.operand, dif_neg hlt, hi]
    rfl

/-- The state after the pops of a word. -/
def State.popAll (s : State) (reads : List VReg) : State :=
  (portsOf reads).foldl (fun s p => s.setPort s.cur p (s.port s.cur p).popped) s

/-- A word whose ports serve it reads its operands and pops its ports. -/
theorem withPorts_of_serves {s : State} {reads : List VReg} {dst : Option VReg} (h : s.portsServe reads dst) (k : State → (VReg → VWord) → Out) :
    s.withPorts reads dst false false k = k (s.popAll reads) (s.values reads) := by
  obtain ⟨hr, hw⟩ := h
  have hread : ∀ p ∈ portsOf reads, s.me.badRead p = none ∧ s.me.ports[p].ready = true := fun p hp => by
    obtain ⟨r, hr', hp'⟩ := mem_portsOf.mp hp
    exact hr r hr' p hp'
  have hwrite : ∀ p, dst.bind portOf = some p → s.me.badWrite p = none ∧ s.me.ports[p].fault = false ∧ s.room s.cur s.me.ports[p] false = true :=
    fun p hp => by
      obtain ⟨d, hd, hp'⟩ := Option.bind_eq_some_iff.mp hp
      exact hw d hd p (portOf_eq_some.mp hp')
  have h1 : (portsOf reads).findSome? (fun p => (s.me.badRead p).map (fun c => (c, p))) = none :=
    List.findSome?_eq_none_iff.mpr fun p hp => by rw [(hread p hp).1]; rfl
  have h2 : (dst.bind portOf).bind (fun p => (s.me.badWrite p).map (fun c => (c, p))) = none := by
    cases hd : dst.bind portOf with
    | none => rfl
    | some p => simp [-me_eq, (hwrite p hd).1]
  have h3 : (portsOf reads).find? (fun p => s.me.ports[p].fault && !s.me.ports[p].ready) = none :=
    List.find?_eq_none.mpr fun p hp => by rw [(hread p hp).2, Bool.not_true, Bool.and_false]; exact Bool.false_ne_true
  have h4 : (dst.bind portOf).filter (fun p => s.me.ports[p].fault) = none := by
    cases hd : dst.bind portOf with
    | none => rfl
    | some p => exact if_neg fun h => Bool.false_ne_true ((hwrite p hd).2.1.symm.trans h)
  have h5 : (false || (portsOf reads).any (fun p => !s.me.ports[p].ready)
      || (dst.bind portOf).any (fun p => !s.room s.cur s.me.ports[p] false)) = false := by
    rw [Bool.false_or, Bool.or_eq_false_iff]
    refine ⟨List.any_eq_false.mpr fun p hp => by rw [(hread p hp).2]; exact Bool.false_ne_true, ?_⟩
    cases hd : dst.bind portOf with
    | none => rfl
    | some p => exact congrArg not (hwrite p hd).2.2
  unfold State.withPorts
  simp only [show (reads.filterMap portOf).eraseDups = portsOf reads from rfl, h1, h2, h3, h4, h5]
  rfl

/-- A port that can be popped cannot take a push. -/
theorem badWrite_of_badRead {x : Hart} {p : PortNo} (h : x.badRead p = none) : x.badWrite p ≠ none := by
  unfold Hart.badRead at h
  unfold Hart.badWrite
  dsimp only at h ⊢
  split_ifs at h with hc hw
  rw [if_neg hc, if_pos (by rw [Bool.eq_false_iff.mpr hw]; rfl)]
  exact nofun

theorem any_port {reads : List VReg} {p : PortNo} : reads.any (fun r => r.val == 24 + p.val) = true ↔ p ∈ portsOf reads := by
  simp [mem_portsOf]

theorem bind_portOf {dst : Option VReg} {p : PortNo} : dst.any (fun d => d.val == 24 + p.val) = true ↔ dst.bind portOf = some p := by
  cases dst with
  | none => simp
  | some d => simp [portOf_eq_some]

/-- The ports after the pops and the push of a word. -/
theorem portsAfter_eq {s : State} {reads : List VReg} {dst : Option VReg} (h : s.portsServe reads dst) (val mask : VWord) :
    s.portsAfter reads dst val mask = match dst.bind portOf with
      | some p => (popPorts (portsOf reads) s.me.ports).set p ((popPorts (portsOf reads) s.me.ports)[p].pushed val mask none)
      | none => popPorts (portsOf reads) s.me.ports := by
  have hpop := popPorts_get (rs := portsOf reads) (nodup_eraseDups _) s.me.ports
  have apart : ∀ p, dst.bind portOf = some p → p ∉ portsOf reads := fun p hd hp => by
    obtain ⟨r, hr, hrp⟩ := mem_portsOf.mp hp
    obtain ⟨d, hd, hdp⟩ := Option.bind_eq_some_iff.mp hd
    exact badWrite_of_badRead (h.1 r hr p hrp).1 (h.2 d hd p (portOf_eq_some.mp hdp)).1
  have hget (p : PortNo) : (s.portsAfter reads dst val mask)[p] = if p ∈ portsOf reads then s.me.ports[p].popped
      else if dst.bind portOf = some p then s.me.ports[p].pushed val mask none else s.me.ports[p] := by
    rw [State.portsAfter, Fin.getElem_fin, Vector.getElem_ofFn]
    simp only [any_port, bind_portOf]
  refine Vector.ext fun i hi => ?_
  obtain ⟨p, rfl⟩ : ∃ p : PortNo, p.val = i := ⟨⟨i, hi⟩, rfl⟩
  refine (hget p).trans ?_
  cases hd : dst.bind portOf with
  | none => rw [if_neg (show ¬ none = some p from nofun)]; exact (hpop p).symm
  | some q =>
    by_cases hq : q = p
    · subst hq
      rw [if_neg (apart q hd), if_pos rfl]
      dsimp only
      rw [Vector.getElem_set_self, hpop, if_neg (apart q hd)]
    · rw [if_neg (fun h : some q = some p => hq (Option.some.inj h))]
      exact ((getElem_set_other _ _ (Ne.symm hq)).trans (hpop p)).symm

theorem push_setHart (s : State) (y : Hart) (p : PortNo) (val mask : VWord) (owed : Option Nat) :
    (s.setHart s.cur y).push p val mask owed = s.setHart s.cur { y with ports := y.ports.set p (y.ports[p].pushed val mask owed) } := by
  rw [State.push, State.setPort, State.port, mapHart_eq, setHart_cur, hart_setHart_self, setHart_setHart]

/-- The dispatch of the moving strand x (R171). -/
def Hart.dispatched (x : Hart) (w1 : Bool) : Hart :=
  { x with seq := x.seq + 1, ring := ⟨x.seq, x.pc, w1, x.issued⟩ :: x.ring.filter (fun d => d.seq.toNat % 64 != x.seq.toNat % 64) }

theorem ButMe.dispatch {s s' : State} {y : Hart} (h : ButMe s s' y) : s'.dispatch = s.setHart s.cur (y.dispatched s.issue.w1) := by
  have hi : s'.issue = s.issue := (setHart_issue ..).symm.trans ((congrArg State.issue (h.put y)).trans (setHart_issue ..))
  rw [State.dispatch, mapMe_eq, h.cur, h.me, h.put, hi]
  rfl

/-- The strand y after its class V word has left a result (R58, R69, R101). -/
def Hart.withVResult (y : Hart) (t : Tile) (w1 : Bool) (l : Landing) (fl : BitVec 5) (tern whole : Bool) (lat : Nat) (float : Bool) : Hart :=
  let org : Origin := { pc := y.pc, w1 := w1, order := y.issued, sys := y.priv != .user, seq := y.seq - 1, vx := true }
  { y with
    flight := y.flight ++ [{ due := if t.shared then none else some (t.adv + lat), land := l, fl := fl, en := fl &&& y.ftrap, tern := tern, lat := lat, org := org, float := float }]
    vq := if t.shared then y.vq ++ [⟨y.issued, 0, whole⟩] else y.vq }

theorem resultV_setHart (s : State) (y : Hart) (l : Landing) (fl : BitVec 5) (tern whole : Bool) (lat : Nat) (float : Bool) :
    (s.setHart s.cur y).resultV l fl tern whole lat float = s.setHart s.cur (y.withVResult s.myTile s.issue.w1 l fl tern whole lat float) := by
  simp only [State.resultV, State.originV, State.origin, mapMe_eq, me_eq, myTile_eq, setHart_cur, hart_setHart_self, setHart_setHart, setHart_tile,
    setHart_issue]
  rfl

/-- What a class V word that can issue does: its result is that of its function of the operands. -/
theorem vectorWord_runs {s : State} {reads : List VReg} {dst : Option VReg} (h : s.vReady reads dst) (whole : Bool) (lat : Nat)
    (f : Hart → (VReg → VWord) → Landing × Lanes) (float : Bool) :
    let x := { s.me with ports := popPorts (portsOf reads) s.me.ports }
    let r := f x (s.values reads)
    Runs (vectorWord s reads dst whole lat f float) s (s.vIssued reads dst r.2.val r.2.mask whole lat r.1 r.2.fl r.2.tern float) := by
  intro x r
  obtain ⟨ht, hq, hb, hs⟩ := h
  have hports := portsAfter_eq hs r.2.val r.2.mask
  obtain ⟨hcur, hme, hput⟩ := butMe_popAll s (portsOf reads)
  change (s.popAll reads).cur = _ at hcur
  change (s.popAll reads).hart s.cur = x at hme
  change ∀ z, (s.popAll reads).setHart s.cur z = _ at hput
  have e : vectorWord s reads dst whole lat f float =
      .next (s.setHart s.cur (s.vIssued reads dst r.2.val r.2.mask whole lat r.1 r.2.fl r.2.tern float)).advance := by
    rw [vectorWord, onT, onCore_ready (ready_of_readyT ht), if_pos ht.2, hb, decide_eq_false (Nat.not_le.mpr hq), Bool.or_self,
      withPorts_of_serves hs]
    have hm : (s.popAll reads).me = x := by rw [State.me, hcur, hme]
    rw [hm, ButMe.dispatch ⟨hcur, hme, hput⟩]
    cases hd : dst.bind portOf with
    | none =>
      dsimp only
      rw [resultV_setHart, State.vIssued, hports, hd]
      simp [Hart.withVResult, Hart.dispatched, x, r, State.origin]
    | some p =>
      dsimp only
      rw [push_setHart, resultV_setHart, State.vIssued, hports, hd]
      simp [Hart.withVResult, Hart.dispatched, x, r, State.origin]
  rw [e]
  exact ⟨_, rfl, moves_advance s _⟩

end Sys2Proof.Machine
end

section
namespace Sys2Proof.Machine
open Sys2Proof

/-! ## Elements of a vector value (R87, R150) -/

/-- The number that packElems packs. -/
def packNat (ew : Nat) (l : List Nat) : Nat := l.foldr (fun x t => x % 2 ^ ew + t * 2 ^ ew) 0

theorem packNat_cons (ew x : Nat) (l : List Nat) : packNat ew (x :: l) = x % 2 ^ ew + packNat ew l * 2 ^ ew := rfl

theorem packNat_lt (ew : Nat) (l : List Nat) : packNat ew l < 2 ^ (l.length * ew) := by
  induction l with
  | nil => simp [packNat]
  | cons x l ih =>
    have h := Nat.mod_lt x (Nat.two_pow_pos ew)
    rw [packNat_cons, List.length_cons, Nat.succ_mul, Nat.add_comm, Nat.mul_comm, Nat.add_comm (l.length * ew)]
    rw [Nat.add_comm]
    exact Table.add_mul_lt_two_pow h ih

theorem packNat_digit (ew : Nat) (l : List Nat) {i : Nat} (hi : i < l.length) : packNat ew l / 2 ^ (ew * i) % 2 ^ ew = l[i] % 2 ^ ew := by
  induction l generalizing i with
  | nil => cases hi
  | cons x l ih =>
    rw [packNat_cons]
    cases i with
    | zero => simp
    | succ i =>
      have hd : (x % 2 ^ ew + packNat ew l * 2 ^ ew) / 2 ^ ew = packNat ew l := by
        rw [Nat.add_mul_div_right _ _ (Nat.two_pow_pos ew), Nat.div_eq_of_lt (Nat.mod_lt _ (Nat.two_pow_pos ew)), Nat.zero_add]
      rw [Nat.mul_succ, Nat.add_comm (ew * i), pow_add, ← Nat.div_div_eq_div_mul, hd]
      exact ih (Nat.lt_of_succ_lt_succ hi)

/-- An element that lies within the vector does not see what is cut off above it. -/
theorem mod_div_mod {v N lo w : Nat} (h : lo + w ≤ N) : v % 2 ^ N / 2 ^ lo % 2 ^ w = v / 2 ^ lo % 2 ^ w := by
  obtain ⟨d, rfl⟩ := Nat.exists_eq_add_of_le h
  rw [Nat.add_assoc, pow_add, Nat.mod_mul_right_div_self, pow_add, Nat.mod_mul_right_mod]

theorem elem_ofNat {v ew i : Nat} (h : ew * i + ew ≤ 2048) : elem (BitVec.ofNat 2048 v) ew i = v / 2 ^ (ew * i) % 2 ^ ew := by
  rw [elem, BitVec.toNat_ofNat]
  exact mod_div_mod h

theorem elem_packElems {ew i : Nat} {l : List Nat} (hl : l.length * ew ≤ 2048) (hi : i < l.length) :
    elem (packElems ew l) ew i = l[i] % 2 ^ ew := by
  have h : ew * i + ew ≤ 2048 := by
    have h1 := Nat.mul_le_mul_right ew (Nat.succ_le_of_lt hi)
    rw [Nat.succ_mul] at h1
    rw [Nat.mul_comm ew i]; omega
  exact (elem_ofNat h).trans (packNat_digit ew l hi)

theorem elem_pack_range {ew n i : Nat} (hn : n * ew ≤ 2048) (hi : i < n) (f : Nat → Nat) :
    elem (packElems ew ((List.range n).map f)) ew i = f i % 2 ^ ew := by
  rw [elem_packElems (by simpa using hn) (by simpa using hi)]
  simp

theorem elem_mask_range {ew n i : Nat} (hn : n * ew ≤ 2048) (hi : i < n) (act : Nat → Bool) :
    elem (packElems ew ((List.range n).map fun i => if act i then 2 ^ ew - 1 else 0)) ew i = if act i then 2 ^ ew - 1 else 0 := by
  rw [elem_pack_range hn hi]
  split
  · exact Nat.mod_eq_of_lt (Nat.sub_lt (Nat.two_pow_pos _) one_pos)
  · exact Nat.zero_mod _

/-- No bit lies above the packed elements. -/
theorem getLsbD_packElems {ew : Nat} {l : List Nat} {j : Nat} (h : l.length * ew ≤ j) : (packElems ew l).getLsbD j = false := by
  rw [packElems, BitVec.getLsbD_ofNat, Bool.and_eq_false_imp]
  exact fun _ => Nat.testBit_lt_two_pow ((packNat_lt ew l).trans_le (Nat.pow_le_pow_right (by omega) h))

/-! ## What a class V word computes for a vector destination (R151) -/

/-- Of n elements of width ew the active ones are f, with these flags and this mark. -/
structure LanesAre (r : Lanes) (ew n : Nat) (act : Nat → Bool) (f : Nat → Nat) (fl : BitVec 5) (tern : Bool) : Prop where
  mask : ∀ i < n, elem r.mask ew i = if act i then 2 ^ ew - 1 else 0
  val : ∀ i < n, act i = true → elem r.val ew i = f i % 2 ^ ew
  fl : r.fl = fl
  tern : r.tern = tern

theorem foldl_flags (n : Nat) (act : Nat → Bool) (fl : Nat → BitVec 5) :
    ((List.range n).map fun i => if act i then fl i else 0).foldl (fun t x => t ||| x) 0 = flagsOf n act fl := by
  rw [List.foldl_map, flagsOf]
  congr 1
  funext t i
  split <;> simp

theorem flagsOf_zero (n : Nat) (act : Nat → Bool) : flagsOf n act (fun _ => 0) = 0 := by
  simp [flagsOf, List.foldl_fixed]

theorem laneMap_are (m : Word) {ew n : Nat} (hn : n * ew ≤ 2048) (f : Nat → Nat) :
    LanesAre (laneMap m ew n f) ew n (active m ew) f 0 false where
  mask i hi := elem_mask_range hn hi _
  val i hi ha := by rw [laneMap, elem_pack_range hn hi, if_pos ha]
  fl := rfl
  tern := rfl

theorem laneMapF_are (m : Word) {ew n : Nat} (hn : n * ew ≤ 2048) (f : Nat → Nat × BitVec 5) :
    LanesAre (laneMapF m ew n f) ew n (active m ew) (fun i => (f i).1) (flagsOf n (active m ew) fun i => (f i).2) false where
  mask i hi := elem_mask_range hn hi _
  val i hi ha := by
    rw [laneMapF, List.map_map, elem_pack_range hn hi]
    simp only [Function.comp_apply, ha, if_true]
  fl := by
    change List.foldl _ 0 ((List.range n).map _) = _
    rw [← foldl_flags, List.foldl_map, List.foldl_map]
    congr 1
    funext t i
    split <;> rfl
  tern := rfl

/-- The moving strand as the function of a class V word sees it. -/
def State.popped (s : State) (reads : List VReg) : Hart := { s.me with ports := popPorts (portsOf reads) s.me.ports }

theorem vecToVec_gives {s : State} {d : VReg} {reads : List VReg} {whole : Bool} {lat ew n : Nat} {g : Hart → (VReg → VWord) → Lanes} {float : Bool}
    {act : Nat → Bool} {f : Nat → Nat} {fl : BitVec 5} {tern : Bool}
    (h : LanesAre (g (s.popped reads) (s.values reads)) ew n act f fl tern) :
    VecGives s (vecToVec s d reads whole lat g float) d reads whole lat ew n act f fl tern float := by
  intro hr
  refine ⟨_, _, h.mask, h.val, ?_⟩
  have hruns := vectorWord_runs hr whole lat (fun x v => let r := g x v; (if d.val < 24 then .v d r.val r.mask else .none, r)) float
  rw [← h.fl, ← h.tern]
  exact hruns

theorem fw_lanes (e : Fw) : e.count * e.bits ≤ 2048 := by cases e <;> decide
theorem fw_count (e : Fw) : e.count = 2048 / e.bits := by cases e <;> rfl
theorem ew_lanes (e : Ew) : e.count * e.bits ≤ 2048 := by cases e <;> decide
theorem ew_count (e : Ew) : e.count = 2048 / e.bits := by cases e <;> rfl

/-! ## Vector floating words (R156, R157) -/

section FloatWords
variable {s : State} {o : Out} {d a b : VReg} {k : KReg}

theorem floatOp_gives {e : Fw} {f : FloatFmt → Rm → Nat → Nat → Nat × FlagSet} {r : Nat → Nat × FlagSet} (ho : o = floatOp s d a b k e f)
    (hr : r = fun i => f (fwFloat e) s.me.rm (elem (s.operand a) e.bits i) (elem (s.operand b) e.bits i)) :
    VecGives s o d [a, b] false 4 e.bits (2048 / e.bits) (active (s.rk k) e.bits) (fun j => (r j).1)
      (flagsOf (2048 / e.bits) (active (s.rk k) e.bits) (fun j => (r j).2)) false true := by
  subst ho hr
  rw [← fw_count, ← values_eq (reads := [a, b]) (r := a) (by simp), ← values_eq (reads := [a, b]) (r := b) (by simp)]
  exact vecToVec_gives (laneMapF_are _ (fw_lanes e) _)

theorem floatOp1_gives {e : Fw} {f : FloatFmt → Nat → Nat} {r : Nat → Nat} (ho : o = floatOp1 s d a k e f)
    (hr : r = fun i => f (fwFloat e) (elem (s.operand a) e.bits i)) :
    VecGives s o d [a] false 4 e.bits (2048 / e.bits) (active (s.rk k) e.bits) r
      (flagsOf (2048 / e.bits) (active (s.rk k) e.bits) (fun _ => 0)) false true := by
  subst ho hr
  rw [← fw_count, ← values_eq (reads := [a]) (r := a) (by simp), flagsOf_zero]
  exact vecToVec_gives (laneMap_are _ (fw_lanes e) _)

theorem fusedOp_gives {e : Fw} {negP negC : Bool} (ho : o = fusedOp s d a b k e negP negC) :
    let r := fun i => fFma (fwFloat e) s.me.rm negP negC (elem (s.operand a) e.bits i) (elem (s.operand b) e.bits i) (elem (s.operand d) e.bits i)
    VecGives s o d [d, a, b] false 4 e.bits (2048 / e.bits) (active (s.rk k) e.bits) (fun j => (r j).1)
      (flagsOf (2048 / e.bits) (active (s.rk k) e.bits) (fun j => (r j).2)) false true := by
  subst ho
  rw [← fw_count, ← values_eq (reads := [d, a, b]) (r := a) (by simp), ← values_eq (reads := [d, a, b]) (r := b) (by simp),
    ← values_eq (reads := [d, a, b]) (r := d) (by simp)]
  exact vecToVec_gives (laneMapF_are _ (fw_lanes e) _)

theorem mathOp_gives {f : Num → Num × FlagSet} (ho : o = mathOp s d a k f) :
    let r := fun i => fp32Of s.me.rm (f (value32 (elem (s.operand a) 32 i)))
    VecGives s o d [a] false 8 32 64 (active (s.rk k) 32) (fun j => (r j).1) (flagsOf 64 (active (s.rk k) 32) (fun j => (r j).2)) false true := by
  subst ho
  rw [← values_eq (reads := [a]) (r := a) (by simp)]
  exact vecToVec_gives (laneMapF_are _ (by norm_num) _)

theorem exec_vfdiv_gives (keep : Bool) :
    let r := fun i => fp32Of s.me.rm (divNum (value32 (elem (s.operand a) 32 i)) (value32 (elem (s.operand b) 32 i)))
    VecGives s (exec (.vfdiv d a b k keep) s) d [a, b] false 8 32 64 (active (s.rk k) 32) (fun j => (r j).1)
      (flagsOf 64 (active (s.rk k) 32) (fun j => (r j).2)) false true := by
  rw [exec_vfdiv, ← values_eq (reads := [a, b]) (r := a) (by simp), ← values_eq (reads := [a, b]) (r := b) (by simp)]
  exact vecToVec_gives (laneMapF_are _ (by norm_num) _)

end FloatWords

theorem vectorFloatWords : Claims.VectorFloatWords := by
  unfold Claims.VectorFloatWords
  intro s d a b k keep rm
  refine ⟨fun e => ?_, ?_⟩
  · intro F w act x y old gives
    exact ⟨floatOp_gives (exec_vfadd ..) rfl, floatOp_gives (exec_vfsub ..) rfl, floatOp_gives (exec_vfmul ..) rfl,
      floatOp_gives (exec_vfabd ..) rfl, fusedOp_gives (exec_vfma ..), fusedOp_gives (exec_vfms ..), fusedOp_gives (exec_vfnma ..),
      fusedOp_gives (exec_vfnms ..), floatOp_gives (exec_vfmin ..) rfl, floatOp_gives (exec_vfmax ..) rfl,
      floatOp1_gives (exec_vfneg ..) rfl, floatOp1_gives (exec_vfabs ..) rfl⟩
  · intro act x y gives
    exact ⟨exec_vfdiv_gives keep, mathOp_gives (exec_vfsqrt ..), mathOp_gives (exec_vfrcp ..), mathOp_gives (exec_vfrsq ..),
      mathOp_gives (exec_vfexp2 ..), mathOp_gives (exec_vflog2 ..), mathOp_gives (exec_vftanh ..), mathOp_gives (exec_vfsigm ..)⟩

/-- Settles O26: each word is one lane map over its operands (`vecToVec_gives`), and the quotients and roots are floors of the exact ones. -/
theorem vectorFloats : Obligations.VectorFloats := ⟨vectorFloatWords, exactQuotientsAndRoots⟩

end Sys2Proof.Machine
end

section
namespace Sys2Proof.Machine
open Sys2Proof

/-! ## The reduction tree (R110, R164) -/

theorem range_two_mul_succ (n : Nat) : List.range (2 * (n + 1)) = 0 :: 1 :: (List.range (2 * n)).map (· + 2) := by
  rw [Nat.mul_succ, Nat.add_comm, List.range_add]
  simp [List.range_succ, Nat.add_comm]

/-- One level of the tree combines neighbours. -/
theorem reduceLevel_range {α : Type} (f : α → α → α × FlagSet) (n : Nat) (x : Nat → α) (fl : FlagSet) :
    reduceLevel f ((List.range (2 * n)).map x) fl =
      ((List.range n).map fun i => (f (x (2 * i)) (x (2 * i + 1))).1,
        (List.range n).foldl (fun t i => t ||| (f (x (2 * i)) (x (2 * i + 1))).2) fl) := by
  induction n generalizing x fl with
  | zero => rfl
  | succ n ih =>
    rw [range_two_mul_succ, List.range_succ_eq_map]
    simp only [List.map_cons, List.map_map, List.foldl_cons, List.foldl_map, reduceLevel]
    rw [ih]
    rfl

theorem zero_or_flags (x : FlagSet) : 0 ||| x = x := BitVec.zero_or

theorem foldl_or (l : List Nat) (g : Nat → FlagSet) (fl : FlagSet) :
    l.foldl (fun t i => t ||| g i) fl = fl ||| l.foldl (fun t i => t ||| g i) 0 := by
  induction l generalizing fl with
  | nil => simp
  | cons a l ih => rw [List.foldl_cons, List.foldl_cons, ih, ih (0 ||| g a), zero_or_flags, BitVec.or_assoc]

theorem flagsOf_all (n : Nat) (g : Nat → BitVec 5) : flagsOf n (fun _ => true) g = (List.range n).foldl (fun t i => t ||| g i) 0 := rfl

/-- The tree over 2^m entries. -/
theorem reduceTree_range (f : Nat → Nat → Nat × FlagSet) (m : Nat) (x : Nat → Nat) (fl : FlagSet) :
    reduceTree f m ((List.range (2 ^ m)).map x) fl = ([treeValue (fun a b => (f a b).1) m x], fl ||| treeFlags f m x) := by
  induction m generalizing x fl with
  | zero => simp [reduceTree, treeValue, treeFlags]
  | succ m ih =>
    rw [reduceTree, pow_succ, Nat.mul_comm, reduceLevel_range]
    dsimp only
    rw [ih, foldl_or, ← flagsOf_all, BitVec.or_assoc]
    rfl

theorem treeFlags_zero (f : Nat → Nat → Nat) (m : Nat) (x : Nat → Nat) : treeFlags (fun a b => (f a b, 0)) m x = 0 := by
  induction m generalizing x with
  | zero => rfl
  | succ m ih => rw [treeFlags, ih, flagsOf_zero]; rfl

/-- A bound that the entries have and the operation keeps. -/
theorem treeValue_lt {f : Nat → Nat → Nat} {B : Nat} (hf : ∀ a b, a < B → b < B → f a b < B) (m : Nat) {x : Nat → Nat} (hx : ∀ i, x i < B) :
    treeValue f m x < B := by
  induction m generalizing x with
  | zero => exact hx 0
  | succ m ih => exact ih fun i => hf _ _ (hx _) (hx _)

/-! ### The value of a reduction -/

theorem elem_allOnes {ew i : Nat} (h : ew * i + ew ≤ 2048) : elem (BitVec.allOnes 2048) ew i = 2 ^ ew - 1 := by
  refine Nat.eq_of_testBit_eq fun j => ?_
  rw [elem, BitVec.toNat_allOnes, Nat.testBit_mod_two_pow, Nat.testBit_div_two_pow, Nat.testBit_two_pow_sub_one, Nat.testBit_two_pow_sub_one]
  by_cases hj : j < ew
  · simp [hj]; omega
  · simp [hj]

theorem lane_le {ew n i : Nat} (hn : n * ew ≤ 2048) (hi : i < n) : ew * i + ew ≤ 2048 := by
  have h := Nat.mul_le_mul_right ew (Nat.succ_le_of_lt hi)
  rw [Nat.succ_mul] at h
  rw [Nat.mul_comm ew i]; omega

/-- What a reduction writes: the value that its tree has left, in element 0. -/
def firstLane (r : List Nat × FlagSet) : Lanes := { val := BitVec.ofNat 2048 (r.1.headD 0), mask := BitVec.allOnes 2048, fl := r.2 }

/-- A result in element 0 and 0 in the others. -/
theorem lanesAre_first {ew n r : Nat} (hn : n * ew ≤ 2048) (hr : r < 2 ^ ew) (fl : BitVec 5) :
    LanesAre { val := BitVec.ofNat 2048 r, mask := BitVec.allOnes 2048, fl := fl } ew n (fun _ => true) (fun j => if j = 0 then r else 0) fl false where
  mask i hi := elem_allOnes (lane_le hn hi)
  val i hi _ := by
    rw [elem_ofNat (lane_le hn hi)]
    by_cases h : i = 0
    · simp [h]
    · have h1 : r < 2 ^ (ew * i) := hr.trans_le (Nat.pow_le_pow_right (by omega) (Nat.le_mul_of_pos_right ew (Nat.pos_of_ne_zero h)))
      rw [if_neg h, Nat.div_eq_of_lt h1]
  fl := rfl
  tern := rfl

theorem elem_lt (v : VWord) (ew i : Nat) : elem v ew i < 2 ^ ew := Nat.mod_lt _ (Nat.two_pow_pos ew)

/-- The entries of a reduction: an inactive element is the identity. -/
def reduceEntry (s : State) (a : VReg) (k : KReg) (w id i : Nat) : Nat := if active (s.rk k) w i then elem (s.operand a) w i else id

theorem reduceEntry_lt (s : State) (a : VReg) (k : KReg) {w id : Nat} (h : id < 2 ^ w) (i : Nat) : reduceEntry s a k w id i < 2 ^ w := by
  unfold reduceEntry
  split
  · exact elem_lt _ _ _
  · exact h

theorem reduction_gives {s : State} {o : Out} {d a : VReg} {k : KReg} {w n id : Nat} {f : Rm → Nat → Nat → Nat × FlagSet} {float : Bool}
    (ho : o = reduction s d a k w n id f float) (hn : n * w ≤ 2048) (hpow : n = 2 ^ Nat.log2 n) (hid : id < 2 ^ w)
    (hf : ∀ x y, x < 2 ^ w → y < 2 ^ w → (f s.me.rm x y).1 < 2 ^ w) :
    VecGives s o d [a] true 6 w n (fun _ => true)
      (fun j => if j = 0 then treeValue (fun x y => (f s.me.rm x y).1) (Nat.log2 n) (reduceEntry s a k w id) else 0)
      (treeFlags (f s.me.rm) (Nat.log2 n) (reduceEntry s a k w id)) false float := by
  subst ho
  refine vecToVec_gives ?_
  have hin : reduceInputs ((s.popped [a]).rk k) w n id (s.values [a] a) = (List.range (2 ^ Nat.log2 n)).map (reduceEntry s a k w id) := by
    rw [values_eq (by simp), ← hpow]; rfl
  have htree := (reduceTree_range (f s.me.rm) (Nat.log2 n) (reduceEntry s a k w id) 0).trans (congrArg _ (zero_or_flags _))
  have hlanes := lanesAre_first hn (treeValue_lt hf (Nat.log2 n) (reduceEntry_lt s a k hid)) (treeFlags (f s.me.rm) (Nat.log2 n) (reduceEntry s a k w id))
  rw [← hin] at htree
  change LanesAre (firstLane ([_], _)) .. at hlanes
  rw [← htree] at hlanes
  exact hlanes

/-! ### Results of a format have its width -/

section Width
variable {f : FloatFmt} (hf : f.Sound)
include hf

theorem maxPat_pattern_lt (neg : Bool) : f.signBit neg + f.maxPat < 2 ^ f.width := (largest_pattern hf neg).1

theorem nanPat_lt : f.nanPat < 2 ^ f.width := by
  have hw : 2 ^ f.width = 2 * 2 ^ (f.ebits + f.mbits) := by rw [FloatFmt.width, Nat.add_assoc, Nat.add_comm 1, pow_succ, Nat.mul_comm]
  have h2 : 0 < 2 ^ (f.ebits + f.mbits) := by positivity
  have hm : 2 ^ (f.mbits - 1) < 2 ^ f.mbits := Nat.pow_lt_pow_right (by omega) (by have := hf.1; omega)
  have he : (2 ^ f.ebits - 1) * 2 ^ f.mbits + 2 ^ f.mbits = 2 ^ (f.ebits + f.mbits) := by
    rw [← Nat.succ_mul, Nat.succ_eq_add_one, Nat.sub_add_cancel (Nat.two_pow_pos _), pow_add]
  unfold FloatFmt.nanPat
  split_ifs <;> omega

theorem overflowPat_lt (mode : Rm) (sat neg : Bool) : overflowPat f mode sat neg < 2 ^ f.width := by
  have hmax := maxPat_pattern_lt hf neg
  have hinf := infPat_lt (f := f) neg
  have hnan := nanPat_lt hf
  unfold overflowPat
  cases mode <;> split_ifs <;> assumption

theorem roundFin_lt (mode : Rm) (sat neg : Bool) (m : Nat) (e : Int) : (roundFin f mode sat neg m e false).1 < 2 ^ f.width := by
  by_cases hm : m = 0
  · rw [roundFin, if_pos hm]
    exact FloatFmt.signBit_lt_width neg (Nat.two_pow_pos _)
  · obtain ⟨pat, w, -, -, -, hfin, hover⟩ := roundFin_spec hf mode neg hm e sat
    rcases Nat.lt_or_ge f.maxPat pat with h | h
    · rw [hover h]; exact overflowPat_lt hf mode sat neg
    · rw [hfin h]; exact FloatFmt.signBit_lt_width neg (h.trans_lt (FloatFmt.maxPat_lt hf))

theorem roundNum_lt (mode : Rm) (sat : Bool) {n : Num} (hn : ∀ neg m e st, n = .fin neg m e st → st = false) :
    (roundNum f mode sat n).1 < 2 ^ f.width := by
  cases n with
  | nan => exact nanPat_lt hf
  | inf neg => exact infPat_lt neg
  | fin neg m e st =>
    obtain rfl := hn _ _ _ _ rfl
    exact roundFin_lt hf mode sat neg m e

omit hf in
theorem ofSigned_uncut {i g : Int} {z neg : Bool} {m : Nat} {e : Int} {st : Bool} (h : ofSigned i g z = .fin neg m e st) : st = false := by
  unfold ofSigned at h
  split at h <;> (cases h; rfl)

omit hf in
theorem addNum_uncut (rm : Rm) (a b : Num) {neg : Bool} {m : Nat} {e : Int} {st : Bool} (h : (addNum rm a b).1 = .fin neg m e st) : st = false := by
  cases a with
  | nan => cases h
  | inf p =>
    cases b with
    | nan => cases h
    | inf q => cases p <;> cases q <;> cases h
    | fin => cases h
  | fin p m' e' st' =>
    cases b with
    | nan => cases h
    | inf q => cases h
    | fin q n g st'' => exact ofSigned_uncut h

theorem fAdd_lt (rm : Rm) (a b : Nat) : (fAdd f rm a b).1 < 2 ^ f.width :=
  roundNum_lt hf rm false fun _ _ _ _ => addNum_uncut rm _ _

theorem fMin_lt {p q : Nat} (hp : p < 2 ^ f.width) (hq : q < 2 ^ f.width) : fMin f p q < 2 ^ f.width ∧ fMax f p q < 2 ^ f.width := by
  by_cases h : f.value p = .nan <;> by_cases h' : f.value q = .nan
  · rw [fMin, fMax, h, h']; exact ⟨nanPat_lt hf, nanPat_lt hf⟩
  · obtain ⟨h1, h2⟩ := FloatFmt.fMin_nan_left hf hq h h'
    rw [h1, h2]; exact ⟨hq, hq⟩
  · obtain ⟨h1, h2⟩ := FloatFmt.fMin_nan_right hf hp h h'
    rw [h1, h2]; exact ⟨hp, hp⟩
  · obtain ⟨h1, h2⟩ := FloatFmt.fMin_of_not_nan hf hp hq h h'
    rw [h1, h2]
    constructor <;> split <;> assumption

end Width

theorem fwFloat_sound (e : Fw) : (fwFloat e).Sound := sound_of_mem (by cases e <;> decide)
theorem fwFloat_width (e : Fw) : (fwFloat e).width = e.bits := by cases e <;> rfl
theorem ew_pow (e : Ew) : e.count = 2 ^ Nat.log2 e.count := by cases e <;> decide
theorem fw_pow (e : Fw) : e.count = 2 ^ Nat.log2 e.count := by cases e <;> decide

theorem vectorReductions : Claims.VectorReductions := by
  unfold Claims.VectorReductions
  intro s d a k keep rm inputs gives
  refine ⟨fun e => ?_, fun e => ?_⟩
  · have h2 : 2 ^ (e.bits - 1) < 2 ^ e.bits := Nat.pow_lt_pow_right (by omega) (by cases e <;> decide)
    have int {o : Out} {id : Nat} {f : Nat → Nat → Nat} (ho : o = reduction s d a k e.bits e.count id (fun _ x y => (f x y, 0)))
        (hid : id < 2 ^ e.bits) (hf : ∀ x y, x < 2 ^ e.bits → y < 2 ^ e.bits → f x y < 2 ^ e.bits) :
        VecGives s o d [a] true 6 e.bits (2048 / e.bits) (fun _ => true)
          (fun j => if j = 0 then treeValue f (Nat.log2 (2048 / e.bits)) (inputs e.bits id) else 0) 0 false false := by
      have h := reduction_gives ho (ew_lanes e) (ew_pow e) hid hf
      rwa [ew_count, treeFlags_zero] at h
    exact ⟨int (exec_vrsum ..) (Nat.two_pow_pos _) fun x y _ _ => Nat.mod_lt _ (Nat.two_pow_pos _),
      int (f := vMax e.bits) (exec_vrmax ..) h2 fun x y hx hy => by unfold vMax; split <;> assumption,
      int (f := vMin e.bits) (exec_vrmin ..) ((Nat.sub_le _ _).trans_lt h2) fun x y hx hy => by unfold vMin; split <;> assumption⟩
  · have hs := fwFloat_sound e
    have hw := fwFloat_width e
    have hinf (neg : Bool) : (fwFloat e).infPat neg < 2 ^ e.bits := hw ▸ infPat_lt neg
    have hsign : (fwFloat e).signBit true < 2 ^ e.bits := hw ▸ FloatFmt.signBit_lt_width true (Nat.two_pow_pos _)
    have fop {o : Out} {id : Nat} {f : Rm → Nat → Nat → Nat × FlagSet} (ho : o = reduction s d a k e.bits e.count id f true)
        (hid : id < 2 ^ e.bits) (hf : ∀ x y, x < 2 ^ e.bits → y < 2 ^ e.bits → (f rm x y).1 < 2 ^ e.bits) :
        VecGives s o d [a] true 6 e.bits (2048 / e.bits) (fun _ => true)
          (fun j => if j = 0 then treeValue (fun x y => (f rm x y).1) (Nat.log2 (2048 / e.bits)) (inputs e.bits id) else 0)
          (treeFlags (f rm) (Nat.log2 (2048 / e.bits)) (inputs e.bits id)) false true := by
      have h := reduction_gives ho (fw_lanes e) (fw_pow e) hid hf
      rwa [fw_count] at h
    refine ⟨?_, ?_, fop (exec_vrfsum ..) hsign fun x y _ _ => hw ▸ fAdd_lt hs rm x y⟩
    · have h := fop (exec_vrfmax d a k e keep s) (hinf true) fun x y hx hy => hw ▸ (fMin_lt hs (hw ▸ hx) (hw ▸ hy)).2
      rwa [treeFlags_zero] at h
    · have h := fop (exec_vrfmin d a k e keep s) (hinf false) fun x y hx hy => hw ▸ (fMin_lt hs (hw ▸ hx) (hw ▸ hy)).1
      rwa [treeFlags_zero] at h

end Sys2Proof.Machine
end

section
namespace Sys2Proof.Machine
open Sys2Proof

/-! ## Numbers of the integer formats (R86, R103, R104) -/

/-- The low bits of an integer in range are the pattern of that integer. -/
theorem intValue_wrapInt {f : Fmt} (hf : f.isInt = true) {i : Int} (hlo : (intRange f).1 ≤ i) (hhi : i ≤ (intRange f).2) :
    intValue f (wrapInt f i) = i := by
  cases f <;> simp [intRange, Fmt.isInt, Fmt.bits, intValue, wrapInt] at hf hlo hhi ⊢ <;> repeat' split
  all_goals omega

/-- Every pattern is that of an integer in range. -/
theorem intValue_mem {f : Fmt} (hf : f.isInt = true) {x : Nat} (hx : x < 2 ^ f.bits) :
    (intRange f).1 ≤ intValue f x ∧ intValue f x ≤ (intRange f).2 := by
  cases f <;> simp [intRange, Fmt.isInt, Fmt.bits, intValue] at hf hx ⊢ <;> repeat' split
  all_goals omega

theorem intRange_nonempty {f : Fmt} (hf : f.isInt = true) : (intRange f).1 ≤ (intRange f).2 := by
  cases f <;> simp [intRange, Fmt.isInt, Fmt.bits] at hf ⊢

theorem intValue_zero (f : Fmt) : intValue f 0 = 0 := by
  cases f <;> rfl

/-- The end of the range at which an integer out of it is clamped. -/
theorem intValue_clamp {f : Fmt} (hf : f.isInt = true) (low : Prop) [Decidable low] :
    intValue f (wrapInt f (if low then (intRange f).1 else (intRange f).2)) = if low then (intRange f).1 else (intRange f).2 := by
  have h := intRange_nonempty hf
  split
  · exact intValue_wrapInt hf le_rfl h
  · exact intValue_wrapInt hf h le_rfl

/-- A number rounded to an integer under its mode (R96). -/
theorem roundInt_spec {mode : Rm} {neg : Bool} {m : Nat} {e i : Int} {u : ℚ} (hu : u = signOf neg * m * 2 ^ e)
    (hi : i = (roundInt mode neg m e false).1) :
    (mode = .rup → i = ⌈u⌉) ∧ (mode = .rdn → i = ⌊u⌋) ∧ (mode = .rtz → i = if 0 ≤ u then ⌊u⌋ else ⌈u⌉) ∧
      (mode = .rne → |u - i| ≤ 1 / 2 ∧ (|u - i| = 1 / 2 → i % 2 = 0)) ∧ ((roundInt mode neg m e false).2 = false ↔ (i : ℚ) = u) := by
  obtain ⟨h, hex⟩ := roundGrid_spec mode neg m e 0
  rw [sub_zero] at h hex
  obtain ⟨q, hq⟩ : ∃ q, q = (roundGrid mode neg m e false 0).1 := ⟨_, rfl⟩
  have hiq : (i : ℚ) = signOf neg * q := by rw [hi, hq]; cases neg <;> simp [roundInt, signOf]
  have heven : 2 ∣ q → i % 2 = 0 := fun hd => by
    have hz : i = if neg then -(q : Int) else q := by rw [hi, hq]; rfl
    rw [hz]; split <;> omega
  rw [← hq] at h hex
  rw [mul_assoc] at hu
  obtain ⟨y, hy⟩ : ∃ y : ℚ, y = m * 2 ^ e := ⟨_, rfl⟩
  have hy0 : 0 ≤ y := by rw [hy]; positivity
  rw [← hy] at h hex hu
  have hd : |u - i| = |y - q| := by rw [hu, hiq, ← mul_sub, abs_signOf_mul]
  have hnear : |u - i| < 1 := hd ▸ h.near
  obtain ⟨h1, h2⟩ := abs_lt.mp hnear
  have floor : (i : ℚ) ≤ u → i = ⌊u⌋ := fun hle => (Int.floor_eq_iff.mpr ⟨hle, by linarith⟩).symm
  have ceil : u ≤ i → i = ⌈u⌉ := fun hle => (Int.ceil_eq_iff.mpr ⟨by linarith, hle⟩).symm
  refine ⟨fun hm => ceil ?_, fun hm => floor ?_, fun hm => ?_, fun hm => ?_, ?_⟩
  · rw [hu, hiq]
    cases neg with
    | false => simpa [signOf] using h.above hm
    | true => simpa [signOf] using h.below (.inr hm)
  · rw [hu, hiq]
    cases neg with
    | false => simpa [signOf] using h.below (.inr hm)
    | true => simpa [signOf] using h.above hm
  · have hle := h.below (.inl hm)
    cases neg with
    | false =>
      simp only [signOf, Bool.false_eq_true, if_false, one_mul] at hu hiq
      rw [if_pos (hu ▸ hy0)]
      exact floor (by rw [hu, hiq]; exact hle)
    | true =>
      simp only [signOf, if_true, neg_one_mul] at hu hiq
      split
      · have hq0 : (0 : ℚ) ≤ q := Nat.cast_nonneg q
        exact floor (by rw [hu, hiq]; linarith)
      · exact ceil (by rw [hu, hiq]; linarith)
  · rw [hd]
    exact ⟨(h.rne hm).1, fun he => heven ((h.rne hm).2 he)⟩
  · have hr : (roundInt mode neg m e false).2 = (roundGrid mode neg m e false 0).2 := rfl
    rw [hr, hex, hu, hiq]
    exact ⟨fun h => by rw [h], fun h => mul_left_cancel₀ (signOf_ne_zero neg) h⟩

/-! ## What a conversion is, by the kinds of its formats -/

section Convert
variable {src dst : Fmt} {cb : BitVec 256} {rm : Rm} {sat : Bool} {x : Nat}

theorem of_isInt {f : Fmt} (h : f.isInt = true) : floatFmt? f = none ∧ f ≠ .lut4 := by
  cases f <;> simp [Fmt.isInt, floatFmt?] at h ⊢

theorem of_floatFmt {f : Fmt} {F : FloatFmt} (h : floatFmt? f = some F) : f.isInt = false := by
  cases f <;> simp [Fmt.isInt, floatFmt?] at h ⊢

theorem ne_of_isInt {F : FloatFmt} (hs : floatFmt? src = some F) (hd : dst.isInt = true) : (src != dst) = true := by
  rw [bne_iff_ne]
  rintro rfl
  exact absurd hd (by simp [of_floatFmt hs])

theorem convertElem_int_int (hs : src.isInt = true) (hd : dst.isInt = true) :
    convertElem src dst cb rm sat x = (intToInt dst (sat && src != dst) (intValue src x), 0, src == .t2 && x == 2) := by
  simp only [convertElem, elemValue, of_isInt hs, of_isInt hd, hs, if_true, if_false]

theorem convertElem_float_int {F : FloatFmt} (hs : floatFmt? src = some F) (hd : dst.isInt = true) :
    convertElem src dst cb rm sat x = ((floatToInt dst rm sat (F.value x)).1, (floatToInt dst rm sat (F.value x)).2, false) := by
  have hne := ne_of_isInt hs hd
  simp only [convertElem, elemValue, hs, of_isInt hd, of_floatFmt hs, hne, Bool.and_true, Bool.false_eq_true, if_false]

theorem convertElem_float {F G : FloatFmt} (hs : floatFmt? src = some F) (hd : floatFmt? dst = some G) :
    convertElem src dst cb rm sat x =
      ((floatToFloat G rm (sat && src != dst) (F.value x)).1, (floatToFloat G rm (sat && src != dst) (F.value x)).2, false) := by
  simp only [convertElem, elemValue, hs, hd]

theorem convertElem_int_float {G : FloatFmt} (hs : src.isInt = true) (hd : floatFmt? dst = some G) :
    convertElem src dst cb rm sat x =
      ((floatToFloat G rm sat (ofInt (intValue src x))).1, (floatToFloat G rm sat (ofInt (intValue src x))).2, src == .t2 && x == 2) := by
  have hne : (src != dst) = true := by rw [bne_comm]; exact ne_of_isInt hd hs
  simp only [convertElem, elemValue, of_isInt hs, hd, hne, Bool.and_true, if_false]

theorem tern_eq_decide : (src == .t2 && x == 2) = decide (src = .t2 ∧ x = 2) := by
  rw [Bool.eq_iff_iff]; simp

theorem no_tern {F : FloatFmt} (h : floatFmt? src = some F) : false = decide (src = .t2 ∧ x = 2) := by
  refine (decide_eq_false ?_).symm
  rintro ⟨rfl, -⟩
  cases h

end Convert

/-- A format that is no codebook is an integer format or a floating one. -/
theorem isInt_or_float {f : Fmt} (h : f ≠ .lut4) : f.isInt = true ∨ ∃ F, floatFmt? f = some F := by
  cases f <;> simp [Fmt.isInt, floatFmt?] at h ⊢

theorem floatFmt_sound {f : Fmt} {F : FloatFmt} (h : floatFmt? f = some F) : F.Sound ∧ F.width = f.bits := by
  cases f <;> simp only [floatFmt?, reduceCtorEq, Option.some.injEq] at h <;> subst h <;> exact ⟨sound_of_mem (by decide), rfl⟩

theorem intToInt_in {f : Fmt} {sat : Bool} {i : Int} (hlo : (intRange f).1 ≤ i) (hhi : i ≤ (intRange f).2) :
    intToInt f sat i = wrapInt f i := if_pos ⟨hlo, hhi⟩

theorem intToInt_out {f : Fmt} {sat : Bool} {i : Int} (h : i < (intRange f).1 ∨ (intRange f).2 < i) :
    intToInt f sat i = if sat then wrapInt f (if i < (intRange f).1 then (intRange f).1 else (intRange f).2) else wrapInt f i :=
  if_neg (by omega)

theorem floatToFloat_fin (G : FloatFmt) (rm : Rm) (sat : Bool) (neg : Bool) (m : Nat) (e : Int) (st : Bool) :
    floatToFloat G rm sat (.fin neg m e st) = roundNum G rm sat (.fin neg m e st) := rfl

theorem floatToFloat_ofInt (G : FloatFmt) (rm : Rm) (sat : Bool) (i : Int) :
    floatToFloat G rm sat (ofInt i) = roundNum G rm sat (ofInt i) := by
  obtain ⟨neg, m, e, h, -⟩ := ofInt_is i
  rw [h, floatToFloat_fin]

/-- Only the pattern of an infinity has its value. -/
theorem FloatFmt.eq_infPat {f : FloatFmt} (hf : f.Sound) {x : Nat} (hx : x < 2 ^ f.width) {neg : Bool} (h : f.value x = .inf neg) :
    f.ieee = true ∧ x = f.infPat neg := by
  rcases FloatFmt.pattern_cases hf hx with ⟨s, y, hy, rfl⟩ | ⟨hi, s, rfl⟩ | hn
  · rw [FloatFmt.value_finite hf s hy] at h; cases h
  · rw [FloatFmt.value_infPat hf hi] at h
    cases h
    exact ⟨hi, rfl⟩
  · rw [hn] at h; cases h

theorem floatToInt_fin (f : Fmt) (rm : Rm) (sat neg : Bool) (m : Nat) (e : Int) (st : Bool) {i : Int} (hi : i = (roundInt rm neg m e st).1) :
    ((intRange f).1 ≤ i → i ≤ (intRange f).2 →
      floatToInt f rm sat (.fin neg m e st) = (wrapInt f i, if (roundInt rm neg m e st).2 then flagNX else 0)) ∧
    (i < (intRange f).1 ∨ (intRange f).2 < i → floatToInt f rm sat (.fin neg m e st) =
      (if sat then wrapInt f (if i < (intRange f).1 then (intRange f).1 else (intRange f).2) else wrapInt f i, flagNV)) := by
  subst hi
  exact ⟨fun h h' => if_pos ⟨h, h'⟩, fun h => if_neg fun ⟨h1, h2⟩ => h.elim (fun h => absurd h1 (not_le.mpr h)) fun h => absurd h2 (not_le.mpr h)⟩

/-- An integer out of range, clamped or reduced. -/
theorem intValue_out {f : Fmt} (hf : f.isInt = true) (sat : Bool) (i : Int) :
    intValue f (if sat then wrapInt f (if i < (intRange f).1 then (intRange f).1 else (intRange f).2) else wrapInt f i) =
      if sat = true then (if i < (intRange f).1 then (intRange f).1 else (intRange f).2) else intValue f (wrapInt f i) := by
  cases sat with
  | false => rfl
  | true => exact intValue_clamp hf _

theorem conversionValues : Claims.ConversionValues := by
  unfold Claims.ConversionValues
  intro src dst rm sat x hsrc hdst hx r lo hi out
  refine ⟨?_, fun hs hd => ?_, fun F hF hd => ⟨fun hv => ?_, fun neg hv => ?_, ?_⟩, fun G hG => ⟨fun hs => ?_, fun F hF =>
    ⟨fun hv => ?_, fun neg hv => ?_, ?_⟩⟩⟩
  · rcases isInt_or_float hsrc with hs | ⟨F, hs⟩ <;> rcases isInt_or_float hdst with hd | ⟨G, hd⟩
    · rw [← tern_eq_decide]; exact congrArg (·.2.2) (convertElem_int_int hs hd)
    · rw [← tern_eq_decide]; exact congrArg (·.2.2) (convertElem_int_float hs hd)
    · exact (congrArg (·.2.2) (convertElem_float_int hs hd)).trans (no_tern hs)
    · exact (congrArg (·.2.2) (convertElem_float hs hd)).trans (no_tern hs)
  · have hr : r = _ := convertElem_int_int hs hd
    have hmem := intValue_mem hs hx
    refine ⟨congrArg (·.2.1) hr, fun h h' => ?_, fun h => ?_⟩
    · rw [hr]; dsimp only
      rw [intToInt_in h h', intValue_wrapInt hd h h']
    · have hne : (src != dst) = true := by
        rw [bne_iff_ne]; rintro rfl; omega
      dsimp only [out]
      rw [hr, hne, Bool.and_true]; dsimp only
      rw [intToInt_out h, intValue_out hd]
  · have hr : r = _ := convertElem_float_int hF hd
    rw [hv] at hr
    exact ⟨congrArg (·.1) hr, congrArg (·.2.1) hr⟩
  · have hr : r = _ := convertElem_float_int hF hd
    rw [hv] at hr
    refine ⟨congrArg (·.2.1) hr, ?_⟩
    rw [hr]
    cases sat with
    | false => exact intValue_zero dst
    | true => exact intValue_clamp hd _
  · rintro u ⟨neg, m, e, hv, hu⟩
    have hr : r = _ := convertElem_float_int hF hd
    rw [hv] at hr
    obtain ⟨hup, hdn, hz, hne, hexact⟩ := roundInt_spec (mode := rm) hu rfl
    obtain ⟨hin, hout⟩ := floatToInt_fin dst rm sat neg m e false rfl
    refine ⟨(roundInt rm neg m e false).1, hup, hdn, hz, hne, fun h h' => ?_, fun h => ?_⟩
    · rw [hr, hin h h']
      refine ⟨intValue_wrapInt hd h h', ?_⟩
      dsimp only
      simp only [← hexact, ← Bool.not_eq_true, ite_not]
    · dsimp only [out]
      rw [hr, hout h]
      exact ⟨intValue_out hd sat _, rfl⟩
  · have hr : r = _ := convertElem_int_float hs hG
    rw [hr, floatToFloat_ofInt]
  · have hr : r = _ := convertElem_float hF hG
    rw [hv] at hr
    exact ⟨congrArg (·.1) hr, congrArg (·.2.1) hr⟩
  · have hr : r = _ := convertElem_float hF hG
    rw [hv] at hr
    refine ⟨fun he => ?_, fun hn hsat => ?_, fun hn hsat hi => ?_, fun hn hsat hi => ?_⟩
    · subst he
      obtain rfl : F = G := Option.some.inj (hF.symm.trans hG)
      obtain ⟨hs, hw⟩ := floatFmt_sound hF
      obtain ⟨hi, hx⟩ := FloatFmt.eq_infPat hs (hw ▸ hx) hv
      rw [hr, bne_self_eq_false, Bool.and_false, hx]
      simp [floatToFloat, hi]
    · rw [hr, hsat, bne_iff_ne.mpr hn]
      simp [floatToFloat]
    · rw [hr, hsat]
      simp [floatToFloat, hi]
    · rw [hr, hsat]
      simp only [floatToFloat, hi, Bool.false_and, Bool.false_eq_true, if_false]
      split <;> simp
  · rintro u ⟨neg, m, e, hv, -⟩
    have hr : r = _ := convertElem_float hF hG
    rw [hr, hv, floatToFloat_fin]

end Sys2Proof.Machine
end

section
namespace Sys2Proof.Machine
open Sys2Proof

/-! ## Lanes of one width spread into elements of another (R165, R166) -/

/-- An element is its bits. -/
theorem elem_congr {a b : VWord} {ew i : Nat} (h : ∀ j < ew, a.getLsbD (ew * i + j) = b.getLsbD (ew * i + j)) : elem a ew i = elem b ew i := by
  refine Nat.eq_of_testBit_eq fun j => ?_
  rw [elem, elem, Nat.testBit_mod_two_pow, Nat.testBit_mod_two_pow, Nat.testBit_div_two_pow, Nat.testBit_div_two_pow]
  by_cases hj : j < ew
  · have h1 := h j hj
    rw [BitVec.getLsbD, BitVec.getLsbD, Nat.add_comm] at h1
    rw [h1]
  · simp [hj]

section Spread
variable {wt n : Nat} (hn : n * wt ≤ 2048) (on : Nat → Bool) (f : Nat → Nat × FlagSet × Bool)
include hn

theorem spread_are : LanesAre (spread wt n on f) wt n on (fun i => (f i).1) (flagsOf n on fun i => (f i).2.1)
    ((List.range n).any fun i => on i && (f i).2.2) where
  mask i hi := by
    rw [← elem_mask_range hn hi on]
    refine elem_congr fun j hj => ?_
    have h := lane_le hn hi
    have h' := Nat.mul_le_mul_right wt (Nat.succ_le_of_lt hi)
    rw [Nat.succ_mul, Nat.mul_comm i] at h'
    have hlt : wt * i + j < n * wt := by omega
    simp [spread, hlt]
  val i hi ha := by
    rw [spread, List.map_map, elem_pack_range hn hi]
    simp only [Function.comp_apply, ha, if_true]
  fl := by
    change List.foldl _ 0 ((List.range n).map _) = _
    rw [← foldl_flags, List.foldl_map, List.foldl_map]
    congr 1
    funext t i
    split <;> rfl
  tern := by
    change ((List.range n).map _).any _ = _
    rw [List.any_map]
    congr 1
    funext i
    cases h : on i <;> simp [h]

/-- The bits above the elements are written 0. -/
theorem spread_above {j : Nat} (hj : n * wt ≤ j) (hj2 : j < 2048) :
    (spread wt n on f).mask.getLsbD j = true ∧ (spread wt n on f).val.getLsbD j = false := by
  constructor
  · have hj3 : j - n * wt < 2048 := by omega
    rw [spread, BitVec.getLsbD_or, getLsbD_packElems (by simpa using hj), BitVec.getLsbD_shiftLeft, BitVec.getLsbD_allOnes]
    simp [hj2, hj3, Nat.not_lt.mpr hj]
  · exact getLsbD_packElems (by simpa using hj)

end Spread

theorem flagsOf_none {n : Nat} {act : Nat → Bool} {fl : Nat → BitVec 5} (h : ∀ i, fl i = 0) : flagsOf n act fl = 0 := by
  rw [funext h, flagsOf_zero]

theorem any_false {n : Nat} (act : Nat → Bool) : ((List.range n).any fun i => act i && false) = false := by simp

section Words
variable {s : State} {d : VReg} {reads : List VReg} {whole : Bool}

/-- A word whose lanes are spread into narrower elements writes the bits above them 0. -/
theorem vecToVec_packs {wt n : Nat} {on : Nat → Bool} {f : Nat → Nat × FlagSet × Bool} {g : Hart → (VReg → VWord) → Lanes} {float : Bool}
    (hn : n * wt ≤ 2048) (h : g (s.popped reads) (s.values reads) = spread wt n on f) :
    VecPacks s (vecToVec s d reads whole 3 g float) d reads whole wt n on (fun i => (f i).1) (flagsOf n on fun i => (f i).2.1)
      ((List.range n).any fun i => on i && (f i).2.2) float := by
  intro hr
  obtain ⟨hmask, hval, hfl, htern⟩ := spread_are hn on f
  refine ⟨_, _, hmask, hval, fun j => spread_above hn on f, ?_⟩
  have hruns := vectorWord_runs hr whole 3 (fun x v => let r := g x v; (if d.val < 24 then .v d r.val r.mask else .none, r)) float
  rw [← hfl, ← htern, ← h]
  exact hruns

end Words

theorem padded_ge (f : Fmt) : f.bits ≤ padded f := by unfold padded; split <;> omega

theorem vcvt_lanes (src dst : Fmt) : 2048 / max (padded src) (padded dst) * dst.bits ≤ 2048 :=
  (Nat.mul_le_mul_left _ ((padded_ge dst).trans (le_max_right _ _))).trans (Nat.div_mul_le_self _ _)

theorem vpack_narrower {d a : VReg} {nf : Fmt} {k : KReg} {e : Ew} {keep : Bool} (h : (Instr.vpack d a nf k e keep).wellFormed = true) :
    nf.bits ≤ e.bits := by
  cases nf <;> cases e <;> simp [Instr.wellFormed, Fmt.isInt, Fmt.bits, Ew.bits] at h ⊢

theorem vectorConversions : Claims.VectorConversions := by
  unfold Claims.VectorConversions
  intro s d a b xb k keep rm
  refine ⟨fun src dst r sat k4 hsrc hdst => ?_, fun e nf hwf => ⟨?_, ?_⟩, fun e => ⟨?_, ?_⟩⟩
  · intro pad n act c
    rw [exec_vcvt]
    refine vecToVec_packs (vcvt_lanes src dst) ?_
    rw [values_eq (by simp)]
    rfl
  · have h := vecToVec_packs (s := s) (d := d) (reads := [a]) (whole := true) (float := false) (n := e.count) (on := active (s.rk k) e.bits)
      (f := fun i => (intToInt nf true (elemS (s.operand a) e.bits i), 0, false))
      (g := fun x v => spread nf.bits e.count (active (x.rk k) e.bits) fun i => (intToInt nf true (elemS (v a) e.bits i), 0, false))
      ((Nat.mul_le_mul_left _ (vpack_narrower hwf)).trans (ew_lanes e)) (by rw [values_eq (by simp)]; rfl)
    rw [flagsOf_none fun _ => rfl, any_false] at h
    rw [exec_vpack, ← ew_count]
    exact h
  · have h := spread_are (ew_lanes e) (active (s.rk k) e.bits) (fun i =>
      (wrapTo e.bits (intValue nf (elem (s.operand a) nf.bits i)), 0, nf == .t2 && elem (s.operand a) nf.bits i == 2))
    rw [flagsOf_none fun _ => rfl, ← values_eq (reads := [a]) (r := a) (by simp)] at h
    rw [exec_vunpk, ← ew_count, ← values_eq (reads := [a]) (r := a) (by simp)]
    exact vecToVec_gives h
  · rw [exec_vlut, ← fw_count, ← values_eq (reads := [a, b]) (r := a) (by simp), ← values_eq (reads := [a, b]) (r := b) (by simp)]
    exact vecToVec_gives (laneMapF_are _ (fw_lanes e) _)
  · rw [exec_vscale, ← fw_count, ← values_eq (reads := [a]) (r := a) (by simp)]
    exact vecToVec_gives (laneMapF_are _ (fw_lanes e) _)

/-- Settles O29: the tree of a reduction is its levels (`reduceTree_range`), and what a conversion delivers is the integer or number of its source,
rounded once (`roundInt_spec`, `roundNum`). -/
theorem reductionsAndConversions : Obligations.ReductionsAndConversions := ⟨vectorReductions, conversionValues, vectorConversions⟩

end Sys2Proof.Machine
end

section
namespace Sys2Proof.Machine
open Sys2Proof

/-! ## The command that retires (R170) -/

theorem onPackage_on {s : State} (h : s.power = .on) (k : State → Out) : onPackage s k = k s := by
  rw [onPackage, if_neg (by rw [h]; decide), if_neg (by rw [h]; decide)]

section Due
variable {x : Tile} {now : Nat} {c : Command} {rest : List Command} (h : x.DueFirst now c rest)
include h

/-- Of the commands that p chooses, the one that is due first is found. -/
theorem find_dueFirst {p : Command → Bool} (hp : p c = true) :
    x.cmds.find? (fun d => d.started.isSome && decide (d.retireAt ≤ now) && p d) = some c := by
  obtain ⟨⟨pre, post, hcmds, -, hpre⟩, hstarted, hdue, -⟩ := h
  rw [hcmds, List.find?_append, List.find?_eq_none.mpr fun d hd => ?_, Option.none_or, List.find?_cons_of_pos]
  · simp [hstarted, hdue, hp]
  · rcases hpre d hd with h | h
    · simp [h]
    · simp [Nat.not_le.mpr h]

/-- Once it has left, the others are there. -/
theorem leave_dueFirst {y : Tile} (hy : y.cmds = x.cmds) : (y.leave c).cmds = rest := by
  obtain ⟨⟨pre, post, hcmds, rfl, -⟩, -, -, hown⟩ := h
  have keep : ∀ l : List Command, (∀ d ∈ l, d ∈ pre ++ post) → l.filter (fun d => d.org.order != c.org.order) = l := fun l hl =>
    List.filter_eq_self.mpr fun d hd => bne_iff_ne.mpr (hown d (hl d hd))
  rw [Tile.leave, hy, hcmds, List.filter_append, List.filter_cons_of_neg (by simp), keep pre fun d hd => List.mem_append_left _ hd,
    keep post fun d hd => List.mem_append_right _ hd]

end Due

/-! ## MSTAT (R185) -/

/-- A field of one bit, replaced. -/
theorem getLsbD_setField_one (d : Word) (lo v : Nat) {j : Nat} (hj : j < 64) :
    (setField d lo 1 v).getLsbD j = if j = lo then v.testBit 0 else d.getLsbD j := by
  obtain ⟨Q, hQ⟩ : ∃ Q, Q = d.toNat / 2 ^ lo := ⟨_, rfl⟩
  have hL : d.toNat % 2 ^ lo < 2 ^ lo := Nat.mod_lt _ (Nat.two_pow_pos lo)
  have hd : d.toNat = 2 ^ lo * Q + d.toNat % 2 ^ lo := by rw [hQ]; exact (Nat.div_add_mod _ _).symm
  have hle := Nat.mod_le Q 2
  have hnew : d.toNat - domField d lo 1 * 2 ^ lo + v % 2 ^ 1 * 2 ^ lo = 2 ^ lo * (Q - Q % 2 + v % 2) + d.toNat % 2 ^ lo := by
    rw [domField, ← hQ, pow_one, Nat.mul_add, Nat.mul_sub, Nat.mul_comm (Q % 2), Nat.mul_comm (v % 2)]
    have := Nat.mul_le_mul_left (2 ^ lo) hle
    omega
  rw [setField, BitVec.getLsbD_ofNat, decide_eq_true hj, Bool.true_and, hnew, Nat.testBit_two_pow_mul_add _ hL, BitVec.getLsbD, hd,
    Nat.testBit_two_pow_mul_add _ hL, ← hd]
  rcases lt_trichotomy j lo with h | rfl | h
  · rw [if_pos h, if_neg h.ne, if_pos h]
  · rw [if_neg (lt_irrefl j), if_pos rfl, Nat.sub_self, Nat.testBit_zero, Nat.testBit_zero]
    congr 1; simp; omega
  · obtain ⟨k, hk⟩ : ∃ k, j - lo = k + 1 := ⟨j - lo - 1, by omega⟩
    rw [if_neg h.not_gt, if_neg h.ne', if_neg h.not_gt, hk, Nat.testBit_succ, Nat.testBit_succ]
    congr 1; omega

section Mstat
variable (x : Tile) (a : AccNo) (v : Acc) (int : Bool)

theorem accInt_setAcc (e : AccNo) : (x.setAcc a v int).accInt e = if e = a then int else x.accInt e := by
  rw [Tile.accInt, Tile.setAcc, getLsbD_setField_one _ _ _ (by omega)]
  have h : 16 + e.val = 16 + a.val ↔ e = a := by rw [Fin.ext_iff]; omega
  simp only [h, Tile.accInt]
  cases int <;> rfl

theorem mstat_setAcc {j : Nat} (hj : j < 16) : (x.setAcc a v int).mstat.getLsbD j = x.mstat.getLsbD j := by
  rw [Tile.setAcc, getLsbD_setField_one _ _ _ (by omega), if_neg (by omega)]

theorem acc_setAcc (e : AccNo) : (x.setAcc a v int).acc[e] = if e = a then v else x.acc[e] := by
  change (x.acc.set a v)[e.val] = _
  rw [Vector.getElem_set]
  simp only [Fin.ext_iff, eq_comm, Fin.getElem_fin]

theorem mstat_stick (b : BitVec 2) {j : Nat} (hj : j < 64) : (x.stick b).mstat.getLsbD j = (x.mstat.getLsbD j || b.getLsbD j) := by
  rw [Tile.stick, BitVec.getLsbD_or, BitVec.getLsbD_setWidth, decide_eq_true hj, Bool.true_and]

theorem accInt_stick (b : BitVec 2) (e : AccNo) : (x.stick b).accInt e = x.accInt e := by
  rw [Tile.accInt, mstat_stick x b (by omega), BitVec.getLsbD_of_ge b _ (by omega), Bool.or_false, Tile.accInt]

end Mstat

/-! ## Accumulators -/

theorem acc_of_eq (l : List Fx) : Acc.of l = BitVec.ofNat 98304 (packNat 48 (l.map BitVec.toNat)) := by
  rw [Acc.of, packNat, List.foldr_map]
  congr 2
  funext x t
  rw [Nat.mod_eq_of_lt x.isLt]

theorem get_of {l : List Fx} (hl : l.length = 2048) {i : Nat} (hi : i < l.length) : (Acc.of l).get i = l[i] := by
  refine BitVec.eq_of_toNat_eq ?_
  rw [Acc.get, acc_of_eq, BitVec.toNat_ofNat, BitVec.toNat_ofNat, mod_div_mod (by omega), packNat_digit 48 _ (by simpa using hi), List.getElem_map,
    Nat.mod_eq_of_lt l[i].isLt]

theorem get_of_range (f : Nat → Fx) {i : Nat} (hi : i < 2048) : (Acc.of ((List.range 2048).map f)).get i = f i := by
  rw [get_of (by simp) (by simpa using hi)]; simp

theorem addInt48_fst (a b : Fx) : (addInt48 a b.toInt).1 = a + b := by
  rw [addInt48, BitVec.ofInt_add, BitVec.ofInt_toInt, BitVec.ofInt_toInt]

theorem addInt48_snd (a : Fx) (i : Int) : (addInt48 a i).2 = true ↔ ¬ (-2 ^ 47 ≤ a.toInt + i ∧ a.toInt + i < 2 ^ 47) := by
  simp only [addInt48, Bool.or_eq_true, decide_eq_true_eq]; omega

/-- An integer sum is out of range when the bits' sum is another number. -/
theorem sum_in_range (a b : Fx) : (a + b).toInt = a.toInt + b.toInt ↔ -2 ^ 47 ≤ a.toInt + b.toInt ∧ a.toInt + b.toInt < 2 ^ 47 := by
  have h1 := a.toInt_lt
  have h2 := a.le_toInt
  have h3 := b.toInt_lt
  have h4 := b.le_toInt
  rw [BitVec.toInt_add, Int.bmod_def]
  norm_num at *
  split <;> omega

theorem any_range {n : Nat} {p : Nat → Bool} : (List.range n).any p = true ↔ ∃ i < n, p i = true := by
  simp

end Sys2Proof.Machine
end

section
namespace Sys2Proof.Machine
open Sys2Proof

/-! ## What each command does when it retires (R107, R184, R186, R187) -/

section Retire
variable {s : State} {t : Nat} {c : Command} {rest : List Command} (h : (s.tile t).DueFirst s.dtime c rest) {p : Command → Bool} (hp : p c = true)
include h hp

theorem seqRetire_zero {a : AccNo} (hk : c.kind = .zero a) : s.seqRetire t p = s.setTile t (((s.tile t).setAcc a 0 false).leave c) := by
  simp only [State.seqRetire, find_dueFirst h hp, hk]

theorem seqRetire_macc {a b : AccNo} {int : Bool} (hk : c.kind = .macc a int b) : s.seqRetire t p = s.retireMacc t c a int b := by
  simp only [State.seqRetire, find_dueFirst h hp, hk]

theorem seqRetire_mma {n : Nat} {a : AccNo} {ra rb : RingNo} {fa fb : Fmt} {pa pb : Bool} (hk : c.kind = .mma n a ra rb fa fb pa pb) :
    s.seqRetire t p = s.retireMma t c n a ra rb fa fb pa pb := by
  simp only [State.seqRetire, find_dueFirst h hp, hk]

theorem seqRetire_drain {a : AccNo} {v : VReg} {tf : Fmt} {rm : Rm} {sat : Bool} {row : Nat} (hk : c.kind = .drain a v tf rm sat row) :
    s.seqRetire t p = s.retireDrain t c a tf rm sat row := by
  simp only [State.seqRetire, find_dueFirst h hp, hk]

theorem seqRetire_drains {a : AccNo} {tf : Fmt} {rm : Rm} {sat : Bool} {row : Nat} (hk : c.kind = .drains a tf rm sat row) :
    s.seqRetire t p = s.retireDrains t c a tf rm sat row := by
  simp only [State.seqRetire, find_dueFirst h hp, hk]

end Retire

/-! ### MACC -/

/-- MACC's sum of two elements, and whether it is out of range. -/
theorem accSum_eq (int : Bool) (a b : Fx) : (accSum int a b).1 = (if int = true then a + b else addFX a b) ∧
    ((accSum int a b).2 = true ↔ int = true ∧ ¬ ((a + b).toInt = a.toInt + b.toInt)) := by
  cases int with
  | false => simp [accSum]
  | true =>
    refine ⟨addInt48_fst a b, ?_⟩
    rw [sum_in_range, ← addInt48_snd]
    simp [accSum]

theorem getLsbD_ite_one {p : Prop} [Decidable p] : (if p then (1 : BitVec 2) else 0).getLsbD 0 = true ↔ p := by split <;> simp [*]

/-! ### MMA -/

theorem getD_map_range {α : Type} (f : Nat → α) {n k : Nat} (hk : k < n) (d : α) : ((List.range n).map f).getD k d = f k := by
  simp [List.getD_eq_getElem?_getD, hk]

theorem zipWith_map_range {α β γ : Type} (op : α → β → γ) (f : Nat → α) (g : Nat → β) (n : Nat) :
    List.zipWith op ((List.range n).map f) ((List.range n).map g) = (List.range n).map fun k => op (f k) (g k) := by
  rw [List.zipWith_map, List.zipWith_self]

theorem anyTern_iff (f : Fmt) (str n : Nat) : anyTern f str n = true ↔ f = .t2 ∧ ∃ i < n, str / 2 ^ (2 * i) % 4 = 2 := by
  simp [anyTern, bitsAt]

/-- The sum that an MMA adds to element 64m + j of an accumulator, of integer tiles. -/
def mmaIntSum (n : Nat) (fa fb : Fmt) (sa sb m j : Nat) : Int := ((List.range 48).map fun k => aInt n fa sa m k * bInt fb sb k j).sum

section Sums
variable {x : Tile} {n : Nat} {a : AccNo} {ra rb : RingNo} {fa fb : Fmt} {scale : Word} {sa sb : Nat}

/-- Row m and column j of the index 64m + j. -/
theorem row_column {m j : Nat} (hm : m < 32) (hj : j < 64) : 64 * m + j < 2048 ∧ (64 * m + j) / 64 = m ∧ (64 * m + j) % 64 = j := by omega

theorem mmaSums_tern : (mmaSums x n a ra rb fa fb scale sa sb).2.2 = (anyTern fa sa (if n = 0 then 1536 else 64 * n) || anyTern fb sb 3072) := by
  unfold mmaSums
  dsimp only
  split <;> rfl

theorem mmaSums_int (hint : fa.isInt = true ∧ fb.isInt = true) :
    (∀ m < 32, ∀ j < 64, (mmaSums x n a ra rb fa fb scale sa sb).1.get (64 * m + j) =
      BitVec.ofInt 48 ((x.acc[a].get (64 * m + j)).toInt + mmaIntSum n fa fb sa sb m j)) ∧
    ((mmaSums x n a ra rb fa fb scale sa sb).2.1 = true ↔ ∃ m < 32, ∃ j < 64,
      ¬ (-2 ^ 47 ≤ (x.acc[a].get (64 * m + j)).toInt + mmaIntSum n fa fb sa sb m j ∧
        (x.acc[a].get (64 * m + j)).toInt + mmaIntSum n fa fb sa sb m j < 2 ^ 47)) := by
  have sum : ∀ i < 2048, (List.zipWith (· * ·) (((List.range 32).map fun m => (List.range 48).map (aInt n fa sa m)).getD (i / 64) [])
      (((List.range 64).map fun j => (List.range 48).map fun k => bInt fb sb k j).getD (i % 64) [])).foldl (· + ·) 0 =
      mmaIntSum n fa fb sa sb (i / 64) (i % 64) := fun i hi => by
    rw [getD_map_range _ (by omega), getD_map_range _ (by omega), zipWith_map_range, ← List.sum_eq_foldl]
    rfl
  have hc : (fa.isInt && fb.isInt) = true := by simp [hint]
  rw [mmaSums, if_pos hc]
  refine ⟨fun m hm j hj => ?_, ?_⟩
  · obtain ⟨hi, hd, hr⟩ := row_column hm hj
    dsimp only
    rw [List.map_map, get_of_range _ hi, Function.comp_apply, sum _ hi, hd, hr]
    rfl
  · dsimp only
    rw [List.any_map, any_range]
    constructor
    · rintro ⟨i, hi, ho⟩
      rw [Function.comp_apply, sum i hi, addInt48_snd] at ho
      refine ⟨i / 64, by omega, i % 64, by omega, ?_⟩
      rwa [Nat.div_add_mod]
    · rintro ⟨m, hm, j, hj, ho⟩
      obtain ⟨hi, hd, hr⟩ := row_column hm hj
      refine ⟨64 * m + j, hi, ?_⟩
      rwa [Function.comp_apply, sum _ hi, addInt48_snd, hd, hr]

theorem mmaSums_fx (hint : ¬ (fa.isInt = true ∧ fb.isInt = true)) :
    let sca := if x.rings[ra].scale = true then some (scaleAt (elemBytesA n fa)) else none
    let scb := if x.rings[rb].scale = true then some (scaleAt (elemBytesB fb)) else none
    let len := if fa = .fp32 ∨ fb = .fp32 then 1 else 8
    (mmaSums x n a ra rb fa fb scale sa sb).2.1 = false ∧
    ∀ m < 32, ∀ j < 64, (mmaSums x n a ra rb fa fb scale sa sb).1.get (64 * m + j) =
      sumRuns len (48 / len) ((List.range 48).map fun k => (mulNum
        (aValue n fa x.rings[ra].codebook sca (FloatFmt.fp32.value (scale.toNat % 2 ^ 32)) sa m k)
        (bValue fb x.rings[rb].codebook scb sb k j)).1) (x.acc[a].get (64 * m + j)) := by
  have hc : ¬ (fa.isInt && fb.isInt) = true := by simpa using hint
  rw [mmaSums, if_neg hc]
  refine ⟨rfl, fun m hm j hj => ?_⟩
  obtain ⟨hi, hd, hr⟩ := row_column hm hj
  dsimp only
  rw [get_of_range _ hi, hd, hr, getD_map_range _ hm, getD_map_range _ hj, zipWith_map_range]

end Sums

theorem popRing_rings (x : Tile) (q : RingNo) (pop : Bool) (r : RingNo) :
    (x.popRing q pop).rings[r] = { x.rings[r] with head := x.rings[r].head + if q = r ∧ pop = true then 1 else 0 } := by
  cases pop with
  | false => simp [Tile.popRing]
  | true =>
    change (x.rings.set q _)[r.val] = _
    rw [Vector.getElem_set]
    by_cases hq : q = r
    · subst hq; simp
    · simp [hq, Fin.ext_iff.not.mp hq]

end Sys2Proof.Machine
end

section
namespace Sys2Proof.Machine
open Sys2Proof

section Retire
variable {s : State} {t : Nat} {c : Command} {rest : List Command} (hon : s.power = .on) (h : (s.tile t).DueFirst s.dtime c rest)
include hon h

theorem mzero_retires {a : AccNo} (hi : c.instr = .mzero a) : TileBecomes (exec (.mzeroRetire t) s) s t
    { s.tile t with cmds := rest, acc := (s.tile t).acc.set a 0, mstat := setField (s.tile t).mstat (16 + a.val) 1 0 } := by
  have hk : c.kind = .zero a := by rw [Command.kind, hi]
  rw [TileBecomes, exec_mzeroRetire, execMzeroRetire, onPackage_on hon, seqRetire_zero h (by rw [hk]) hk]
  have hl : (((s.tile t).setAcc a 0 false).leave c).cmds = rest := leave_dueFirst h rfl
  rw [← hl]
  rfl

theorem macc_retires {a b : AccNo} {int : Bool} (hi : c.instr = .macc a int b) : exec (.maccRetire t) s = .next (s.retireMacc t c a int b) := by
  have hk : c.kind = .macc a int b := by rw [Command.kind, hi]
  rw [exec_maccRetire, execMaccRetire, onPackage_on hon, seqRetire_macc h (by rw [hk]) hk]

theorem mma_retires {n : Nat} {a : AccNo} {ra rb : RingNo} {fa fb : Fmt} {pa pb : Bool} (hk : c.kind = .mma n a ra rb fa fb pa pb) :
    exec (.mmaRetire t) s = .next (s.retireMma t c n a ra rb fa fb pa pb) := by
  rw [exec_mmaRetire, execMmaRetire, onPackage_on hon, seqRetire_mma h (by rw [hk]; rfl) hk]

theorem mdrain_retires {a : AccNo} {v : VReg} {tf : Fmt} {rm : Rm} {sat : Bool} {row : Fin 32} (hi : c.instr = .mdrain a v tf rm sat row) :
    exec (.mdrainRetire t) s = .next (s.retireDrain t c a tf rm sat row.val) := by
  have hk : c.kind = .drain a v tf rm sat row.val := by rw [Command.kind, hi]
  rw [exec_mdrainRetire, execMdrainRetire, onPackage_on hon, seqRetire_drain h (by rw [hk]) hk]

theorem mdrains_retires {a : AccNo} {r : XReg} {tf : Fmt} {rm : Rm} {sat : Bool} {row : Fin 32} (hi : c.instr = .mdrains a r tf rm sat row) :
    exec (.mdrainsRetire t) s = .next (s.retireDrains t c a tf rm sat row.val) := by
  have hk : c.kind = .drains a tf rm sat row.val := by rw [Command.kind, hi]
  rw [exec_mdrainsRetire, execMdrainsRetire, onPackage_on hon, seqRetire_drains h (by rw [hk]) hk]

end Retire

/-- The sums of a MACC, with their overflows (R184). -/
def maccSums (x : Tile) (a : AccNo) (int : Bool) (b : AccNo) : List (Fx × Bool) :=
  (List.range 2048).map fun i => accSum int (x.acc[a].get i) (x.acc[b].get i)

theorem mstat_leave (x : Tile) (c : Command) : (x.leave c).mstat = x.mstat := rfl
theorem accInt_leave (x : Tile) (c : Command) (e : AccNo) : (x.leave c).accInt e = x.accInt e := rfl

section Accumulate
variable {s : State} {t : Nat} {c : Command} {rest : List Command} (h : (s.tile t).DueFirst s.dtime c rest)
include h

/-- What a MACC makes of its tile (R184). -/
theorem retireMacc_tile (a : AccNo) (int : Bool) (b : AccNo) :
    let x := s.tile t
    ∃ y, s.retireMacc t c a int b = s.setTile t y ∧ y.cmds = rest
      ∧ y.accInt a = int ∧ (∀ e : AccNo, e ≠ a → y.acc[e] = x.acc[e] ∧ y.accInt e = x.accInt e)
      ∧ (∀ i < 2048, y.acc[a].get i = if int = true then x.acc[a].get i + x.acc[b].get i else addFX (x.acc[a].get i) (x.acc[b].get i))
      ∧ (y.mstat.getLsbD 0 = true ↔ x.mstat.getLsbD 0 = true ∨ (int = true ∧ ∃ i < 2048,
          ¬ ((x.acc[a].get i + x.acc[b].get i).toInt = (x.acc[a].get i).toInt + (x.acc[b].get i).toInt)))
      ∧ y.rings = x.rings ∧ y.scratch = x.scratch := by
  intro x
  obtain ⟨r, hr⟩ : ∃ r, r = maccSums x a int b := ⟨_, rfl⟩
  obtain ⟨x1, hx1⟩ : ∃ x1, x1 = x.setAcc a (Acc.of (r.map (·.1))) int := ⟨_, rfl⟩
  refine ⟨(x1.leave c).stick (if r.any (·.2) then 1 else 0), by rw [hx1, hr]; rfl, leave_dueFirst h (by rw [hx1]; rfl), ?_, fun e he => ⟨?_, ?_⟩,
    fun i hi => ?_, ?_, by rw [hx1]; rfl, by rw [hx1]; rfl⟩
  · rw [accInt_stick, accInt_leave, hx1, accInt_setAcc, if_pos rfl]
  · refine (show _ = x1.acc[e] from rfl).trans ?_
    rw [hx1, acc_setAcc, if_neg he]
  · rw [accInt_stick, accInt_leave, hx1, accInt_setAcc, if_neg he]
  · refine (show _ = x1.acc[a].get i from rfl).trans ?_
    rw [hx1, acc_setAcc, if_pos rfl, hr, maccSums, List.map_map, get_of_range _ hi]
    exact (accSum_eq int _ _).1
  · rw [mstat_stick _ _ (by omega), Bool.or_eq_true, getLsbD_ite_one, mstat_leave, hx1, mstat_setAcc _ _ _ _ (by omega), hr, maccSums, List.any_map,
      any_range]
    simp only [Function.comp_apply, (accSum_eq int _ _).2]
    exact or_congr_right ⟨fun ⟨i, hi, hint, ho⟩ => ⟨hint, i, hi, ho⟩, fun ⟨hint, i, hi, ho⟩ => ⟨i, hi, hint, ho⟩⟩

/-- What an MMA makes of its tile, with the sums of its operand tiles (R107, R183). -/
theorem retireMma_tile (n : Nat) (a : AccNo) (ra rb : RingNo) (fa fb : Fmt) (pa pb : Bool) :
    let x := s.tile t
    let str := fun r : RingNo => leNat (s.readLoc x.rings[r].tbytes (.scratch t (x.rings[r].slot x.rings[r].head)))
    let sums := mmaSums x n a ra rb fa fb c.opnd (str ra) (str rb)
    ∃ y, s.retireMma t c n a ra rb fa fb pa pb = s.setTile t y ∧ y.cmds = rest ∧ y.accInt a = (fa.isInt && fb.isInt)
      ∧ (∀ e : AccNo, e ≠ a → y.acc[e] = x.acc[e] ∧ y.accInt e = x.accInt e) ∧ y.acc[a] = sums.1
      ∧ y.mstat.getLsbD 0 = (x.mstat.getLsbD 0 || sums.2.1) ∧ y.mstat.getLsbD 1 = (x.mstat.getLsbD 1 || sums.2.2)
      ∧ (∀ r : RingNo, y.rings[r] = { x.rings[r] with head := x.rings[r].head
          + (if ra = r ∧ pa = true then 1 else 0) + (if rb = r ∧ pb = true then 1 else 0) })
      ∧ y.scratch = x.scratch := by
  intro x str sums
  obtain ⟨x1, hx1⟩ : ∃ x1, x1 = x.setAcc a sums.1 (fa.isInt && fb.isInt) := ⟨_, rfl⟩
  obtain ⟨x2, hx2⟩ : ∃ x2, x2 = (x1.popRing ra pa).popRing rb pb := ⟨_, rfl⟩
  have hpop : x2.cmds = x1.cmds ∧ x2.acc = x1.acc ∧ x2.mstat = x1.mstat ∧ x2.scratch = x1.scratch := by
    rw [hx2]; cases pa <;> cases pb <;> exact ⟨rfl, rfl, rfl, rfl⟩
  obtain ⟨hcmds, hacc, hmstat, hscr⟩ := hpop
  have hint : ∀ e, ((x2.leave c).stick (BitVec.ofBool sums.2.2 ++ BitVec.ofBool sums.2.1)).accInt e = x1.accInt e := fun e => by
    rw [accInt_stick]; exact congrArg (BitVec.getLsbD · _) hmstat
  have hbits : ∀ j < 16, ((x2.leave c).stick (BitVec.ofBool sums.2.2 ++ BitVec.ofBool sums.2.1)).mstat.getLsbD j =
      (x.mstat.getLsbD j || (BitVec.ofBool sums.2.2 ++ BitVec.ofBool sums.2.1).getLsbD j) := fun j hj => by
    rw [mstat_stick _ _ (by omega), ← mstat_setAcc x a sums.1 (fa.isInt && fb.isInt) hj, ← hx1, ← hmstat]
    rfl
  refine ⟨(x2.leave c).stick (BitVec.ofBool sums.2.2 ++ BitVec.ofBool sums.2.1), by rw [hx2, hx1]; rfl, ?_, ?_, fun e he => ⟨?_, ?_⟩, ?_, ?_, ?_,
    fun r => ?_, ?_⟩
  · exact leave_dueFirst h (by rw [hcmds, hx1]; rfl)
  · rw [hint, hx1, accInt_setAcc, if_pos rfl]
  · exact (congrArg (·[e]) hacc).trans (by rw [hx1, acc_setAcc, if_neg he])
  · rw [hint, hx1, accInt_setAcc, if_neg he]
  · exact (congrArg (·[a]) hacc).trans (by rw [hx1, acc_setAcc, if_pos rfl])
  · rw [hbits 0 (by omega)]; cases sums.2.1 <;> cases sums.2.2 <;> rfl
  · rw [hbits 1 (by omega)]; cases sums.2.1 <;> cases sums.2.2 <;> rfl
  · refine (show _ = x2.rings[r] from rfl).trans ?_
    rw [hx2, popRing_rings, popRing_rings, hx1]
    rfl
  · exact hscr.trans (by rw [hx1]; rfl)

end Accumulate

end Sys2Proof.Machine
end

section
namespace Sys2Proof.Machine
open Sys2Proof

/-! ## Drains (R106, R186, R187) -/

/-- Element n of a drain's row, converted. -/
def drainedElem (x : Tile) (a : AccNo) (tf : Fmt) (rm : Rm) (sat : Bool) (row n : Nat) : Nat × FlagSet :=
  drainElem (x.accInt a) tf rm sat (x.acc[a].get (64 * row + n))

section Row
variable (x : Tile) (a : AccNo) (tf : Fmt) (rm : Rm) (sat : Bool) (row : Nat)

theorem row_fits : 64 * tf.bits ≤ 2048 := by cases tf <;> decide

theorem drainRow_elem {n : Nat} (hn : n < 64) :
    elem (drainRow x a tf rm sat row).1 tf.bits n = (drainedElem x a tf rm sat row n).1 % 2 ^ tf.bits := by
  rw [drainRow, List.map_map, elem_pack_range (row_fits tf) hn]
  rfl

theorem drainRow_above {j : Nat} (hj : 64 * tf.bits ≤ j) : (drainRow x a tf rm sat row).1.getLsbD j = false :=
  getLsbD_packElems (by simpa using hj)

theorem drainRow_flags : (drainRow x a tf rm sat row).2 = flagsOf 64 (fun _ => true) fun n => (drainedElem x a tf rm sat row n).2 := by
  simp only [drainRow, List.foldl_map, flagsOf, drainedElem, if_true]

/-- The bytes of a row hold its elements. -/
theorem leBytes_elem (v : VWord) {n : Nat} (hn : n < 64) : leNat (leBytes (8 * tf.bits) v.toNat) / 2 ^ (tf.bits * n) % 2 ^ tf.bits = elem v tf.bits n := by
  have h := Nat.mul_le_mul_right tf.bits (Nat.succ_le_of_lt hn)
  rw [Nat.succ_mul, Nat.mul_comm n] at h
  rw [leNat_leBytes, mod_div_mod (by omega)]
  rfl

end Row

/-- What the landing of a result changes beside its register. -/
theorem land_fields (x : Hart) (wait : Bool) (l : Landing) (fl en : BitVec 5) (org : Origin) :
    let y := x.land wait l fl en org
    y.fflags = x.fflags ||| fl ∧ y.v = (x.put l).v ∧ y.x = (x.put l).x ∧ y.flight = (x.put l).flight ∧ y.ports = (x.put l).ports := by
  intro y
  dsimp only [y, Hart.land]
  split <;> exact ⟨rfl, rfl, rfl, rfl, rfl⟩

theorem put_v_rest (x : Hart) (r : VReg) (v m : VWord) :
    (x.put (.v r v m)).x = x.x ∧ (x.put (.v r v m)).flight = x.flight ∧ (x.put (.v r v m)).ports = x.ports := by
  dsimp only [Hart.put, Hart.wv]
  split <;> exact ⟨rfl, rfl, rfl⟩

theorem put_v_whole (x : Hart) {r : VReg} (hr : r.val < 24) (v : VWord) : (x.put (.v r v (BitVec.allOnes 2048))).v[r.val] = v := by
  dsimp only [Hart.put, Hart.wv]
  rw [dif_pos hr, Vector.getElem_set_self, BitVec.not_allOnes, BitVec.and_zero, BitVec.zero_or, BitVec.and_allOnes]

/-- The register that a command's result lands in: the one that its strand awaits. -/
def Hart.awaited (x : Hart) (c : Command) (v : VWord) : Landing :=
  match x.flight.find? (·.org.order == c.org.order) with
  | some f => (match f.land with
    | .v r _ m => .v r v m
    | _ => .none)
  | none => .none

/-- A result that a command owes is a vector register's or none. -/
theorem awaited_cases (x : Hart) (c : Command) (v : VWord) : x.awaited c v = .none ∨ ∃ r m, x.awaited c v = .v r v m := by
  unfold Hart.awaited
  split
  · split
    · exact .inr ⟨_, _, rfl⟩
    · exact .inl rfl
  · exact .inl rfl

/-- A strand receives the result of a command. -/
theorem receive_fields (x : Hart) (c : Command) (v : VWord) (fl : FlagSet) :
    let y := x.receive c v fl
    y.fflags = x.fflags ||| fl ∧ y.x = x.x ∧ y.flight = x.flight.filter (fun g => g.org.order != c.org.order) ∧
      y.ports = x.ports.map (fun q => q.fulfil c.org.order v) ∧ y.v = (x.put (x.awaited c v)).v := by
  obtain ⟨x1, hx1⟩ : ∃ x1 : Hart, x1 = { x with
    flight := x.flight.filter (·.org.order != c.org.order)
    ports := x.ports.map (fun (q : PortCtx) => q.fulfil c.org.order v) } := ⟨_, rfl⟩
  have hr : x.receive c v fl = x1.land true (x.awaited c v) fl (fl &&& c.en) c.org := by rw [hx1]; rfl
  intro y
  obtain ⟨hf, hv, hx, hfl, hp⟩ := land_fields x1 true (x.awaited c v) fl (fl &&& c.en) c.org
  dsimp only [y]
  rw [hr, hf, hv, hx, hfl, hp]
  rcases awaited_cases x c v with h | ⟨r, m, h⟩
  · rw [h, hx1]; exact ⟨rfl, rfl, rfl, rfl, rfl⟩
  · obtain ⟨h1, h2, h3⟩ := put_v_rest x1 r v m
    rw [h, h1, h2, h3, hx1]
    refine ⟨rfl, rfl, rfl, rfl, ?_⟩
    dsimp only [Hart.put, Hart.wv]
    split <;> rfl

/-- The whole register that the strand awaits receives the row. -/
theorem receive_register {x : Hart} {c : Command} {r : VReg} (hr : r.val < 24) {f : InFlight}
    (hf : x.flight.find? (fun g => g.org.order == c.org.order) = some f) (hland : f.land = .v r 0 (BitVec.allOnes 2048)) (v : VWord) (fl : FlagSet) :
    (x.receive c v fl).v[r.val] = v := by
  have haw : x.awaited c v = .v r v (BitVec.allOnes 2048) := by
    rw [Hart.awaited, hf]; dsimp only; rw [hland]
  obtain ⟨-, -, -, -, hv⟩ := receive_fields x c v fl
  refine (congrArg (·[r.val]) hv).trans ?_
  rw [haw]
  exact put_v_whole x hr v

/-- A strand that awaits no result of the command keeps its registers and results in flight. -/
theorem receive_unawaited {x : Hart} {c : Command} (h : ∀ g ∈ x.flight, g.org.order ≠ c.org.order) (v : VWord) (fl : FlagSet) :
    (x.receive c v fl).v = x.v ∧ (x.receive c v fl).flight = x.flight := by
  have haw : x.awaited c v = .none := by
    rw [Hart.awaited, List.find?_eq_none.mpr fun g hg => by simpa using h g hg]
  obtain ⟨-, -, hfl, -, hv⟩ := receive_fields x c v fl
  exact ⟨hv.trans (by rw [haw]; rfl), hfl.trans (List.filter_eq_self.mpr fun g hg => bne_iff_ne.mpr (h g hg))⟩

/-- A push that is owed, filled. -/
theorem fulfil_pend (q : PortCtx) (o : Nat) (v : VWord) {pre post : List Push} {w : Push} (hq : q.pend = pre ++ w :: post) (hw : w.owed = some o)
    (hrest : ∀ z ∈ pre ++ post, z.owed ≠ some o) :
    q.fulfil o v = { q with pend := pre ++ { w with bytes := leBytes (q.w * q.l) v.toNat, owed := none } :: post } := by
  have keep : ∀ l : List Push, (∀ z ∈ l, z ∈ pre ++ post) →
      l.map (fun u => if u.owed == some o then { u with bytes := leBytes (q.w * q.l) v.toNat, owed := none } else u) = l := fun l hl =>
    (List.map_congr_left fun z hz => if_neg (by simpa using hrest z (hl z hz))).trans (List.map_id _)
  rw [PortCtx.fulfil, hq, List.map_append, List.map_cons, keep pre fun z hz => List.mem_append_left _ hz,
    keep post fun z hz => List.mem_append_right _ hz, if_pos (by simp [hw])]

end Sys2Proof.Machine
end

section
namespace Sys2Proof.Machine
open Sys2Proof

/-! ### A store to a sound place of a scratchpad -/

theorem storeLoc_scratch {s : State} {bs : List Byte} {t off : Nat} (hs : s.writeBad (.scratch t off) bs.length = false) :
    ∃ y, s.storeLoc bs (.scratch t off) = s.setTile t y ∧ y.scratch = memWrite (s.tile t).scratch off bs ∧ y.cmds = (s.tile t).cmds := by
  rw [storeLoc_of_sound hs]
  simp only [State.heal]
  split
  · exact ⟨_, rfl, rfl, rfl⟩
  · rw [State.writeLoc, mapTile_eq, mapTile_eq, tile_setTile_self, setTile_setTile]
    exact ⟨_, rfl, rfl, rfl⟩

section Drain
variable {s : State} {t : Nat} {c : Command} {rest : List Command} (h : (s.tile t).DueFirst s.dtime c rest)
include h

/-- What an MDRAINS leaves (R187). -/
theorem retireDrains_leaves (hwf : s.memoriesWf) {off : Nat} (ha : c.opnd.toNat = aliasBase + off) (a : AccNo) (tf : Fmt) (rm : Rm) (sat : Bool)
    (row : Nat) (hw : s.writeBad (.scratch t off) (8 * tf.bits) = false) :
    let u := s.retireDrains t c a tf rm sat row
    let r := drainRow (s.tile t) a tf rm sat row
    (u.tile t).cmds = rest ∧ u.bytesAt (.scratch t off) (8 * tf.bits) = leBytes (8 * tf.bits) r.1.toNat
      ∧ (∀ i, ¬ (off ≤ i ∧ i < off + 8 * tf.bits) → u.byteAt (.scratch t i) = s.byteAt (.scratch t i))
      ∧ (u.hart (4 * t + c.strand.val)).fflags = (s.hart (4 * t + c.strand.val)).fflags ||| r.2 ∧ u.mem = s.mem := by
  intro u r
  have hlen : (leBytes (8 * tf.bits) r.1.toNat).length = 8 * tf.bits := leBytes_length _ _
  obtain ⟨y, hstore, hyscr, hycmds⟩ := storeLoc_scratch (bs := leBytes (8 * tf.bits) r.1.toNat) (hlen.symm ▸ hw)
  have hu : u = ((s.setTile t y).mapTile t (·.leave c)).mapHart (4 * t + c.strand.val) (·.receive c 0 r.2) := by
    rw [← hstore, show off = c.opnd.toNat - aliasBase by omega]
    rfl
  have htile : u.tile t = y.leave c := by
    rw [hu, mapHart_eq, mapTile_eq, setTile_setTile, setHart_tile, tile_setTile_self, tile_setTile_self]
  have hscr : (u.tile t).scratch = memWrite (s.tile t).scratch off (leBytes (8 * tf.bits) r.1.toNat) := by rw [htile, ← hyscr]; rfl
  refine ⟨?_, ?_, fun i hi => ?_, ?_, ?_⟩
  · rw [htile]; exact leave_dueFirst h hycmds
  · rw [bytesAt_scratch, hscr]
    have hr := memRead_memWrite (wf_scratch hwf t) off (leBytes (8 * tf.bits) r.1.toNat)
    rwa [hlen] at hr
  · rw [State.byteAt, State.byteAt, hscr]
    exact memGet_memWrite_outside _ _ (by rw [hlen]; omega)
  · rw [hu, mapHart_eq, hart_setHart_self]
    exact (receive_fields _ c 0 r.2).1
  · rw [hu]; rfl

/-- What an MDRAIN leaves but for its register and ports (R186). -/
theorem retireDrain_leaves (a : AccNo) (tf : Fmt) (rm : Rm) (sat : Bool) (row : Nat) :
    let u := s.retireDrain t c a tf rm sat row
    let r := drainRow (s.tile t) a tf rm sat row
    (u.tile t).cmds = rest ∧ u.hart (4 * t + c.strand.val) = (s.hart (4 * t + c.strand.val)).receive c r.1 r.2 ∧ u.mem = s.mem := by
  intro u r
  have hu : u = (s.mapTile t (·.leave c)).mapHart (4 * t + c.strand.val) (·.receive c r.1 r.2) := rfl
  refine ⟨?_, ?_, ?_⟩
  · rw [hu, mapHart_eq, mapTile_eq, setHart_tile, tile_setTile_self]
    exact leave_dueFirst h rfl
  · rw [hu, mapHart_eq, hart_setHart_self]; rfl
  · rw [hu]; rfl

end Drain

/-- Settles O34: the command that is due first is the one that retires, and each kind's meaning is its tile's new accumulators, rings and sticky
bits, or the row that lands. -/
theorem commandRetire : Obligations.CommandRetire := by
  unfold Obligations.CommandRetire
  intro s t hon c rest x h
  refine ⟨fun a hi => mzero_retires hon h hi, fun a int b hi => ?_, ?_, ?_, ?_, ?_⟩
  · obtain ⟨y, hy, hrest⟩ := retireMacc_tile h a int b
    exact ⟨y, by rw [TileBecomes, macc_retires hon h hi, hy], hrest⟩
  · intro n a ra rb fa fb pa pb hk qa qb sa sb ints sca scb len one
    obtain ⟨y, hy, hcmds, hint, hother, hacc, hiovf, htern, hrings, hscr⟩ := retireMma_tile h n a ra rb fa fb pa pb
    have hints : (fa.isInt && fb.isInt) = true ↔ ints := Bool.and_eq_true_iff
    refine ⟨y, by rw [TileBecomes, mma_retires hon h hk, hy], hcmds, by rw [hint, hints], hother, fun m hm j hj => ⟨fun hi => ?_, fun hi => ?_⟩,
      ?_, ?_, hrings, hscr⟩
    · rw [hacc]; exact (mmaSums_int hi).1 m hm j hj
    · rw [hacc]; exact (mmaSums_fx hi).2 m hm j hj
    · rw [hiovf, Bool.or_eq_true]
      refine or_congr_right ?_
      by_cases hi : ints
      · rw [(mmaSums_int hi).2]; exact (and_iff_right hi).symm
      · rw [(mmaSums_fx hi).1]; simp [hi]
    · rw [htern, Bool.or_eq_true, mmaSums_tern, Bool.or_eq_true, anyTern_iff, anyTern_iff]
  · intro a tf rm sat row r hi hwf off ha hfit hw e
    obtain ⟨hcmds, hbytes, hout, hfl, hmem⟩ := retireDrains_leaves h hwf ha a tf rm sat row.val hw
    refine ⟨_, mdrains_retires hon h hi, hcmds, fun n hn => ?_, hout, ?_, hmem⟩
    · rw [hbytes, leBytes_elem tf _ hn, drainRow_elem x a tf rm sat row hn]; rfl
    · rw [hfl, drainRow_flags]; rfl
  · intro a v tf rm sat row hi hv e me f hf hland
    obtain ⟨hcmds, hhart, hmem⟩ := retireDrain_leaves h a tf rm sat row.val
    obtain ⟨hfl, hx, hflight, -, -⟩ := receive_fields me c (drainRow x a tf rm sat row).1 (drainRow x a tf rm sat row).2
    have hreg := receive_register hv hf hland (drainRow x a tf rm sat row).1 (drainRow x a tf rm sat row).2
    refine ⟨_, mdrain_retires hon h hi, hcmds, ?_, hmem⟩
    rw [hhart]
    refine ⟨fun n hn => ?_, fun j hj _ => ?_, hfl.trans (by rw [drainRow_flags]; rfl), hflight, hx⟩
    · rw [hreg, drainRow_elem x a tf rm sat row hn]; rfl
    · rw [hreg]; exact drainRow_above x a tf rm sat row hj
  · intro a v tf rm sat row hi p hv e me q pre post w hq hw hpre hflight
    obtain ⟨hcmds, hhart, hmem⟩ := retireDrain_leaves h a tf rm sat row.val
    obtain ⟨hfl, hx, -, hports, -⟩ := receive_fields me c (drainRow x a tf rm sat row).1 (drainRow x a tf rm sat row).2
    obtain ⟨hvec, hfli⟩ := receive_unawaited hflight (drainRow x a tf rm sat row).1 (drainRow x a tf rm sat row).2
    refine ⟨_, _, mdrain_retires hon h hi, hcmds, fun n hn => drainRow_elem x a tf rm sat row hn,
      fun j hj _ => drainRow_above x a tf rm sat row hj, ?_, hmem⟩
    rw [hhart]
    refine ⟨?_, hfl.trans (by rw [drainRow_flags]; rfl), hvec, hx, hfli⟩
    rw [← fulfil_pend q c.org.order _ hq hw hpre]
    exact (congrArg (·[p]) hports).trans (Vector.getElem_map ..)

end Sys2Proof.Machine
end
